-- ==== Sys2Proof/Word.lean ====
section
/-!
DEFINITION. The words of the block: bytes, session handles, descriptors and FP32 bit patterns (00_scope R9, R10).
-/
namespace Sys2Proof

/-- One byte of a structure or payload. -/
abbrev Byte := BitVec 8

/-- A 64-bit session handle (R31). -/
abbrev Handle := BitVec 64

/-- A 64-byte command descriptor as one little-endian value (R66, R10). -/
abbrev Desc := BitVec 512

/-- The bit pattern of an FP32 value (R174). -/
abbrev F32 := BitVec 32

/-- The null handle (R31). -/
def nullHandle : Handle := 0

end Sys2Proof
end

