-- ==== Sys2Proof/Syntax.lean ====
section
/-!
DEFINITION. The commands of the block: one constructor of `Instr` for each row of the spec's table of operations and
events. The table gives the rows no bits, so the operands are the ones the rows' rules name: who sends the command,
which object it names, and the bytes that come with it from outside the device (control-node memory, a link message,
a packet, a side-band message, a pin). Where the spec leaves a choice to the device (a layer table, whether a pass
fits), the choice is an operand too, and the meaning holds it to the spec's bounds.
-/
namespace Sys2Proof

/-- The mailboxes (R71): the admin's, the side band's, and one per pen. -/
inductive Mb where
  | admin
  | sideBand
  | pen (n : Nat)
  deriving DecidableEq, Repr

/-- A host-port request's header: its requester context (R61), whether it came inside the SPDM session as a secured
message (R408), and whether a reserved header field was non-zero (R13). -/
structure Req where
  ctx : Nat
  secured : Bool := false
  rsvd : Bool := false
  deriving DecidableEq, Repr

/-- A flit link: a Step Link port or a Commons port (Table 1.2). -/
inductive Link where
  | step (p : Nat)
  | commons (p : Nat)
  deriving DecidableEq, Repr

/-- A Step Link message as it reaches the message layer (R255): virtual channel, header of Table 10.7, body. -/
structure SlMsg where
  vc : Nat
  header : BitVec 128
  body : List Byte
  deriving DecidableEq, Repr

/-- A Commons packet as it reaches the endpoint (R277): the port it came on, virtual channel, header of Table 11.3,
plaintext body, and whether every chunk's tag verifies (R278). -/
structure Pkt where
  port : Nat
  vc : Nat
  header : BitVec 512
  tagOk : Bool
  body : List Byte
  deriving DecidableEq, Repr

/-- The units of Tables 3.7 and 3.8 that execute ring commands (R96). -/
inductive CmdUnit where
  | reeve | shepherd | weaver | gleaners
  deriving DecidableEq, Repr

/-- The resettable units of Table 13.2, with their indices. -/
inductive ResetUnit where
  | ox (i : Nat)
  | drover (i : Nat)
  | gleaner (i : Nat)
  | flashController (i : Nat)
  | weaverLane (i : Nat)
  | shepherdSlice (i : Nat)
  | crypto (i : Nat)
  | reeveCore (i : Nat)
  | ledgerHarvest
  | unresettable
  deriving DecidableEq, Repr

/-- One layer of a plan's layer table as the Shepherd chose it (Table 5.5, R456). -/
structure LayerTiming where
  streamDue : Nat
  promoteDue : Nat
  partialDue : Nat
  oxPasses : Nat
  span : Nat
  deriving DecidableEq, Repr

/-- The kinds of datum that can be late (R118 to R120). -/
inductive Datum where
  | stream | promotion | pool
  /-- A pass that runs again (07 R184). -/
  | rerun
  deriving DecidableEq, Repr

/-- How a drover pass ended (R147). -/
inductive PassEnd where
  | ok
  /-- A source check fails; of a bale, at the sheaf of this place. -/
  | sourceTagFail (place : Nat)
  | writeFail | readBackFail
  deriving DecidableEq, Repr

/-- The transports on which SPDM is answered (Table 16.6). -/
inductive Transport where
  | hostPort | sideBand
  deriving DecidableEq, Repr

/-- Which slot of an image the boot ROM finds to pass the checks of R403 (18 R442): the active one, only the other, or
neither. -/
inductive SlotBoot where
  | active | other | neither
  deriving DecidableEq, Repr

/-- The commands: every row of the table, in the table's order. -/
inductive Instr where
  | hostRegisterWrite (q : Req) (off : Nat) (data : List Byte)
  | hostAccessError (q : Req) (off width : Nat) (isWrite : Bool)
  | healthRead (q : Req)
  | hostErrorsClear (q : Req) (value : BitVec 64)
  | ladderPenReinit (q : Req) (value : BitVec 64)
  | ladderWarmReset (q : Req) (value : BitVec 64)
  | doorbell (q : Req) (pen ring : Nat) (value : BitVec 64)
  | mailboxOverrun (q : Req) (mb : Mb) (off : Nat) (data : List Byte)
  | mailboxTimeout (mb : Mb)
  | mbLate (mb : Mb)
  | nirvexCaps (mb : Mb)
  | penCreate (mb : Mb)
  | penDestroy (mb : Mb)
  | penConfig (mb : Mb)
  | penReinit (mb : Mb)
  | penReinitRestart (pen : Nat)
  | penReinitOverrun (pen : Nat)
  | ringCreate (mb : Mb)
  | ringDestroy (mb : Mb)
  | ringConfig (mb : Mb)
  | layoutLoad (mb : Mb)
  | layoutUnload (mb : Mb)
  | constraintLoad (mb : Mb) (source : List Byte)
  | constraintUnload (mb : Mb)
  | flockCreate (mb : Mb)
  | flockDestroy (mb : Mb)
  | flockPlanConfig (mb : Mb)
  | anchorSet (mb : Mb)
  | routeSet (mb : Mb)
  | compositionSet (mb : Mb) (map : List Byte)
  | ledgerPartnerSet (mb : Mb)
  | nodeDown (mb : Mb)
  | checkpoint (mb : Mb) (name : List Byte)
  | restore (mb : Mb) (name : List Byte) (part0 : List Byte) (certOk : Bool)
  | fwStage (mb : Mb) (image : List Byte) (readsBack : Bool)
  | fwActivate (mb : Mb)
  | liveUpdateDone (blown : Nat)
  | liveUpdateAbandon
  | watchmanImageWritten (readsBack : Bool)
  | powerLimitSet (mb : Mb)
  | countersRead (mb : Mb)
  | indexCreate (mb : Mb)
  | indexDestroy (mb : Mb)
  | fetch (pen ring : Nat) (desc : Desc)
  | tollgateTick
  | dispatch (unit : CmdUnit) (pen ring : Nat)
  | tollgateSample (pen ring : Nat)
  | heartbeatWindow
  | reeveHeartbeatTick
  | sessionOpen (pen ring : Nat)
  | sessionFork (pen ring : Nat)
  | sessionClose (pen ring : Nat)
  | sessionPark (pen ring : Nat)
  | sessionResume (pen ring : Nat)
  | sessionQuery (pen ring : Nat)
  | sessionConfig (pen ring : Nat)
  | leaseStage (pen ring : Nat)
  | appendText (pen ring : Nat) (text : List Byte)
  | appendTokens (pen ring : Nat) (ids : List Byte)
  | outputPost (pen ring : Nat)
  | indexInsert (pen ring : Nat) (records : List Byte)
  | indexDelete (pen ring : Nat) (records : List Byte)
  | indexCommit (pen ring : Nat)
  | search (pen ring : Nat) (query : List Byte)
  | compactionTimer (pen index : Nat)
  | snapshot (flock : Nat) (table : List LayerTiming)
  | go (flock : Nat)
  | dueCheck (flock entry layer : Nat) (datum : Datum) (fits : Bool)
  | stepAbandon (flock : Nat)
  | stepBoundary (flock : Nat)
  | servicePlanStep
  | moveStart (move drover : Nat)
  | moveWriteDone (move : Nat) (how : PassEnd)
  | moveFree (move : Nat)
  | parkedDemote (h : Handle)
  | oxPassDone (flock entry layer tile : Nat) (failed : Option Nat)
  | planAck (port : Nat) (m : SlMsg)
  | leaseAck (port : Nat) (m : SlMsg)
  | reclaimed (port : Nat) (m : SlMsg)
  | reclaimTimeout (port lease : Nat)
  | landed (port : Nat) (m : SlMsg)
  | query (port : Nat) (m : SlMsg)
  | appendData (port : Nat) (m : SlMsg)
  | rows (port : Nat) (m : SlMsg)
  | stepDone (port : Nat) (m : SlMsg)
  | stepLinkHello (port : Nat) (m : SlMsg) (grants : List Nat)
  | slotTable (port : Nat) (m : SlMsg)
  | ready (port : Nat) (m : SlMsg)
  | resyncDone (port : Nat) (m : SlMsg)
  | resyncTimeout (port : Nat)
  | stepLinkError (port : Nat) (m : SlMsg)
  | flit (link : Link) (crcOk : Bool) (header : BitVec 64) (payload : List Byte)
  | nak (link : Link) (header : BitVec 64)
  | replayTimer (link : Link)
  | retrainDone (link : Link) (usable : BitVec 32)
  | retrainTimeout (link : Link)
  | trainingDone (link : Link) (usable : BitVec 32)
  | trainingTimeout (link : Link)
  | bringupOverrun (link : Link)
  | portRetry (link : Link)
  | flashChannelSilent (channel : Nat)
  | hbmStackFail (stack : Nat) (lost : List Handle)
  | commonsHello (port : Nat) (m : SlMsg)
  | write (p : Pkt)
  | read (p : Pkt) (dataOk : Bool)
  | atomic (p : Pkt)
  | copy (p : Pkt) (dataOk : Bool)
  | attendReq (p : Pkt) (failed : Option Nat)
  | searchReq (p : Pkt)
  | regRead (p : Pkt)
  | regOffer (p : Pkt)
  | regCommit (p : Pkt)
  | regWithdraw (p : Pkt)
  | regLife (p : Pkt)
  | regRetire (p : Pkt)
  | regRegrow (p : Pkt)
  | regMirror (p : Pkt)
  | handoffAsk (p : Pkt)
  | homeChanged (p : Pkt)
  | restarted (p : Pkt)
  | records (p : Pkt)
  | fetchRecords (p : Pkt)
  | drop (p : Pkt)
  | commonsResponse (p : Pkt)
  | ledgerCommit (h : Handle)
  | ledgerWriteBehind
  | partnerRetry
  | requestRetransmit (pktId : Nat)
  | routeWaitExpiry (pktId : Nat)
  | offerExpiry (h : Handle)
  | handoffCheck (h : Handle)
  | drainFenceEnd
  | unitReset (unit : ResetUnit) (selfTestOk : Bool)
  | warmReset (leavesSelfRefresh : Bool)
  | warmResetRejoin (lostUnits : List ResetUnit) (badRings : List (Nat × Nat)) (badSessions : List Handle)
  | reeveWatchdog
  | warmResetTimeout
  | pwrCycleRelease
  | powerCycleTimeout
  | porstLAssert (nanoseconds : Nat)
  | porstLRelease (nodeSel : BitVec 13) (bscanL : Bool) (certOk : Bool) (watchman : SlotBoot)
  | bootServing (channels : List Nat) (hbmStacks : List Nat) (lostUnits : List ResetUnit) (reeve : SlotBoot) (blown : Nat)
  | warmRstL (nanoseconds : Nat)
  | railFault (rail : Nat) (outOfOrder : Bool)
  | refclkAoLoss
  | hearthTick (samples : List (Option Int)) (energy : Nat)
  | overrunWindow
  | wakeIssue
  | domainSleep (domain : Nat)
  | domainOffTimer (domain : Nat)
  | eventMaskWrite (q : Req) (pen : Nat) (value : BitVec 64)
  | attnPendingWrite (q : Req) (pen : Nat) (value : BitVec 64)
  | attnMaskWrite (q : Req) (pen : Nat) (value : BitVec 64)
  | evBaseWrite (q : Req) (pen ring : Nat) (value : BitVec 64)
  | evCtrlWrite (q : Req) (pen ring : Nat) (value : BitVec 64)
  | moderationWrite (q : Req) (pen ring : Nat) (value : BitVec 64)
  | consumerWrite (q : Req) (pen ring : Nat) (value : BitVec 64)
  | moderationTimer (pen ring : Nat)
  | sbMailbox (length : Nat) (desc : Desc) (payload : List Byte)
  | statusRead (offset count : Nat)
  | sbPenReinit (pen : Nat) (confirm : BitVec 16)
  | sbWarmReset (confirm : BitVec 16)
  | sbPowerCycle (confirm : BitVec 16)
  | release (confirm : BitVec 16)
  | eventSubscribe (eid : BitVec 8)
  | eventRecord
  | eventRecordTimeout
  | watchmanStatus
  | sbBadRequest (command : BitVec 8) (operands : List Byte)
  | watchmanWatchdog
  | setEndpointId (dest eid : BitVec 8)
  | getEndpointId (dest : BitVec 8)
  | getEndpointUuid (dest : BitVec 8)
  | getMctpVersionSupport (dest : BitVec 8) (type : BitVec 8)
  | getMessageTypeSupport (dest : BitVec 8)
  | getVendorMessageSupport (dest : BitVec 8) (selector : BitVec 8)
  | entdaa (address : BitVec 7)
  | setdasa (address : BitVec 7)
  | rstdaa
  | gettid
  | getpldmversion (type : BitVec 8)
  | getpldmtypes
  | getpldmcommands (type : BitVec 8)
  | getpdrrepositoryinfo
  | getpdr (record : BitVec 32)
  | getsensorreading (sensor : BitVec 16)
  | getstatesensorreadings (sensor : BitVec 16)
  | requestupdate (component : BitVec 16) (size : Nat)
  | requestfirmwaredata (block : List Byte) (readsBack : Bool)
  | activatefirmware
  | cancelupdate
  | pldmUpdateIdle
  | getVersion (t : Transport)
  | getCapabilities (t : Transport)
  | negotiateAlgorithms (t : Transport) (matchesTable : Bool)
  | getDigests (t : Transport)
  | getCertificate (t : Transport) (slot : BitVec 8) (offset length : BitVec 16)
  | challenge (t : Transport) (slot : BitVec 8) (nonce : BitVec 256)
  | getMeasurements (t : Transport) (index : BitVec 8) (signed : Bool) (nonce : BitVec 256)
  | keyExchange (t : Transport)
  | finish (t : Transport) (verifies : Bool)
  | endSession (t : Transport)
  | heartbeat (t : Transport)
  | keyUpdate (t : Transport)
  | spdmHeartbeatTimeout
  | operatorKey (q : Req) (slot : Nat) (enrol : Bool) (key : BitVec 512) (signer : Option Nat) (signature : BitVec 512)
  | unsupportedRequest (t : Transport) (code : BitVec 8)
  | securedMessageTagFail
  | idcode
  | extest
  | samplePreload
  | clamp
  | highz
  | dbgNonce
  | dbgToken (token : BitVec 896)
  | dbgStatus
  | dbgRelock (bit : Bool)
  | dtmcs (value : BitVec 32)
  | dmi (addr : BitVec 7) (data : BitVec 32) (op : BitVec 2)
  | bypass
  | testLogicReset
  | mbSubmit (q : Req) (mb : Mb) (value : BitVec 64)
  | lockOrAlignmentLost (link : Link)
  | anchorTimeout (flock : Nat)
  | planAckTimeout (flock : Nat)
  | domainWoken (domain : Nat)
  | refclkAoReturn
  | railRestored
  | drbgReseed (ok : Bool)
  | unsupportedPldmCmd (type command : BitVec 8)
  | unsupportedMctpCmd (dest command : BitVec 8)
  | mctpMessageDiscard (dest : BitVec 8) (length : Nat) (reassembles : Bool)
  deriving DecidableEq, Repr

end Sys2Proof
end

