-- ==== Sys2Proof/Decode.lean ====
section
/-!
DEFINITION. The words of the table. No row of the table gives its command any bits: a command is an operation or an
event at the block's interfaces, not an encoded word (log entry 2). So no word spells a command.
-/
namespace Sys2Proof

/-- The command a word spells by the table's bits: none, for no row has bits. -/
def decodeTableWord (_nbits _w : Nat) : Option Instr := none

end Sys2Proof
end

