-- ==== Sys2Proof/Config.lean ====
section
/-!
DEFINITION. What an implementation, a part or its firmware image fixes and the spec leaves open: constants without a
body, so that no proof can see a value (each is named in the assumption log).
-/
namespace Sys2Proof.Config

/-- FW_VERSION of the image in the boot device at power-on (03 R79: the manual fixes no value). -/
opaque bootFwVersion : BitVec 24

/-- NIRVEX_MINOR of an image (03 Tables 3.2 and 3.9: the running image's). -/
opaque nirvexMinor : BitVec 24 → BitVec 8

/-- SVN of the boot image, and of the Watchman image (16 R403). -/
opaque bootSvn : Nat

/-- BODY_DIGEST of the boot image (16 R407). -/
opaque bootDigest : BitVec 256

/-- FW_VERSION of the Watchman image the boot device holds (17 Table 17.3). -/
opaque watchmanVersion : BitVec 24

/-- SERIAL, fused at manufacture (03 R79). -/
opaque serial : BitVec 64

/-- Raw bytes of each flash channel's population (18 R446). -/
opaque channelBytes : Nat → Nat

/-- Blocks of each flash channel (13 Table 13.4: the spec gives no block size). -/
opaque channelBlocks : Nat → Nat

/-- Blocks that a channel retires in a service step, by the number of the drawing and the channel (06 R135). -/
opaque blocksRetired : Nat → Nat → Nat

/-- Replies to the old incarnation of a unit that come in the Drain phase of its reset, by the number of the drawing (13 Table
13.3). -/
opaque oldReplies : Nat → Nat

/-- RETRY_HINT of a RETRY_LATER completion where no rule derives it (03 Table 3.5). -/
opaque retryHint : Nat → BitVec 16

/-- A device-internal locator: SHEAF_MAP and LEDGER_REGION of a session (02 R37; kind 0), LOCATION of a sheaf in T1 and of a
page run in T2 (R47; kinds 1 and 2), by the number of what it locates. -/
opaque locator : (kind number : Nat) → BitVec 40

/-- The parity group that a drover gives a page run, by the number of the run: the device's choice among the groups open to
it (06 R135). -/
opaque pickGroup : Nat → Nat

/-- AUTOMATON_STATE as a number: the numbering of compiled states is the device's (09 R228). -/
opaque automatonState : Nat → List Nat → List Nat → BitVec 14

/-- States and transitions a compiled constraint set takes (09 R227). -/
opaque compiledStates : List Byte → Nat
opaque compiledTransitions : List Byte → Nat

/-- Sizes of an index's T1 structures (08 R212: charged at their exact sizes, which no rule gives): a side-list entry of
the index's PARAMS, an entry of the tombstone table, a strip descriptor. -/
opaque sideEntryBytes : Nat → Nat
opaque tombstoneBytes : Nat
opaque stripDescriptorBytes : Nat

/-- The Hearth's price model (05 R111, 15 R378): microjoules of an entry by kind code, class, tokens, whether sheaves are
selected, the length bucket and the promotions of each layer with ox work (07 R182, 08 R197), and pool sources; and of a plan's
fixed part, by drover slots, gleaner scans and domain wakes. -/
opaque price : Nat → Bool → Nat → Bool → List (Nat × Nat) → Nat → Nat
opaque fixedPrice : (slots scans wakes : Nat) → Nat

/-- Element codes of an MX block whose scale code is 0xFF, by place in the block (06 R145 gives the scale code only). -/
opaque nanBlock : Nat → Nat

/-- The NaN that a result stored in a record carries where the spec says only NaN (08 R209): sign and payload bits. -/
opaque nanBits : Nat → BitVec 32

/-- Metered energy of a plan or a service step (15 R381), by the number of the drawing. -/
opaque metered : Nat → Nat

/-- Which unit holds what (13 Table 13.2 gives the effect of a reset, not the assignment): whether a Weaver lane holds
logits of an entry not yet sampled (by the number of the drawing), the Reeve core of a command, the Shepherd slice of a flock,
the entry whose append a drover takes (flock and entry), and the pass that an ox runs (its place among those outstanding, by
the number of the drawing). -/
opaque heldLogits : (drawing entry : Nat) → Bool
opaque reeveCore : Nat → Nat
opaque shepherdSlice : Nat → Nat
opaque passEntry : Nat → Nat × Nat
opaque passPlace : Nat → Nat

/-- Random values of the DRBG (16 R393). -/
opaque random : Nat → BitVec 512

/-- Whether an ECDSA P-256 signature over a digest verifies under a key (16 R403, R401, R410). -/
opaque ecdsaVerifies : (key : BitVec 512) → (digest : BitVec 256) → (signature : BitVec 512) → Bool

/-- Ebunlon's image-signing key and debug-token key (16 R403, R410). -/
opaque imageKey : BitVec 512
opaque tokenKey : BitVec 512

/-- The identity certificate chain, and signatures the device makes (16 R406). -/
opaque certificate : List Byte
opaque sign : List Byte → BitVec 512

/-- BODY_DIGEST of the Watchman image the boot device came with, its SVN, and SHA-256 of the boot ROM (16 Table 16.7). -/
opaque watchmanDigest : BitVec 256
opaque bootRomDigest : BitVec 256

/-- Requester context and offset of a secured message whose tag fails, which the device cannot read (16 R408). -/
opaque unreadHeader : Nat → Nat × Nat

/-- What MCTP and PLDM carry and the manual does not fix (17 R417, R422): the endpoint UUID, the versions answered for an
MCTP message type and for a PLDM type, the TID, the Type 5 command bitmap, and the previous and event state of a sensor. -/
opaque endpointUuid : BitVec 128
opaque mctpVersions : Nat → List Byte
opaque pldmTid : BitVec 8
opaque pldmVersions : Nat → List Byte
opaque pldmUpdateCommands : BitVec 256
opaque sensorHistory : Nat → BitVec 16

/-- The PDR repository (17 R422: fixed for an ordering number, and changed by the census): its information and its records,
by whether the device is a LYS4160-PC and the units of the census. -/
opaque pdrInfo : (pc : Bool) → (census : List (List Nat)) → List Byte
opaque pdr : (pc : Bool) → (census : List (List Nat)) → (record : Nat) → Option (List Byte)

/-- Whether an assertion of PORST_L of 1 µs to 10 µs resets the device (18 R440 leaves it open). -/
opaque porstTakes : Nat → Bool

/-- DEVICE_ROOT and GROUP_KEY, fused at manufacture (16 R391). -/
opaque deviceRoot : List Byte
opaque groupKey : List Byte

/-- A store object under its key (16 R399, R400): ciphertext chunks with their nonces and tags, from the encryption key,
the additional data, the number of the nonces' drawing (none for convergent objects) and the plaintext; and back, none
where a tag fails. -/
opaque sealObject : (key aad : List Byte) → (nonce : Option Nat) → (plain : List Byte) → List Byte
opaque openObject : (key aad : List Byte) → (random : Bool) → (stored : List Byte) → Option (List Byte)

/-- The debug module (17 R428): what a hart register or a bus address holds that nothing has written through it, and which
addresses a level reaches, whose places the spec does not give. -/
opaque hartReg : (hart reg : Nat) → BitVec 64
opaque debugWord : Nat → BitVec 64
opaque debugReaches : (level addr : Nat) → Bool

/-- Boundary-scan register length and captured cells (17 R425: cells not given). -/
opaque bscanWidth : Nat
opaque bscanCapture : Nat → Nat

end Sys2Proof.Config
end

