-- ==== Sys2Proof/Machine/Maps.lean ====
section
/-!
DEFINITION. Association lists, tallies, sparse byte memories, and the packing of little-endian structures (00_scope R9,
R10). Every table of the device that is keyed by a number or a handle is an association list with one entry per key.
-/
namespace Sys2Proof.Machine

/-! ### Association lists -/

/-- The value under key `k`, if any. -/
def assocGet {κ α : Type} [DecidableEq κ] (k : κ) : List (κ × α) → Option α
  | [] => none
  | (j, v) :: m => if j = k then some v else assocGet k m

/-- `m` with `v` under key `k`: in its old place, or last. -/
def assocSet {κ α : Type} [DecidableEq κ] (k : κ) (v : α) : List (κ × α) → List (κ × α)
  | [] => [(k, v)]
  | (j, w) :: m => if j = k then (k, v) :: m else (j, w) :: assocSet k v m

/-- `m` without key `k`. -/
def assocDel {κ α : Type} [DecidableEq κ] (k : κ) : List (κ × α) → List (κ × α)
  | [] => []
  | (j, w) :: m => if j = k then assocDel k m else (j, w) :: assocDel k m

/-- `m` with `f` applied to the value under key `k`, if any. -/
def assocMod {κ α : Type} [DecidableEq κ] (k : κ) (f : α → α) : List (κ × α) → List (κ × α)
  | [] => []
  | (j, w) :: m => if j = k then (j, f w) :: m else (j, w) :: assocMod k f m

/-- Whether key `k` is present. -/
def assocHas {κ α : Type} [DecidableEq κ] (k : κ) (m : List (κ × α)) : Bool :=
  (assocGet k m).isSome

/-! ### Tallies: counters by name, an absent name counting 0 -/

/-- The count under `k`. -/
def tallyGet {κ : Type} [DecidableEq κ] (m : List (κ × Nat)) (k : κ) : Nat :=
  (assocGet k m).getD 0

/-- `m` with `n` added under `k`, saturating at the largest value of `w` bits. -/
def tallyAdd {κ : Type} [DecidableEq κ] (m : List (κ × Nat)) (k : κ) (n w : Nat) : List (κ × Nat) :=
  assocSet k (min (2 ^ w - 1) (tallyGet m k + n)) m

/-- `m` with the larger of the count and `n` under `k`, held to `w` bits. -/
def tallyMax {κ : Type} [DecidableEq κ] (m : List (κ × Nat)) (k : κ) (n w : Nat) : List (κ × Nat) :=
  assocSet k (max (tallyGet m k) (min (2 ^ w - 1) n)) m

/-! ### Sparse byte memories

A memory is a list of cells in one canonical form: addresses strictly rising, no cell zero. An unlisted address reads
zero. -/

/-- The byte at address `a`. -/
def memRead : List (Nat × Byte) → Nat → Byte
  | [], _ => 0
  | (b, v) :: m, a => if b = a then v else memRead m a

/-- The memory with byte `v` at address `a`, in canonical form when `m` is. -/
def memWrite : List (Nat × Byte) → Nat → Byte → List (Nat × Byte)
  | [], a, v => if v = 0 then [] else [(a, v)]
  | (b, w) :: m, a, v =>
    if a < b then (if v = 0 then (b, w) :: m else (a, v) :: (b, w) :: m)
    else if a = b then (if v = 0 then m else (a, v) :: m)
    else (b, w) :: memWrite m a v

/-- The memory with the bytes `vs` from address `a` on. -/
def memWriteBytes (m : List (Nat × Byte)) (a : Nat) : List Byte → List (Nat × Byte)
  | [] => m
  | v :: vs => memWriteBytes (memWrite m a v) (a + 1) vs

/-- The `n` bytes from address `a` on. -/
def memReadBytes (m : List (Nat × Byte)) (a : Nat) : Nat → List Byte
  | 0 => []
  | n + 1 => memRead m a :: memReadBytes m (a + 1) n

/-- The canonical form: addresses strictly rising above `lo`, no zero cell. -/
def memWfFrom (lo : Nat) : List (Nat × Byte) → Bool
  | [] => true
  | (a, v) :: m => decide (lo ≤ a) && decide (v ≠ 0) && memWfFrom (a + 1) m

/-- The canonical form of a memory. -/
def Memory.wf (m : List (Nat × Byte)) : Bool := memWfFrom 0 m

/-! ### Bits, bytes and packed structures -/

/-- Bits `lo + w - 1 : lo` of `v`. -/
def bitsOf (v lo w : Nat) : Nat := v / 2 ^ lo % 2 ^ w

/-- Bit `i` of `v`. -/
def bitOf (v i : Nat) : Bool := bitsOf v i 1 == 1

/-- A flag as a number. -/
def bitNat (b : Bool) : Nat := if b then 1 else 0

/-- Fields `(width, value)` packed from bit 0 up, each value cut to its width (R9). -/
def packNat : List (Nat × Nat) → Nat
  | [] => 0
  | (w, v) :: fs => v % 2 ^ w + 2 ^ w * packNat fs

/-- The `n` bytes of `v`, least significant first (R10). -/
def natToBytes : Nat → Nat → List Byte
  | 0, _ => []
  | n + 1, v => BitVec.ofNat 8 v :: natToBytes n (v / 256)

/-- The value of a little-endian byte string (R10). -/
def bytesToNat : List Byte → Nat
  | [] => 0
  | b :: bs => b.toNat + 256 * bytesToNat bs

/-- A packed structure of `n` bytes. -/
def packBytes (n : Nat) (fs : List (Nat × Nat)) : List Byte := natToBytes n (packNat fs)

/-- Bytes `off .. off + n - 1` of a string as a little-endian value; bytes beyond its end read zero. -/
def bytesAt (bs : List Byte) (off n : Nat) : Nat := bytesToNat ((bs.drop off).take n)

/-- The string cut into pieces of `n` bytes, at most `k` pieces. -/
def chunks (n : Nat) : Nat → List Byte → List (List Byte)
  | 0, _ => []
  | k + 1, bs => if bs.isEmpty then [] else bs.take n :: chunks n k (bs.drop n)

/-- The smallest whole number of `d`s that covers `n`. -/
def ceilDiv (n d : Nat) : Nat := (n + d - 1) / d

/-- The difference of two free-running 32-bit counters (R75). -/
def sub32 (a b : Nat) : Nat := (a + 2 ^ 32 - b % 2 ^ 32) % 2 ^ 32

/-- A free-running 32-bit counter advanced by `n`. -/
def add32 (a n : Nat) : Nat := (a + n) % 2 ^ 32

/-- The next multiple of `m` strictly above `now` (R451). -/
def nextMultiple (m now : Nat) : Nat := (now / m + 1) * m

/-- The value held to the range of `w` bits. -/
def satBits (w n : Nat) : Nat := min (2 ^ w - 1) n

/-- Every value changed, the keys kept. -/
def mapVals {α β : Type} (f : β → β) (l : List (α × β)) : List (α × β) := l.map fun x => (x.1, f x.2)

/-! ### Order -/

/-- An element put in its place in a list in order. -/
def insertBy {α : Type} (le : α → α → Bool) (x : α) : List α → List α
  | [] => [x]
  | y :: l => if le x y then x :: y :: l else y :: insertBy le x l

/-- A list in order: equal elements keep the order they came in. -/
def sortBy {α : Type} (le : α → α → Bool) (l : List α) : List α := l.foldr (insertBy le) []

end Sys2Proof.Machine
end

