-- ==== Sys2Proof/Machine/Names.lean ====
section
/-!
DEFINITION. The names the spec gives to statuses (03_nirvex_interface Table 3.6), to the counters of the report
(13_faults_and_recovery Table 13.9), and to the codes of states, causes and lives that are not software-written words.
-/
namespace Sys2Proof.Machine

/-- The status codes of Table 3.6 (R68). -/
inductive Status where
  | ok | retryLater | throttled | abortedRetryable | retryUnitReset | redirect | busyUpdate
  | badHandle | badParam | quota | badLength | denied | unsupported
  | unknown | stale | failedCensus | failedAuth
  deriving DecidableEq, Repr

/-- STATE of HEALTH (Table 3.2). -/
inductive DevState where
  | boot | serving | updating | warmReset | halted
  deriving DecidableEq, Repr

/-- LIFE of a registry entry (Table 2.2). -/
inductive Life where
  | free | live | regrow | closed | exhausted
  deriving DecidableEq, Repr

/-- STATE of a session record (Table 2.4); code 0 marks a free slot, which the model does not list. -/
inductive SessState where
  | opened | runnable | running | parked | closed | faulted
  deriving DecidableEq, Repr

/-- PARK_CAUSE of Table 2.4. -/
inductive ParkCause where
  | turnEnd | toolCall | deadEnd | stop | endOfSession | host | limit | prefixDone
  deriving DecidableEq, Repr

/-- FAULT_CAUSE of Table 2.4. -/
inductive FaultCause where
  | tagFail | homeLost | restore
  deriving DecidableEq, Repr

/-- AUTHOR of R219 and Table 12.2. -/
inductive Author where
  | model | user | tool | system
  deriving DecidableEq, Repr

/-- A tier of session state (Table 1.3). -/
inductive Tier where
  | t1 | t2 | t3
  deriving DecidableEq, Repr

/-- Link state of a Step Link or Commons port (Table 10.5). -/
inductive PortState where
  | off | training | linked | up | retrain | failed
  deriving DecidableEq, Repr

/-- State of a clock domain (15_hearth_power Table 15.1). -/
inductive DomState where
  | run | sleep | off
  deriving DecidableEq, Repr

/-- Lease states of Table 2.8. -/
inductive LeaseState where
  | staged | named | extending | cancelled
  deriving DecidableEq, Repr

/-- Pre-emption causes of R117. -/
inductive PreCause where
  | capacity | energy | quantum | thermal | tier | flock
  deriving DecidableEq, Repr

/-- Sit-out causes (R121, Table 10.9). -/
inductive SitCause where
  | streamLate | promoteLate | t3Late | fallbackFull | anchorTimeout | fault | logitsMissing
  deriving DecidableEq, Repr

/-- The counters of one class in the Shepherd record (Table 5.8). -/
inductive ShepCtr where
  | entries | waitSum | waitMax | waited
  | pre (c : PreCause) | sit (c : SitCause)
  | fallbacks | stalls | stageCancelled | stallCycles | stalledCycles
  deriving DecidableEq, Repr

/-- The per-pen counters of the report: Tables 13.11, 5.8, 6.9, 7.9, 8.9, 9.8 and 12.8. T1_USED, T2_USED, T3_USED,
T1_PINNED and LEDGER_BYTES are computed from the state they measure and are not listed. -/
inductive PenCtr where
  | mbLate | dbInvalid | unitResetRetries | aborted | penReinits | deviceRestarts
  | sessionFaults | faultTagFail | faultHomeLost | faultRestore | regrowBlocked | faultedCycles
  | shep (latencyCritical : Bool) (c : ShepCtr)
  | promotedBytes | demotedBytes | quotaRefusals | retryRefusals | movesAbandoned | tagFails
  | transcoded | handovers | t3Refused | t2Waits
  | passes | rows | scored | emptyPartials | nonfiniteRows | remoteRequests | remoteRefused
  | bucket (n : Nat) | passReruns
  | selectLayers | sketchesCompared | candShort | selectShort | rescored | searches
  | entriesScanned | shortResults | widened | compactions | scanYields
  | tokensIn | tokensSampled | looseBytes | replacements | escapedIntro | substituted | introBad
  | controlDropped | deadEnds | stops | nonfiniteLogits | logitsDiscards | logitsMissing
  | forcedTokens | draftsOffered | draftsAccepted | outputBytes
  | groups | tokens | commitWaitMax | soloGroups | regrows | deferred | regrownPositions
  | restored | ckptSessions | ckptBytes | ckptDedupBytes
  deriving DecidableEq, Repr

/-- The counters of a ring: DB_INVALID (Table 13.12) and Table 4.3. -/
inductive RingCtr where
  | dbInvalid | green | yellow | red | throttled | admittedBytes
  | depthLast | depthMax | holLast | holMax | samples | oversize
  deriving DecidableEq, Repr

/-- The device counters of the report: Tables 13.13 and 11.12. WARM_RESETS and POWER_CYCLES lie in the boot device. -/
inductive DevCtr where
  | unitResets | oldIncarnationReplies | penReinits | censusLosses | hbmTagFails | flashTagFails
  | pagesReconstructed | blocksRetired
  | packetsTx | packetsRx | retransmits | tagFails | misrouted | oldIncarnation | deniedIn | epochStaleIn
  | cacheHits | staleIn | unknownOut | unreachable | handoffs | conflicts | redirects | msgDiscards
  deriving DecidableEq, Repr

/-- The counters of a flock (Table 13.14). -/
inductive FlockCtr where
  | accelSlip | abandoned | truncated
  deriving DecidableEq, Repr

/-- The counters of a Step Link or Commons port (Table 10.12). -/
inductive PortCtr where
  | flitsTx | flitsRx | fecCorrected | fecUncorrectable | crcErrors | naksSent | replays | retrains | degrades
  | linkResets | protoErrors | msgDiscards | rsvdNonzero | attendDiscards | appendDiscards | staleStep
  | errorsReported
  deriving DecidableEq, Repr

/-- The host error counters of HOST_ERRORS (Table 3.2). -/
inductive HostErr where
  | accessDenied | unmapped | badWrite | rsvdNonzero
  deriving DecidableEq, Repr

/-- Colours of R89. -/
inductive Colour where
  | green | yellow | red
  deriving DecidableEq, Repr

end Sys2Proof.Machine
end

