-- ==== Sys2Proof/Machine/State.lean ====
section
/-!
DEFINITION. The state of the block: every register, queue, buffer, counter, mode and pin the spec gives the LYS4160, as
plain data, with the queue of waiting commands. Numbers that the spec only counts, compares or indexes with are `Nat`;
values the spec treats as words are bit vectors. Tables are association lists with one entry per key; memories are lists
of cells in canonical form.
-/
namespace Sys2Proof.Machine

/-- A completed or running step can stop only here. -/
inductive Fault where
  /-- Raised by a command that names a unit, port, pen or domain index outside Table 1.2 (01_architecture R14): there is
  no such unit. Safe: no such command can arrive at the hardware. -/
  | noSuchUnit
  deriving DecidableEq, Repr

/-- The model gives a command no meaning. -/
inductive Refusal where
  /-- A command whose meaning is not written yet, by the table's mnemonic; raised by `exec`'s arms only. Safe. -/
  | notModelled (mnemonic : String)
  deriving DecidableEq, Repr

/-! ### What the device sends out -/

/-- One thing the device sends out of itself, in the order it is sent. -/
inductive Output where
  /-- A host-port write into control-node memory: a completion (R74), an event record (R355), DEST bytes. -/
  | hostWrite (addr : Nat) (bytes : List Byte)
  /-- The value a host-port read returns (R63, R64). -/
  | hostRead (value : Nat)
  /-- An attention message on the host port with its signal number (R364). -/
  | attention (signal : Nat)
  /-- An attention signal to the Watchman for event ring `ring` of pen 0 (R364). -/
  | watchmanAttention (ring : Nat)
  /-- A Step Link message on a port: virtual channel, header fields of Table 10.7, body (R255). -/
  | stepLink (port : Nat) (vc cls op : Nat) (step hdr : Nat) (body : List Byte)
  /-- A flit-layer flit on a link: type, SEQ, ACK_SEQ, and what else its header carries (R246). -/
  | flit (link : Link) (type seq ackSeq aux : Nat)
  /-- A Commons packet: header of Table 11.3 and plaintext body. -/
  | packet (header : BitVec 512) (body : List Byte)
  /-- A side-band response (R417 to R423). -/
  | sideBand (bytes : List Byte)
  /-- An SPDM response on a transport: request/response code and body (R405). -/
  | spdm (t : Transport) (code : Nat) (body : List Byte)
  /-- Bits shifted out of the debug port (R425): width and value. -/
  | tdo (width value : Nat)
  /-- PWR_CYCLE_L driven low or released (R350). -/
  | pwrCycle (low : Bool)
  deriving DecidableEq, Repr

/-! ### Time and identity -/

/-- The always-on count and the last firing of each periodic timer (00_scope R451). -/
structure Clock where
  now : Nat := 0
  tollTick : Nat := 0
  heartbeatWindow : Nat := 0
  reeveHeartbeat : Nat := 0
  serviceStep : Nat := 0
  hearthTick : Nat := 0
  overrunWindow : Nat := 0
  partnerRetry : Nat := 0
  deriving DecidableEq, Repr

/-- HEALTH, NODE, and the census generation (Table 3.2); a warm reset and a live update in progress. -/
structure Ident where
  pc : Bool := false
  nodeNumber : BitVec 13 := 0
  nodeValid : Bool := false
  devState : DevState := .boot
  thermalTruncate : Bool := false
  powerCapped : Bool := false
  reeveHeartbeat : BitVec 32 := 0
  reeveHeartbeatChanged : Nat := 0
  censusGeneration : BitVec 32 := 0
  /-- HOST_ERRORS (R64). -/
  hostErrors : List (HostErr × Nat) := []
  /-- Acceptance cycle of the live update in progress (R82). -/
  liveUpdate : Option Nat := none
  deriving DecidableEq, Repr

/-- LADDER_STATUS and the ladder's own bookkeeping (Table 3.3, R65). -/
structure Ladder where
  lastPen : Nat := 0
  lastAction : Nat := 0
  busy : Bool := false
  result : Nat := 0
  accepted : BitVec 16 := 0
  /-- A PEN_REINIT accepted through LADDER_CTRL during a live update, waiting for its end (Table 13.8). -/
  waiting : Option Nat := none
  deriving DecidableEq, Repr

/-! ### Mailboxes and ring commands -/

/-- A mailbox command: its snapshot at MB_SUBMIT (R72), the submission's ticket (the model's own number, which tells two
submissions with one SEQ apart) and its cycle. -/
structure MbCmd where
  ticket : Nat
  seq : Nat
  desc : Desc
  payload : List (Nat × Byte)
  at_ : Nat
  deriving DecidableEq, Repr

/-- A mailbox (R71). The payload area is a memory of 3,840 bytes. -/
structure Mailbox where
  submit : Nat := 0
  seqDone : Nat := 0
  busy : Bool := false
  done : Bool := false
  overrun : Bool := false
  desc : Desc := 0
  completion : BitVec 256 := 0
  payload : List (Nat × Byte) := []
  /-- The command accepted and not yet executed by the Reeve. -/
  cmd : Option MbCmd := none
  /-- The ticket whose completion is owed while BUSY. -/
  ticket : Nat := 0
  /-- The cycle of the MB_SUBMIT that set BUSY (R73). -/
  since : Nat := 0
  /-- Commands the hardware completed with UNKNOWN before the Reeve executed them (R73). -/
  late : List MbCmd := []
  deriving DecidableEq, Repr

/-- Whom a deferred mailbox completion is for. -/
structure MbRef where
  mb : Mb
  cmd : MbCmd
  deriving DecidableEq, Repr

/-- A fetched ring command (R74, R98). -/
structure RingCmd where
  pen : Nat
  ring : Nat
  /-- The model's own number of the fetch, which no two fetches share. -/
  serial : Nat
  desc : Desc
  /-- Counted length B (R86). -/
  length : Nat := 0
  colour : Colour := .green
  /-- The always-on cycle of its admission (R98). -/
  admitted : Nat := 0
  /-- What an index command found of its index at its admission (08 R204, R206, R211): commit sequence, generation, and the
  gleaners of the census; none where the index was not there to be admitted for (R207). -/
  snapshot : Option (Nat × Nat × Nat) := none
  /-- Its place among the commands put off to a boundary (02 R41). -/
  arrival : Nat := 0
  deriving DecidableEq, Repr

/-- The TOLLGATE block of a ring (Table 4.1). -/
structure Tollgate where
  cir : Nat
  pir : Nat
  cbs : Nat
  pbs : Nat
  overhead : Nat
  colourAware : Bool
  preColourYellow : Bool
  hold : Bool
  sampleLog2 : Nat
  deriving DecidableEq, Repr

/-- A ring (R74) with its Tollgate state (R88 to R99). -/
structure Ring where
  sqBase : Nat
  cqBase : Nat
  sqLog2 : Nat
  cqLog2 : Nat
  eventRing : Option Nat
  latencyCritical : Bool
  toll : Tollgate
  sqTail : Nat := 0
  fetched : Nat := 0
  cqHead : Nat := 0
  written : Nat := 0
  /-- Fetched commands without a completion, by serial, oldest first: each holds a reserved CQ slot. -/
  inflight : List Nat := []
  tc : Nat
  tp : Nat
  held : Option RingCmd := none
  /-- A THROTTLE run in progress: descriptors still to complete, and their RETRY_HINT (R90, R92). -/
  run : Option (Nat × Nat) := none
  admitted : List RingCmd := []
  /-- Doorbells whose descriptors are not all admitted or completed: descriptors left, cycle (R99). -/
  visible : List (Nat × Nat) := []
  /-- A completion without QUIET since the last CQ_ADVANCED (R74). -/
  loud : Bool := false
  /-- The ring was serviced in this heartbeat window (R64). -/
  serviced : Bool := false
  /-- RING_CONFIGs accepted and waiting for the tick, in order (R94). -/
  config : List (Tollgate × Bool × MbRef) := []
  destroying : Option MbRef := none
  createdAt : Nat := 0
  nextSample : Nat := 0
  ctrs : List (RingCtr × Nat) := []
  deriving DecidableEq, Repr

/-! ### The Crier -/

/-- An event ring of a pen's Crier block (Table 14.5). -/
structure EventRing where
  base : BitVec 64 := 0
  enable : Bool := false
  reeve : Bool := false
  sizeLog2 : Nat := 0
  count : Nat := 0
  time : Nat := 0
  head : Nat := 0
  idle : Bool := false
  written : Nat := 0
  lostPending : Nat := 0
  nextSeq : Nat := 1
  pairIgnored : Bool := false
  configRejected : Bool := false
  headInvalid : Bool := false
  overflowed : Bool := false
  active : Bool := false
  /-- Records written since the ring last fired, and the start of its timer (R362). -/
  n : Nat := 0
  timer : Option Nat := none
  firstLost : Nat := 0
  /-- Submission rings with an unconsumed CQ_ADVANCED record, with its slot count (R359). -/
  cqPending : List (Nat × Nat) := []
  deriving DecidableEq, Repr

/-- A pen's Crier block (Table 14.4). -/
structure Crier where
  eventMask : BitVec 16 := 0
  attnMask : BitVec 16 := 0
  attnPending : BitVec 16 := 0
  classRoute : BitVec 64 := 0
  maskedEvents : Nat := 0
  disabledDrops : Nat := 0
  restartHeld : Bool := false
  rings : List (Nat × EventRing) := []
  deriving DecidableEq, Repr

/-! ### Pens -/

/-- The settings of PEN_CREATE and PEN_CONFIG (Table 3.7). -/
structure PenCfg where
  t1Quota : Nat := 0
  t2Quota : Nat := 0
  t3Quota : Nat := 0
  sessionsMax : Nat := 0
  ringsMax : Nat := 0
  fidelity : Nat := 0
  energyFloor : Nat := 0
  deriving DecidableEq, Repr

/-- A constraint set (R227): its rules in source order, and its source. -/
structure ConstraintSet where
  banned : List (List Nat)
  forced : List (List Nat × List Nat)
  states : Nat
  bytes : Nat
  source : List Byte
  deriving DecidableEq, Repr

/-- A version of an index item (R203). -/
structure IndexVersion where
  item : Nat
  label : Nat
  vector : List Byte
  /-- 256, 512 or 1,024 sketch bits. -/
  sketch : BitVec 1024 := 0
  insSeq : Option Nat := none
  delSeq : Option Nat := none
  /-- The generation from which on the version lies in a strip; before it, and while none, it lies in the side list. -/
  gen : Option Nat := none
  deriving DecidableEq, Repr

/-- A pending operation of an index, in dispatch order (R203). -/
inductive IndexOp where
  | insert (item label : Nat) (vector : List Byte)
  | delete (item : Nat)
  deriving DecidableEq, Repr

/-- A search admitted to an index (R208). -/
structure Search where
  cmd : Option RingCmd
  /-- A remote search's request header (11 R303). -/
  remote : Option (BitVec 512)
  snapshot : Nat
  generation : Nat
  query : List Byte
  resultsAddr : Nat
  k : Nat
  stripLimit : Nat
  filter : Nat
  widen : Bool
  /-- Service steps of its bound still to run (R211). -/
  stepsLeft : Nat
  admittedAt : Nat
  deriving DecidableEq, Repr

/-- A vector index of a pen (R201 to R207). -/
structure Index where
  params : BitVec 64
  commitSeq : Nat := 0
  generation : Nat := 0
  /-- The commit sequence at which the current generation was made: deletes after it are in the tombstone table. -/
  genSeq : Nat := 0
  versions : List IndexVersion := []
  pending : List IndexOp := []
  /-- Bytes of strip pages of the current generation (R212). -/
  stripBytes : Nat := 0
  /-- Generations replaced and not yet freed (R206): generation, its strip page bytes, and its side-list entries and
  tombstones that are in strips now. -/
  old : List (Nat × Nat × Nat × Nat) := []
  searches : List Search := []
  /-- Cycle since which a commit waits uncompacted (R206). -/
  waiting : Option Nat := none
  compacting : Bool := false
  /-- INDEX_DESTROY accepted, and its cycle (R207). -/
  destroying : Option MbRef := none
  destroyAt : Nat := 0
  deriving DecidableEq, Repr

/-- PEN_REINIT of a pen in progress (R345): acceptance cycle, and whether LADDER_STATUS BUSY stands for it. -/
structure Reinit where
  since : Nat
  viaLadder : Bool
  deriving DecidableEq, Repr

/-- A tenant partition (R62, Table 3.7). -/
structure Pen where
  cfg : PenCfg := {}
  pendingCfg : List (PenCfg × MbRef) := []
  mailbox : Mailbox := {}
  mbServiced : Bool := false
  crier : Crier := {}
  rings : List (Nat × Ring) := []
  heartbeat : BitVec 16 := 0
  createdAt : Nat := 0
  constraints : List (Nat × ConstraintSet) := []
  indexes : List (Nat × Index) := []
  reinit : Option Reinit := none
  readSeq : Nat := 0
  ctrs : List (PenCtr × Nat) := []
  deriving DecidableEq, Repr

/-! ### Sessions, sheaves, leases and the Ledger -/

/-- A registry entry (Table 2.2); ENTRY_CRC is computed from the others. -/
structure RegEntry where
  handle : Handle
  locVersion : Nat := 1
  home : BitVec 13
  offerNode : BitVec 13 := 0
  offerValid : Bool := false
  /-- The cycle at which the registry applied the open offer (R290). -/
  offerAt : Nat := 0
  flash : Bool := false
  life : Life := .live
  moving : Bool := false
  isPrefix : Bool := false
  deriving DecidableEq, Repr

/-- This device's registry slice (R32, R33, R35). -/
structure Slice where
  entries : List (Nat × RegEntry) := []
  /-- Lowest index never issued. -/
  next : Nat := 0
  /-- Indices free for reissue, in the order they became free. -/
  reissue : List Nat := []
  deriving DecidableEq, Repr

/-- A sheaf entry (Table 2.6) with the sheaf's payload where this device holds it. -/
structure Sheaf where
  owner : Handle
  ordinal : Nat
  layer : Nat
  isSealed : Bool := false
  shared : Bool := false
  startPos : Nat
  sketchValid : Bool := false
  format : Nat
  count : Nat
  tier : Tier := .t1
  node : BitVec 13
  location : Nat := 0
  refcount : Nat := 1
  version : Nat := 1
  sketch : BitVec 256 := 0
  payload : List Byte := []
  /-- The content is lost: `payload` holds what has been regrown of it so far (R317, R318). -/
  missing : Bool := false
  /-- In T2: the page run that holds it, and whether that is a bale (06 R134). -/
  run : Nat := 0
  bale : Bool := false
  deriving DecidableEq, Repr

/-- The sampler block's fields as the session record holds them (Table 2.3, R78). -/
structure Sampler where
  seed : BitVec 64 := 0
  temperature : F32 := 0
  topP : BitVec 16 := 0
  topK : Nat := 0
  constraintSet : Nat := 0xFFFF
  deadEndStop : Bool := false
  utf8Replace : Bool := false
  substituteId : Nat := 0
  deriving DecidableEq, Repr

/-- The automaton's state (R228): the forced sequence in progress, if any, as what is left of it, and the history's last
ids, from which the suffix matches follow. -/
structure Automaton where
  forced : List Nat := []
  recent : List Nat := []
  deriving DecidableEq, Repr

/-- A Ledger record (Table 12.2). `firstPos` is none while DEFERRED. -/
structure Rec where
  step : Nat
  kind : Nat
  author : Author := .system
  sampled : Bool := false
  inherited : Bool := false
  deferred : Bool := false
  firstPos : Option Nat := none
  ids : List Nat := []
  body : List Byte := []
  isPrefix : Bool := false
  latencyCritical : Bool := false
  deriving DecidableEq, Repr

/-- A text stream (R220). -/
structure Stream where
  segment : Nat
  author : Author
  carry : List Byte := []
  introPending : Bool := false
  staged : List Nat := []
  deriving DecidableEq, Repr

/-- What a commit does besides moving LEDGER_STEP and POSITIONS (R308). -/
inductive CommitEffect where
  /-- An append that journals: the command, and its RESULT (R224, R225). -/
  | append (cmd : RingCmd) (result : Nat)
  /-- A staging commit or a header-only commit: the command's completion (R224, R239). -/
  | header (cmd : RingCmd) (result detail : Nat)
  /-- The first group of a new session (R310): the command, the new handle. -/
  | opened (cmd : RingCmd) (handle : Handle)
  /-- A state change recorded by HOST_PARK or HOST_RESUME; the command it completes. -/
  | host (cmd : RingCmd)
  /-- The sampled or emitted tokens of a step (09 R236). -/
  | sampled
  /-- No group of the Ledger: a command that takes effect once the groups formed before it are committed (02 R41). -/
  | command (cmd : RingCmd)
  /-- Nothing beyond the commit. -/
  | none
  deriving DecidableEq, Repr

/-- A commit group written locally and not yet committed (R308). -/
structure Group where
  recs : List Rec
  written : Nat
  /-- The model's own number of the group, which no two groups share. -/
  id : Nat := 0
  /-- The second place holds it: the partner acknowledged, or the flash copy is programmed. -/
  held : Bool := false
  batch : Option Nat := none
  effect : CommitEffect := .none
  /-- OUTPUT_POS and the streams that the group commits. -/
  after : Nat × List (Nat × Stream) := (0, [])
  deriving DecidableEq, Repr

/-- A session's Ledger region (R306). -/
structure Region where
  recs : List Rec := []
  localStep : Nat := 0
  outputPos : Nat := 0
  streams : List (Nat × Stream) := []
  waiting : List Group := []
  /-- OUTPUT_POS and the streams as last committed, while a group that changes them waits. -/
  kept : Option (Nat × List (Nat × Stream)) := none
  /-- The positioned history: id, whether it is output (sampled or emitted), whether its author is MODEL (R237, R309). -/
  hist : List (Nat × Bool × Bool) := []
  /-- Highest step of the own flash copy (R314). -/
  flashed : Nat := 0
  deriving DecidableEq, Repr

/-- A posted output buffer (R238). -/
structure OutBuf where
  cmd : RingCmd
  addr : Nat
  length : Nat
  filled : Nat := 0
  /-- History position of the next token after what the buffer holds. -/
  pos : Nat
  deriving DecidableEq, Repr

/-- Progress of a tail handover (R154). -/
structure Handover where
  dest : BitVec 13
  /-- The destination's counter and staging offset, once it has reserved space. -/
  counter : Nat := 0xFFFF
  base : Nat := 0
  /-- Bytes asked for, and bytes sent. -/
  bytes : Nat := 0
  sent : Nat := 0
  /-- Sealed sheaves of lower ordinals went in the Sealed phase, as so many bytes; and the map entries of the snapshot. -/
  below : Nat := 0
  front : Nat := 0
  count : Nat := 0
  /-- The snapshot of boundary k has gone; what step k + 1 held, and the record, have gone (Table 6.7). -/
  snap : Bool := false
  final : Bool := false
  offered : Bool := false
  committed : Bool := false
  /-- Cycle of the last WRITE (R291). -/
  lastWrite : Nat := 0
  /-- Commands that wait for a REG_WITHDRAW (R292). -/
  waiting : List RingCmd := []
  deriving DecidableEq, Repr

/-- A session at its home: the session record (Table 2.3), its map, its Ledger region, and what the device keeps beside
them for planning. -/
structure Session where
  state : SessState := .opened
  moving : Bool := false
  anchored : Bool := false
  latencyCritical : Bool := false
  isPrefix : Bool := false
  layout : Nat
  sampler : Sampler := {}
  inThink : Bool := false
  inToolCall : Bool := false
  inputPending : Bool := false
  /-- The position after the last input token: input is consumed once KV reaches it. -/
  inputEnd : Nat := 0
  parkCause : Option ParkCause := none
  faultCause : Option FaultCause := none
  positions : Nat := 0
  kvPositions : Nat := 0
  tailFill : Nat := 0
  ledgerStep : Nat := 0
  parent : Handle := nullHandle
  sharedPositions : Nat := 0
  childRefs : Nat := 0
  automaton : Automaton := {}
  sitOuts : Nat := 0
  preemptions : Nat := 0
  lastStep : Nat := 0
  /-- Where record and map are homed (R38), and in T2 the page run that holds them. -/
  tier : Tier := .t1
  run : Nat := 0
  map : List Sheaf := []
  region : Region := {}
  buffers : List OutBuf := []
  /-- Commands deferred to the boundary, in arrival order (R41). -/
  deferred : List RingCmd := []
  /-- SESSION_CONFIGs accepted and not yet in effect (R453). -/
  configs : List RingCmd := []
  /-- A park recorded during regrowth (R40). -/
  parkRecorded : Bool := false
  faultedSince : Nat := 0
  parkedSince : Nat := 0
  flock : Option Nat := none
  anchorFlock : Option Nat := none
  readyCycle : Nat := 0
  runLength : Nat := 0
  handover : Option Handover := none
  /-- LOC_VERSION at which this device is home, as it last learnt it (R291). -/
  homeVersion : Nat := 1
  /-- The node that last handed this session in (R302). -/
  handedFrom : Option (BitVec 13) := none
  /-- The LOCAL_PEN of the grant under which it is homed here, charged in place of the handle's pen (11 R282). -/
  localPen : Option Nat := none
  regrowing : Bool := false
  /-- Regrowth is complete and the registry has been asked to name this home LIVE (01 R23). -/
  rehoming : Bool := false
  /-- Captured by the checkpoint attempt in progress (R320). -/
  captured : Bool := false
  deriving DecidableEq, Repr

/-- A lease descriptor (Table 2.7) with its state (Table 2.8) and what is outstanding on the link. -/
structure Lease where
  id : Nat
  speculative : Bool
  tail : Bool
  accelMask : BitVec 8
  handle : Handle
  layerFirst : Nat
  layerCount : Nat
  firstOrdinal : Nat
  sheafCount : Nat
  format : Nat
  slotBase : Nat
  slotCount : Nat
  issueStep : Nat
  state : LeaseState
  /-- Ports whose LEASE_ACK is outstanding. -/
  acks : List Nat := []
  /-- Ports whose RECLAIMED is outstanding, with the cycle of CANCEL; those for which LEASE_STUCK was raised. -/
  reclaim : List (Nat × Nat) := []
  stuck : List Nat := []
  /-- The SHEAF_COUNT and tail that EXTEND has not been acknowledged for, per port (R261). -/
  extending : List Nat := []
  /-- Slots, by layer and ordinal (R260). -/
  slots : List (Nat × Nat × Nat) := []
  /-- Sealed sheaves referenced per layer: the references to release (R19). -/
  refs : List (Handle × Nat × Nat) := []
  /-- The STREAM_SEQ after the last message of each layer: layer, port, sequence (R262). -/
  streams : List (Nat × Nat × Nat) := []
  /-- Positions streamed so far. -/
  streamedTo : Nat := 0
  /-- To be cancelled at the next boundary of its flock (01 R20). -/
  ending : Bool := false
  deriving DecidableEq, Repr

/-- A model layout descriptor (Table 2.10), as loaded. -/
structure Layout where
  id : Nat
  vocab : Bool
  latent : Bool
  causal : Bool
  layers : Nat
  vocabSize : Nat
  kvHeads : Nat
  headWidth : Nat
  queryHeads : Nat
  latentWidth : Nat
  ropeWidth : Nat
  nativeFormat : Nat
  sinkSheaves : Nat
  window : Nat
  scoreScale : F32
  softcap : F32
  projectionSeed : BitVec 64
  windowLayers : BitVec 1024
  raw : List Byte
  deriving DecidableEq, Repr

/-! ### The Shepherd -/

/-- PLAN_PARAMS (Table 5.1). -/
structure PlanParams where
  layout : Nat := 0
  enable : Bool := false
  layerOrder : Bool := false
  stageAhead : Bool := false
  period : Nat := 750000
  planLead : Nat := 40
  maxSessions : Nat := 4096
  lcSlots : Nat := 0
  prefillTokens : Nat := 8192
  hotSheaves : Nat := 7
  beQuantum : Nat := 0
  anchorStallMax : Nat := 0
  prefetchDepth : Nat := 0
  standby : Nat := 0
  deriving DecidableEq, Repr

/-- KIND of a plan entry (Table 5.4). -/
inductive EntryKind where
  | decode | prefill | regrow
  deriving DecidableEq, Repr

/-- What attends the sheaves of one layer of an entry beside its lease (07 R161, 08 R195), by ordinal in the session's map:
the pool sources, by node and owner, as the plan fixes them; the device source X and, of it, the forced set F, as they are at
GO. -/
structure LayerSource where
  layer : Nat
  pools : List (Nat × Handle × List Nat) := []
  device : List Nat := []
  forced : List Nat := []
  deriving DecidableEq, Repr

/-- A plan session entry (Table 5.4) with what the step gathers for it. -/
structure PlanEntry where
  handle : Handle
  kind : EntryKind
  latencyCritical : Bool
  anchored : Bool
  draftMax : Nat
  position : Nat
  tokens : Nat
  leaseId : Option Nat := none
  deviceSheaves : Nat := 0
  select : Bool := false
  t3Sources : List Nat := []
  /-- Per layer with ox or pool work: its length bucket, and the sheaves whose promotion its price covers (07 R182, 08 R197). -/
  work : List (Nat × Nat) := []
  sources : List LayerSource := []
  price : Nat
  /-- 1, 2 or 3 (R110). -/
  tier : Nat := 3
  /-- A one-token PREFILL of R455. -/
  oneToken : Bool := false
  sitOut : Option SitCause := none
  /-- Accepted position records: layer, position, bytes in NATIVE_FORMAT (R265). -/
  appends : List (Nat × Nat × List Byte) := []
  /-- DRAFTS its query groups carry (R165). -/
  drafts : Option Nat := none
  /-- Rows received: layer, row, port, BF16 elements (R165, R167). -/
  rows : List (Nat × Nat × Nat × List Byte) := []
  /-- Rows whose device partial was sent: layer, row. -/
  delivered : List (Nat × Nat) := []
  /-- Ox passes completed: layer, tile, chunk of rows; whether it was a scoring pass (R170, R196). -/
  passes : List (Nat × Nat × Nat × Bool) := []
  /-- Oxen on which the scoring passes of a layer ran (08 R198). -/
  scoredOn : List (Nat × Nat) := []
  /-- Passes to run again, by layer, tile and chunk, and whether a scoring pass (07 R184). -/
  reruns : List (Nat × Nat × Nat × Bool) := []
  /-- Layers whose selection has been made, and whether the attending passes reuse the lofts. -/
  selected : List (Nat × Bool) := []
  /-- OK replies of pools: layer, node, owner, partial groups (R187). -/
  pool : List (Nat × Nat × Handle × List Byte) := []
  /-- Layers in which the oxen attend the lease's sheaves (R120). -/
  fallback : List Nat := []
  /-- Tokens the Weaver chose, drafts accepted, the row of a dead end, and the park the step brings (R235, R230). -/
  verdict : Option (List Nat × Nat × Option Nat × Option ParkCause) := none
  deriving DecidableEq, Repr

/-- A plan (Tables 5.3 to 5.5). -/
structure Plan where
  step : Nat
  entries : List PlanEntry
  layers : List LayerTiming
  period : Nat
  grant : Nat
  price : Nat
  layerOrder : Bool := false
  layout : Nat := 0
  /-- PREFETCH_DEPTH and ANCHOR_STALL_MAX in force for the step (R104). -/
  depth : Nat := 0
  stallMax : Nat := 0
  /-- Background moves that the plan places; none where a short grant defers them (R112, 06 R159). -/
  moves : List Nat := []
  standby : List PlanEntry := []
  /-- Sessions left out by the build, with the cause (R116, R117). -/
  left : List (Handle × PreCause) := []
  /-- Sheaves the plan promotes: owner, layer, ordinal (R158). -/
  promotions : List (Handle × Nat × Nat) := []
  deriving DecidableEq, Repr

/-- How far the end of a step has come (R115, 12 R311): the step runs; its sessions' open handovers are being decided; the
tokens are being committed; the sessions have changed state, and what that formed is being committed. -/
inductive RunPhase where
  | running | handover | tokens | changed
  deriving DecidableEq, Repr

/-- A step in progress (R107). -/
structure StepRun where
  plan : Plan
  go : Nat
  phase : RunPhase := .running
  /-- The groups whose commits the boundary waits for (12 R311). -/
  owed : List Nat := []
  slip : Nat := 0
  stalled : Nat := 0
  /-- Ox cycles of each layer's reserve that fallbacks and reruns have claimed (R120, 07 R184). -/
  claimed : List (Nat × Nat) := []
  /-- A stall in progress: layer, entry, datum, start cycle (R122). -/
  stall : Option (Nat × Nat × Datum × Nat) := none
  /-- STEP_DONE received: port, APPENDS, LOGITS (R268). -/
  stepDone : List (Nat × Nat × Nat) := []
  /-- Messages received per port: APPEND, LOGITS (R268). -/
  counts : List (Nat × Nat × Nat) := []
  /-- The snapshot of the next plan has been taken. -/
  built : Bool := false
  /-- The Hearth reported truncation: the step ends at its next layer boundary (R124). -/
  truncating : Bool := false
  deriving DecidableEq, Repr

/-- A flock (R100). -/
structure Flock where
  ports : List Nat
  params : PlanParams := {}
  /-- FLOCK_PLAN_CONFIGs accepted and waiting for the next snapshot, in order (R104). -/
  pending : List (PlanParams × MbRef) := []
  destroying : Option MbRef := none
  /-- Anchor changes accepted and waiting: session, set or clear, command (R123). -/
  anchors : List (Handle × Bool × MbRef) := []
  /-- The step count of the last plan delivered (R106). -/
  stepCount : Nat := 0
  /-- Step counts used: one for each snapshot that yielded entries. -/
  planCount : Nat := 0
  run : Option StepRun := none
  /-- The plan built for the next step. -/
  next : Option Plan := none
  /-- The next plan was delivered: cycle, and the ports still to acknowledge (R258). -/
  delivered : Option (Nat × List Nat) := none
  /-- Earliest cycle of the next GO (Table 5.2); 0 where the flock had no step in progress (R106). -/
  goAt : Nat := 0
  /-- Sessions of the last step, for R117. -/
  lastRan : List Handle := []
  stopped : Bool := false
  /-- Ports whose RESYNC is outstanding, with the cycle it was sent (R259). -/
  resync : List (Nat × Nat) := []
  /-- Steps for which TRUNCATE was sent, the latest first (R259). -/
  truncatedStep : Option Nat := none
  /-- JOIN goes out again at the boundary (R258). -/
  rejoin : Bool := false
  /-- Sessions queued for staging, where no slots were free (R127). -/
  staging : List Handle := []
  leases : List Lease := []
  nextLease : Nat := 1
  ctrs : List (FlockCtr × Nat) := []
  deriving DecidableEq, Repr

/-! ### Tiers -/

/-- What a move moves (R150). -/
inductive MoveSubject where
  /-- A sheaf: owner handle, layer, ordinal. -/
  | sheaf (h : Handle) (layer ordinal : Nat)
  /-- A bale on its way into T2 (R134): owner handle, layer, the first of its 32 ordinals. -/
  | bale (h : Handle) (layer first : Nat)
  /-- Record, map and tails of a session. -/
  | session (h : Handle)
  deriving DecidableEq, Repr

/-- States of a move (R150). -/
inductive MoveState where
  | queued | copying | committing | freeing
  deriving DecidableEq, Repr

/-- A move of the drovers (R150, R151). -/
structure Move where
  id : Nat
  subject : MoveSubject
  src : Tier
  dst : Tier
  dstNode : BitVec 13
  state : MoveState := .queued
  /-- VERSION of the sheaf at the start; of a bale, their sum. -/
  version : Nat := 0
  format : Option Nat := none
  retries : Nat := 0
  waits : Nat := 0
  drover : Option Nat := none
  /-- Bytes charged at the destination, and bytes read from the source. -/
  charge : Nat := 0
  srcCharge : Nat := 0
  /-- The flock whose plan asks for it. -/
  forPlan : Option Nat := none
  /-- The service plan in force places it (05 R128). -/
  placed : Bool := false
  /-- It has waited for an open parity group, and counts so (R135). -/
  waited : Bool := false
  /-- The pool that refused it last (R137). -/
  pool : Option Nat := none
  /-- T2: the page runs given to it, of a session's record and map first. -/
  runs : List Nat := []
  /-- T3: the extent's offset at the pool in 4 KiB units, once allocated (11 R283). -/
  extent : Option Nat := none
  /-- T3: what the pool has returned of the source so far, by offset within it. -/
  parts : List (Nat × List Byte) := []
  deriving DecidableEq, Repr

/-- Consecutive pages of T2 written by one move (R132, R134): the parity group, the stripe and the place in it of the first
page, and the channels over which the group's stripes then lay. -/
structure PageRun where
  id : Nat
  group : Nat
  stripe : Nat
  place : Nat
  pages : Nat
  channels : List Nat
  /-- The write sequence that the translation tables record for its pages (16 R397). -/
  seq : Nat
  deriving DecidableEq, Repr

/-- T2's page space: the runs written and not yet collected, the head of each group's log (stripe and place), the groups lost
(R136), and the root sequence of the translation tables in the Ledger area, with the partner's copy (16 R397). -/
structure T2Space where
  runs : List PageRun := []
  nextRun : Nat := 1
  heads : List (Nat × Nat × Nat) := []
  lost : List Nat := []
  /-- Blocks retired on each channel (R135, 13 Table 13.4). -/
  retired : List (Nat × Nat) := []
  root : Nat := 0
  rootMirror : Nat := 0
  deriving DecidableEq, Repr

/-! ### Links -/

/-- The flit layer of a port (R246 to R248). Lists hold one number per virtual channel. -/
structure FlitLayer where
  /-- SEQ of the next DATA flit to send. -/
  nextSeq : Nat := 0
  /-- DATA flits sent and not acknowledged, oldest first: SEQ, cycle of the last sending. -/
  replay : List (Nat × Nat) := []
  /-- SEQ expected next; ACK_SEQ is the one before it. -/
  expect : Nat := 0
  nakOutstanding : Bool := false
  /-- ACK_SEQ of the NAK last served, until an acknowledgement moves on. -/
  lastNak : Option Nat := none
  /-- Replays without progress (R247). -/
  stuck : Nat := 0
  /-- The last CREDIT_TOTAL received, and DATA flits sent since link-up. -/
  totals : List Nat := [0, 0, 0, 0]
  sent : List Nat := [0, 0, 0, 0]
  /-- Flits of messages that wait for credit or for the replay buffer. -/
  waiting : List Nat := [0, 0, 0, 0]
  /-- Flits received and handed to the message layer: CREDIT_TOTAL is the initial grant and these. -/
  received : List Nat := [0, 0, 0, 0]
  /-- An open message per virtual channel. -/
  openMsg : List Bool := [false, false, false, false]
  deriving DecidableEq, Repr

/-- A Step Link or Commons port (Tables 10.5 and 10.6). -/
structure Port where
  state : PortState := .off
  width : Nat := 0
  /-- In the census, and LINKED at some time since power-on (R252). -/
  census : Bool := false
  known : Bool := false
  /-- In training by a retry from FAILED (R252, 13 R341). -/
  retried : Bool := false
  attempts : Nat := 0
  resets : Nat := 0
  /-- STATE before a RETRAIN. -/
  saved : PortState := .training
  /-- Cycle at which the state or bring-up phase began. -/
  since : Nat := 0
  flits : FlitLayer := {}
  helloSeen : Bool := false
  /-- The partner's HELLO was refused: the port waits in LINKED for a new one (R248, R253, R276). -/
  refused : Bool := false
  /-- Grants of the partner's HELLO. -/
  grants : List Nat := []
  /-- SLOT_TABLE: slots, slot bytes, formats, DRAFT_MAX. -/
  slots : Option (Nat × Nat × BitVec 16 × Nat) := none
  joined : Bool := false
  /-- JOIN went out and READY has not come. -/
  joinSent : Bool := false
  streamSeq : Nat := 0
  landedSeq : Nat := 0
  /-- The peer's node, from its HELLO (Commons). -/
  peer : Option (BitVec 13) := none
  ctrs : List (PortCtr × Nat) := []
  deriving DecidableEq, Repr

/-! ### The Commons -/

/-- What a GET brings (12 R317, R326): a session object, a sheaf object, a manifest part. -/
inductive GetUse where
  | session (h : Handle)
  | sheaf (h : Handle) (layer ordinal : Nat)
  | part (k : Nat)
  deriving DecidableEq, Repr

/-- Why a request was sent: what its response settles (R284). -/
inductive ReqUse where
  | registry (h : Handle)
  | life (h : Handle) (life : Life)
  | offer (h : Handle)
  | commit (h : Handle)
  | ask (h : Handle)
  /-- The home of an owner of shared sheaves (02 R49). -/
  | owner (h : Handle)
  | mirror
  | records (seq : Nat) (groups : List (Handle × Nat))
  | fetch (h : Handle)
  | dropReq
  | poolWrite (move : Nat)
  | poolAlloc (move : Nat)
  | poolRead (move off : Nat)
  | poolFree (pen node bytes : Nat)
  | attend (flock entry layer node : Nat)
  | store (key : List Byte)
  | storeCommit
  | storeGet (what : GetUse)
  /-- A pool's copy of a sheaf that a checkpoint captures: owner, layer, ordinal. -/
  | harvestRead (h : Handle) (layer ordinal : Nat)
  /-- A registry change's mirror (R290). -/
  | regMirror (id : Nat)
  /-- A WRITE that answers a COPY, by the COPY's header (R288). -/
  | copyOut (header : BitVec 512)
  /-- The session's groups at the own partner before REG_COMMIT (R316). -/
  | incoming (h : Handle)
  | notice
  /-- NOTICE RESTARTED (R295). -/
  | restarted
  /-- An entry of the mirror slice on its way back to its node, by the header of the NOTICE that asked (R297). -/
  | giveBack (header : BitVec 512)
  | other
  deriving DecidableEq, Repr

/-- A request outstanding on the Commons (R281, R286). -/
structure Request where
  pktId : Nat
  dest : BitVec 13
  pseq : Nat
  header : BitVec 512
  body : List Byte
  sent : Nat
  /-- The port it was routed through. -/
  port : Option Nat := none
  retries : Nat := 0
  /-- Answered BUSY: the cycle of the next sending (Table 11.7). -/
  busyUntil : Option Nat := none
  /-- Waiting for a route since this cycle. -/
  waiting : Option Nat := none
  use : ReqUse
  deriving DecidableEq, Repr

/-- The stream of requests to one destination (R285). -/
structure OutStream where
  pseq : Nat := 0
  incarnation : Option (BitVec 32) := none
  deriving DecidableEq, Repr

/-- The stream of requests from one source (R285, R289). -/
structure InStream where
  incarnation : BitVec 32
  applied : Nat := 0
  /-- Requests above APPLIED + 1, by PSEQ: header, body, and whether the data they read verifies. -/
  heldReqs : List (Nat × BitVec 512 × List Byte × Bool) := []
  /-- Replies kept for ATOMICs, oldest first: PKT_ID, status, result, cycle (R289). -/
  cache : List (Nat × Nat × Nat × Nat) := []
  lowWater : Nat := 0
  /-- Tag failures in succession (R278). -/
  tagFails : Nat := 0
  deriving DecidableEq, Repr

/-- An extent of a grant's offset space (R283). -/
structure Extent where
  off : Nat
  size : Nat
  tier : Tier
  /-- IDENT, empty for an anonymous extent. -/
  ident : List Byte := []
  deriving DecidableEq, Repr

/-- A grant of this device's memory to a client's pen (R282): an offset space with its extents. -/
structure Grant where
  node : BitVec 13
  pen : Nat
  localPen : Nat
  extents : List Extent := []
  bytes : List (Nat × Byte) := []
  /-- Removed by a map, to be freed at the drain fence (R300). -/
  removed : Bool := false
  deriving DecidableEq, Repr

/-- A handoff that this device receives (R291): its reservation, and how far it has come. -/
structure Incoming where
  handle : Handle
  source : BitVec 13
  pen : Nat
  bytes : Nat
  counter : Nat
  offset : Nat
  tier : Tier
  /-- The LOCAL_PEN of the grant it comes under; none when it comes back under the own quota. -/
  localPen : Option Nat := none
  asked : Nat
  /-- REG_COMMIT went out; the session is home here. -/
  committing : Bool := false
  deriving DecidableEq, Repr

/-- Who asked for a registry operation: a request of another node, or a unit of this device. -/
inductive RegOrigin where
  | remote (header : BitVec 512)
  | here (use : ReqUse)
  deriving DecidableEq, Repr

/-- A registry change that waits for the partner to acknowledge its REG_MIRROR (R290), or behind such a one. -/
structure RegPending where
  id : Nat
  handle : Handle
  op : Nat
  body : List Byte
  origin : RegOrigin
  /-- The entry as changed, and the answer, once the mirror is out. -/
  change : Option RegEntry := none
  deriving DecidableEq, Repr

/-- A record of the composition map (R298). -/
structure MapRec where
  kind : Nat
  node : BitVec 13
  raw : List Byte
  deriving DecidableEq, Repr

/-- The Commons endpoint. -/
structure Commons where
  incarnation : BitVec 32 := 0
  ports : List (Nat × Port) := []
  routes : List (Nat × List Nat) := []
  /-- For each node the place in its entry behind the port taken last: where the round of ports goes on (R281). -/
  roundRobin : List (Nat × Nat) := []
  epoch : Nat := 0
  map : List MapRec := []
  oldMap : List MapRec := []
  fenceEnd : Option Nat := none
  nextPkt : Nat := 1
  outs : List (Nat × OutStream) := []
  requests : List Request := []
  ins : List (Nat × InStream) := []
  grants : List Grant := []
  staging : List (Nat × Byte) := []
  incoming : List Incoming := []
  regPending : List RegPending := []
  nextReg : Nat := 0
  /-- Remote attention requests placed in the service plan, in arrival order (07 R188): header, body, and the ordinal whose
  tag check will fail, if one does. -/
  attends : List (BitVec 512 × List Byte × Option Nat) := []
  arrivals : List (Nat × Nat) := []
  /-- The home of each owner of shared sheaves that is homed elsewhere, as last learnt (02 R49), with the registry version
  that tells it (R293). -/
  homes : List (Handle × BitVec 13 × Nat) := []
  exhausted : Bool := false
  deriving DecidableEq, Repr

/-! ### Ledger partner and Harvest -/

/-- Ledger partnership (R312 to R316). -/
structure Partner where
  node : Option (BitVec 13) := none
  /-- A partner named and not yet in force. -/
  pending : Option (BitVec 13) := none
  fallback : Bool := false
  mirrorSeq : Nat := 0
  /-- The highest MIRROR_SEQ acknowledged, and the last one sent to a partner not yet in force (R312, R316). -/
  acked : Nat := 0
  pendingSeq : Nat := 0
  /-- What the partner has been sent of each session, by highest LEDGER_STEP, where it does not hold everything: a
  partner lost in fallback, or a new one (R313, R316). -/
  owed : List (Handle × Nat) := []
  /-- Registry entries still to be sent to it. -/
  owedEntries : List Handle := []
  /-- What this device mirrors for its partner: applied sequence, held batches, groups and entries. -/
  applied : Nat := 0
  heldBatches : List (Nat × BitVec 512 × List Byte) := []
  mirror : List (Handle × List (Nat × List Byte)) := []
  /-- What of the mirror lies in flash (R314). -/
  flashMirror : List (Handle × List (Nat × List Byte)) := []
  /-- The groups and entries owed are being sent: to a partner that answered again, or to a new one (R313, R316). -/
  syncing : Bool := false
  /-- Mirror slices by registry node: the partner's own, and those of its aliases (R290, 12 R330). -/
  slices : List (Nat × Slice) := []
  /-- NODE_DOWN: this device answers the partner's slice (R297). -/
  standIn : Bool := false
  /-- The partner answered PARTNER_ACTIVE: it answers for this device's slice (R297). -/
  deposed : Bool := false
  /-- After a restart: the partner has not yet said whether it has answered for this device's slice (R297). -/
  asking : Bool := false
  /-- What of the mirror slices lies in flash (R314). -/
  flashSlices : List (Nat × Slice) := []
  deriving DecidableEq, Repr

/-- The own flash copy of a session's Ledger (R314). -/
structure FlashCopy where
  recs : List Rec := []
  outputPos : Nat := 0
  streams : List (Nat × Stream) := []
  deriving DecidableEq, Repr

/-- A checkpoint attempt (R319 to R322). -/
structure Checkpoint where
  gateway : BitVec 13
  name : List Byte
  seq : Nat
  /-- 0 captures and objects, 1 manifest parts 1 onward, 2 part 0, 3 COMMIT. -/
  phase : Nat := 0
  /-- Keys written under the checkpoint prefix. -/
  keys : List (List Byte) := []
  /-- Session objects written: handle, OBJECT_BYTES, OBJECT_DIGEST. -/
  objects : List (Handle × Nat × List Byte) := []
  /-- Index objects are written. -/
  indexes : Bool := false
  /-- Manifest parts 1 onward, and part 0. -/
  parts : List (List Byte) := []
  header : List Byte := []
  deriving DecidableEq, Repr

/-- A restore in progress (R325, R326). -/
structure Restore where
  gateway : BitVec 13
  /-- The prefix of the manifest's keys. -/
  stem : List Byte
  part0 : List Byte
  /-- The step of R326. -/
  step : Nat := 1
  deriving DecidableEq, Repr

/-- Harvest (R319 to R330). -/
structure Harvest where
  seq : Nat := 0
  checkpoint : Option Checkpoint := none
  /-- What the attempt in progress has captured, and the sessions that the last committed or restored checkpoint holds, as
  captured (R320, R317). -/
  capturing : List (Handle × Session) := []
  captured : List (Handle × Session) := []
  /-- Where the objects of `captured` are: key prefix and gateway. -/
  last : Option (List Byte × BitVec 13) := none
  /-- The last committed checkpoint under each NAME: gateway, CHECKPOINT_SEQ, SHA-256 of part 0 (R322). -/
  committed : List (List Byte × BitVec 13 × Nat × List Byte) := []
  /-- Convergent names known stored, per gateway. -/
  known : List (Nat × List (List Byte)) := []
  /-- Keys for a leftover list that a gateway could not take (R322). -/
  leftover : List (Nat × List (List Byte)) := []
  /-- What GETs in progress have brought so far. -/
  gets : List (GetUse × List Byte) := []
  restore : Option Restore := none
  aliases : List (BitVec 13 × Slice) := []
  aliasMirrors : List (BitVec 13) := []
  deriving DecidableEq, Repr

/-! ### Faults and recovery -/

/-- A resettable unit's incarnation and recent resets (R334, R337). -/
structure UnitRec where
  incarnation : BitVec 8 := 0
  resets : List Nat := []
  deriving DecidableEq, Repr

/-- The recovery ladder's state (13_faults_and_recovery). -/
structure Recovery where
  units : List (ResetUnit × UnitRec) := []
  oxen : List Nat := List.range 64
  gleaners : List Nat := List.range 128
  drovers : List Nat := List.range 16
  channels : List Nat := List.range 128
  /-- Channels that left the census and whose group is not yet rewritten (R136). -/
  lostChannels : List Nat := []
  /-- The last pass of each ox, whose scores its loft holds: ox, and step, entry and layer (08 R198), 1,024 added to the layer
  of a pass that was no scoring pass; the ox used longest ago first. -/
  lofts : List (Nat × Nat × Nat × Nat) := []
  hbmStacks : List Nat := List.range 12
  /-- Parity groups that no die answered for at power-on (18 R447). -/
  unpopulated : List Nat := []
  /-- A warm reset: start cycle, and the phase (0 pending, 1 resetting, 2 rejoining). -/
  warm : Option (Nat × Nat) := none
  warmHistory : List Nat := []
  /-- Commands recorded in Abort: none of them had reached its final update (R348, R349). -/
  recorded : List RingCmd := []
  /-- FIRMWARE_ACTIVATED ABANDONED to be raised once SERVING (Table 13.8). -/
  abandonedUpdate : Bool := false
  censusPending : Bool := false
  lastRung : Nat := 0
  lastCause : Nat := 0
  ctrs : List (DevCtr × Nat) := []
  deriving DecidableEq, Repr

/-! ### Hearth -/

/-- A power domain (Table 15.1). -/
structure Domain where
  state : DomState := .off
  idleSince : Nat := 0
  /-- A wake issued and not yet complete: the cycle by which the domain is in RUN (R371). -/
  wakeDue : Option Nat := none
  deriving DecidableEq, Repr

/-- A sensor (Table 15.4): its last reading in sixteenths of a degree. -/
structure Sensor where
  reading : Int := 640
  failed : Bool := false
  stale : Nat := 0
  deriving DecidableEq, Repr

/-- The power and thermal manager (15_hearth_power). -/
structure Hearth where
  domains : List (Nat × Domain) := []
  /-- Waiting state changes, in order: class of R372's queue order, domain, target. -/
  changes : List (Nat × Nat × DomState) := []
  nextIssue : Nat := 0
  sustained : Nat := 600
  burst : Nat := 600
  limitsApplied : Bool := false
  /-- Burst store and energy owed, in microjoules. -/
  store : Nat := 0
  owed : Nat := 0
  windowEnergy : Nat := 0
  windowBurst : Nat := 0
  /-- Grants in force: flock, or 8 for the service plan; grant, guaranteed part, period, weight (R378). -/
  grants : List (Nat × Nat × Nat × Nat × Nat) := []
  /-- Eligible latency-critical sessions per pen at each flock's latest snapshot (R377). -/
  counts : List (Nat × List (Nat × Nat)) := []
  /-- Price multipliers per flock, in units of 2^−16 (R381). -/
  multipliers : List (Nat × Nat) := []
  sensors : List (Nat × Sensor) := []
  /-- Package energy of the last tick in µJ (17 Table 17.4). -/
  lastEnergy : Nat := 0
  /-- The derate factor d in units of 1/320, and its value at the last DERATE_CHANGED (R382, R386). -/
  derate : Nat := 320
  lastDerate : Nat := 320
  truncated : Bool := false
  deriving DecidableEq, Repr

/-! ### Security -/

/-- A firmware image (R403). -/
structure Image where
  watchman : Bool
  version : BitVec 24
  svn : Nat
  digest : BitVec 256
  deriving DecidableEq, Repr

/-- An operation that waits for a fresh random value while the entropy source fails its health tests (R393). -/
inductive FreshOp where
  | challenge (t : Transport) (nonce : BitVec 256)
  | measurements (t : Transport) (index : BitVec 8) (nonce : BitVec 256)
  | keyExchange
  | dbgNonce
  deriving DecidableEq, Repr

/-- SPDM state of one transport (R405 to R408). -/
structure SpdmConn where
  version : Bool := false
  capabilities : Bool := false
  algorithms : Bool := false
  deriving DecidableEq, Repr

/-- The security unit (16_security). -/
structure Security where
  operatorKeys : List (Nat × BitVec 512) := []
  staged : Option Image := none
  /-- The Reeve image that runs; none for the one the boot device came with. -/
  running : Option Image := none
  /-- The images of the active and of the other slot, none for the one the boot device came with (18 R442). -/
  reeveSlots : Option Image × Option Image := (none, none)
  watchmanSlots : Option Image × Option Image := (none, none)
  /-- The Watchman image that runs. -/
  watchmanRunning : Option Image := none
  /-- The image a live update is starting. -/
  activating : Option Image := none
  watchmanWrite : Option Image := none
  /-- What waits for a reseed (R393). -/
  heldFresh : List FreshOp := []
  rollback : Nat := 0
  certValid : Bool := true
  entropyOk : Bool := true
  conn : List (Transport × SpdmConn) := []
  /-- KEY_EXCHANGE done, FINISH not yet. -/
  handshaking : Bool := false
  session : Bool := false
  /-- The host port takes only secured messages (R408). -/
  locked : Bool := false
  tagFails : Nat := 0
  lastMessage : Nat := 0
  /-- Host-port writes and signals held while no session exists. -/
  held : List Output := []
  deriving DecidableEq, Repr

/-- A hart of the debug module (R428). -/
structure Hart where
  halted : Bool := false
  haltOnReset : Bool := false
  resumeAck : Bool := false
  haveReset : Bool := false
  deriving DecidableEq, Repr

/-- The debug port (17_watchman_and_debug, 16_security R409 to R413). -/
structure Debug where
  nonce : Option (BitVec 256) := none
  level : Nat := 0
  tokenResult : Nat := 0
  refusals : Nat := 0
  bscanMode : Bool := false
  bscanRefused : Bool := false
  sessionOpen : Bool := false
  tap : Nat := 0x01
  keysErased : Bool := false
  /-- Highest level since power-on and unlocks since power-on (R407). -/
  highest : Nat := 0
  unlocks : Nat := 0
  harts : List (Nat × Hart) := []
  hartsel : Nat := 0
  dmactive : Bool := false
  /-- Registers of the harts as written through the debug module, by 65,536 × hart + register. -/
  regs : List (Nat × BitVec 64) := []
  data0 : BitVec 32 := 0
  data1 : BitVec 32 := 0
  cmderr : Nat := 0
  /-- System bus access: control bits of sbcs, address, error, data, and what has been written through it. -/
  sbControl : BitVec 32 := 0
  sbAddr : BitVec 64 := 0
  sbError : Nat := 0
  sbData : BitVec 64 := 0
  sbMem : List (Nat × BitVec 64) := []
  /-- Result of the last DMI access: data and op status (R427). -/
  dmi : BitVec 32 := 0
  dmiStatus : Nat := 0
  /-- Boundary-scan register. -/
  bscan : Nat := 0
  deriving DecidableEq, Repr

/-! ### Side band and board -/

/-- A PLDM firmware update in progress (R423): component, size, what has come of the image, whether it is verified and
staged, the cycle of the last transfer. -/
structure Update where
  component : Nat
  size : Nat
  received : List Byte := []
  staged : Bool := false
  last : Nat := 0
  deriving DecidableEq, Repr

/-- The Watchman and the side band (17_watchman_and_debug). -/
structure Watchman where
  /-- The bus address: none on SMBus at 0x4A (R416). -/
  i3cAddress : Option (BitVec 7) := none
  eid : Option (BitVec 8) := none
  subscriber : Option (BitVec 8) := none
  /-- The record sent to the subscriber and not answered: event ring, cycle of sending, times sent again (R421). -/
  record : Option (Nat × Nat × Nat) := none
  /-- Cycles of its resets since power-on, and their number (R424). -/
  resets : List Nat := []
  resetCount : Nat := 0
  recovery : Bool := false
  /-- Its last watchdog service, and the cycle from which the watchdogs it runs count (R424, R429). -/
  serviced : Nat := 0
  watchFrom : Nat := 0
  update : Option Update := none
  /-- REEVE rings with an attention to serve. -/
  attention : List Nat := []
  deriving DecidableEq, Repr

/-- Pins, straps, resets and the boot device (18_board_design). -/
structure Board where
  porst : Bool := true
  /-- PORST_L-equivalent assertions: reference clock lost, rail out of tolerance. -/
  refclkLost : Bool := false
  railFault : Bool := false
  strap : BitVec 13 := 0
  bscanStrap : Bool := false
  pwrCycleLow : Bool := false
  pwrCycleSince : Nat := 0
  /-- What holds PWR_CYCLE_L low until RELEASE: PWR_HOLD of Table 17.3, 0 where nothing does. -/
  hold : Nat := 0
  /-- A power cycle waiting for SERVING: the cycle PWR_CYCLE_L rose, and failures so far. -/
  powerOn : Option Nat := none
  powerTries : Nat := 0
  /-- The identity block as last written before the main side went down (17 Table 17.1). -/
  lastIdent : List Byte := []
  /-- The boot is running. -/
  booting : Bool := false
  /-- STATE has read SERVING since power-on (R440). -/
  served : Bool := false
  /-- A rail rose out of order (R439). -/
  railOrder : Bool := false
  /-- What the boot ROM finds of the Watchman's slots. -/
  watchmanBoot : SlotBoot := .active
  /-- Both Reeve slots failed the checks of R403 at boot (18 R442). -/
  noReeve : Bool := false
  /-- Boot device (Table 18.6). -/
  incarnation : BitVec 32 := 0
  warmResets : Nat := 0
  powerCycles : Nat := 0
  deriving DecidableEq, Repr

/-! ### The whole state -/

/-- A W1C or HRW bit that hardware updates of its own accord (00_scope R12). -/
inductive HwBit where
  /-- MB_STATUS.DONE of a mailbox. -/
  | mbDone (mb : Mb)
  /-- EV_STATUS.OVERFLOWED of an event ring. -/
  | overflowed (pen ring : Nat)
  /-- An ATTN_PENDING bit that the Crier set, or set again while it read 1. -/
  | attention (pen ring : Nat)
  | attentionAgain (pen ring : Nat)
  /-- IDLE of an event ring, which a record clears. -/
  | idle (pen ring : Nat)
  deriving DecidableEq, Repr

/-- Fetch arbitration (04 R97): the rings that gave a descriptor in this round, and the last ring of each class that did.
Before the first, the place past every pen stands for it. -/
structure FetchArb where
  round : List (Nat × Nat) := []
  lastLc : Nat × Nat := (1024, 0)
  lastBe : Nat × Nat := (1024, 0)
  deriving DecidableEq, Repr

/-- The state of the block. -/
structure State where
  clock : Clock := {}
  ident : Ident := {}
  ladder : Ladder := {}
  adminMb : Mailbox := {}
  sbMb : Mailbox := {}
  /-- The Reeve queue of the admin and side-band mailboxes, in arrival order (R71). -/
  reeveQueue : List (Mb × Nat) := []
  nextTicket : Nat := 1
  pens : List (Nat × Pen) := []
  /-- Pen generations, which outlive the pens (16 R395). -/
  penGens : List (Nat × Nat) := []
  /-- The Crier's 256 KiB area of Reeve SRAM (R365). -/
  crierArea : List (Nat × Byte) := []
  fetchArb : FetchArb := {}
  /-- Dispatch arbitration per unit: last ring of each set, and consecutive latency-critical dispatches (R96). -/
  dispatchLast : List (CmdUnit × (Nat × Nat) × (Nat × Nat) × Nat) := []
  /-- Commands handed to their unit and not yet executed. -/
  dispatched : List RingCmd := []
  layouts : List (Nat × Layout) := []
  slice : Slice := {}
  sessions : List (Handle × Session) := []
  flocks : List (Nat × Flock) := []
  moves : List Move := []
  nextMove : Nat := 1
  t2 : T2Space := {}
  stepPorts : List (Nat × Port) := []
  commons : Commons := {}
  partner : Partner := {}
  flash : List (Handle × FlashCopy) := []
  /-- The flash copy of the registry slice (R314). -/
  flashSlice : Slice := {}
  harvest : Harvest := {}
  recovery : Recovery := {}
  hearth : Hearth := {}
  security : Security := {}
  debugPort : Debug := {}
  watchman : Watchman := {}
  board : Board := {}
  /-- The cycle of hardware's latest update of each W1C or HRW bit: a software write of that cycle comes before it
  (00_scope R12). -/
  hwAt : List (HwBit × Nat) := []
  /-- The model's own: how many free values have been drawn. -/
  free : Nat := 0
  /-- What the device has sent out, newest last. -/
  out : List Output := []
  /-- The commands waiting, first in, first out. -/
  pending : List Instr := []
  deriving DecidableEq, Repr

/-- The machine right after reset: pen 0x000 exists (R62), STATE reads BOOT, PORST_L is asserted, nothing is queued. -/
def State.reset : State :=
  { pens := [(0, { cfg := { sessionsMax := 16777216, ringsMax := 4096 } })] }

end Sys2Proof.Machine
end

