-- ==== Sys2Proof/Machine/Ops.lean ====
section
/-!
DEFINITION. The named operations over the state that the meanings share: output, counters, events (14_crier_events),
completions of mailbox and ring commands (03_nirvex_interface), and time (00_scope R451).
-/
namespace Sys2Proof.Machine

/-! ### Outcomes -/

/-- The outcome of every command. -/
abbrev Out := Host.Outcome State Fault Refusal

/-- A command that changes nothing: its enabling condition does not hold. -/
def stutter (s : State) : Out := .next s

/-- The outcome of a command that needs `p`. -/
def onlyIf (p : Bool) (s t : State) : Out := if p then .next t else .next s

/-! ### Codes -/

/-- The code of a status (Table 3.6). -/
def statusCode : Status → Nat
  | .ok => 0x0000 | .retryLater => 0x0101 | .throttled => 0x0102 | .abortedRetryable => 0x0103
  | .retryUnitReset => 0x0104 | .redirect => 0x0105 | .busyUpdate => 0x0106
  | .badHandle => 0x0201 | .badParam => 0x0202 | .quota => 0x0203 | .badLength => 0x0204
  | .denied => 0x0205 | .unsupported => 0x0206
  | .unknown => 0x0301 | .stale => 0x0302 | .failedCensus => 0x0401 | .failedAuth => 0x0402

/-- The code of a session state (Table 2.4). -/
def sessStateCode : SessState → Nat
  | .opened => 1 | .runnable => 2 | .running => 3 | .parked => 4 | .closed => 5 | .faulted => 6

/-- The code of a park cause (Table 2.4). -/
def parkCode : ParkCause → Nat
  | .turnEnd => 1 | .toolCall => 2 | .deadEnd => 3 | .stop => 4 | .endOfSession => 5 | .host => 6 | .limit => 7
  | .prefixDone => 8

/-- The code of a fault cause (Table 2.4). -/
def faultCode : FaultCause → Nat
  | .tagFail => 1 | .homeLost => 2 | .restore => 3

/-- The code of a device state (Table 3.2). -/
def devStateCode : DevState → Nat
  | .boot => 0 | .serving => 1 | .updating => 2 | .warmReset => 3 | .halted => 4

/-- The code of a LIFE (Table 2.2). -/
def lifeCode : Life → Nat
  | .free => 0 | .live => 1 | .regrow => 2 | .closed => 3 | .exhausted => 4

/-- The code of an author (R219). -/
def authorCode : Author → Nat
  | .model => 0 | .user => 1 | .tool => 2 | .system => 3

/-- The code of a port state (Table 10.12). -/
def portStateCode : PortState → Nat
  | .off => 0 | .training => 1 | .linked => 2 | .up => 3 | .retrain => 4 | .failed => 5

/-- The reset value of a width-`w` counter never rises above its width's largest value; widths of the pen counters
(Tables 13.11, 5.8, 6.9, 7.9, 8.9, 9.8, 12.8). -/
def penCtrWidth : PenCtr → Nat
  | .penReinits | .deviceRestarts => 16
  | .shep _ .entries | .shep _ .waitSum => 64
  | .shep _ (.pre _) | .shep _ (.sit _) | .shep _ .stalls | .shep _ .stageCancelled => 16
  | .faultedCycles | .promotedBytes | .demotedBytes | .passes | .rows | .scored | .selectLayers
  | .sketchesCompared | .entriesScanned | .tokensIn | .tokensSampled | .draftsOffered | .draftsAccepted
  | .outputBytes | .groups | .tokens | .regrownPositions | .ckptBytes | .ckptDedupBytes => 64
  | _ => 32

/-- Widths of the ring counters (Tables 13.12 and 4.3). -/
def ringCtrWidth : RingCtr → Nat
  | .green | .yellow | .admittedBytes => 64
  | _ => 32

/-- Widths of the device counters (Tables 13.13 and 11.12). -/
def devCtrWidth : DevCtr → Nat
  | .penReinits | .censusLosses => 16
  | .packetsTx | .packetsRx => 64
  | _ => 32

/-- Widths of the port counters (Table 10.12). -/
def portCtrWidth : PortCtr → Nat
  | .flitsTx | .flitsRx | .fecCorrected => 64
  | .retrains | .degrades | .linkResets | .protoErrors => 16
  | _ => 32

/-! ### Output -/

/-- Send `o` out of the device. -/
def State.emit (s : State) (o : Output) : State := { s with out := s.out ++ [o] }

/-- Send a host-port write or signal: held while the locked port has no SPDM session (16 R408). -/
def State.hostOut (s : State) (o : Output) : State :=
  if s.security.locked && !s.security.session then
    { s with security := { s.security with held := s.security.held ++ [o] } }
  else s.emit o

/-- Draw the number of a free value. -/
def State.draw (s : State) : Nat × State := (s.free, { s with free := s.free + 1 })

/-- Hardware updates `b` in the present cycle (R12). -/
def State.hwMark (s : State) (b : HwBit) : State := { s with hwAt := assocSet b s.clock.now s.hwAt }

/-- Hardware has updated `b` in the present cycle, so that its value stands against a software write (R12). -/
def State.hwNow (s : State) (b : HwBit) : Bool := assocGet b s.hwAt == some s.clock.now

/-! ### Pens and counters -/

/-- The pen with number `p`, if it exists. -/
def State.pen? (s : State) (p : Nat) : Option Pen := assocGet p s.pens

/-- Change pen `p`, if it exists. -/
def State.modPen (s : State) (p : Nat) (f : Pen → Pen) : State := { s with pens := assocMod p f s.pens }

/-- Add `n` to a counter of pen `p`. -/
def State.bumpPen (s : State) (p : Nat) (c : PenCtr) (n : Nat) : State :=
  s.modPen p fun q => { q with ctrs := tallyAdd q.ctrs c n (penCtrWidth c) }

/-- Raise a maximum counter of pen `p` to `n`. -/
def State.maxPen (s : State) (p : Nat) (c : PenCtr) (n : Nat) : State :=
  s.modPen p fun q => { q with ctrs := tallyMax q.ctrs c n (penCtrWidth c) }

/-- Add `n` to a device counter. -/
def State.bumpDev (s : State) (c : DevCtr) (n : Nat) : State :=
  { s with recovery := { s.recovery with ctrs := tallyAdd s.recovery.ctrs c n (devCtrWidth c) } }

/-- The ring `k` of pen `p`, if both exist. -/
def State.ring? (s : State) (p k : Nat) : Option Ring := (s.pen? p).bind fun q => assocGet k q.rings

/-- Change ring `k` of pen `p`, if both exist. -/
def State.modRing (s : State) (p k : Nat) (f : Ring → Ring) : State :=
  s.modPen p fun q => { q with rings := assocMod k f q.rings }

/-- Add `n` to a counter of a ring. -/
def Ring.bump (r : Ring) (c : RingCtr) (n : Nat) : Ring :=
  { r with ctrs := tallyAdd r.ctrs c n (ringCtrWidth c) }

/-- The pen a handle names (Table 2.1). -/
def handlePen (h : Handle) : Nat := bitsOf h.toNat 40 10

/-- The registry node a handle names (Table 2.1). -/
def handleNode (h : Handle) : Nat := bitsOf h.toNat 50 13

/-- The index a handle names (Table 2.1). -/
def handleIndex (h : Handle) : Nat := bitsOf h.toNat 16 24

/-- The generation a handle names (Table 2.1). -/
def handleGen (h : Handle) : Nat := bitsOf h.toNat 0 16

/-- The handle of Table 2.1. -/
def mkHandle (node pen index gen : Nat) : Handle :=
  BitVec.ofNat 64 (packNat [(16, gen), (24, index), (10, pen), (13, node)])

/-! ### The Crier -/

/-- The event ring `r` of a Crier block, at reset values where never touched. -/
def Crier.ring (c : Crier) (r : Nat) : EventRing := (assocGet r c.rings).getD {}

/-- Change event ring `r` of pen `p`. -/
def State.modEvRing (s : State) (p r : Nat) (f : EventRing → EventRing) : State :=
  s.modPen p fun q => { q with crier := { q.crier with rings := assocSet r (f (q.crier.ring r)) q.crier.rings } }

/-- The size of an event ring (Table 14.5). -/
def EventRing.size (e : EventRing) : Nat := 2 ^ e.sizeLog2

/-- The ring is full (R361). -/
def EventRing.full (e : EventRing) : Bool := decide (e.size ≤ sub32 e.written e.head)

/-- PHASE of the record or completion written at free-running count `written` (R74, R355). -/
def phaseOf (written size : Nat) : Nat := if written / size % 2 = 0 then 1 else 0

/-- The 32-byte event record of Table 14.1. -/
def eventBytes (seq code pen phase p0 p1 : Nat) : List Byte :=
  packBytes 32 [(64, seq), (8, code / 256), (8, 0), (16, code), (10, pen), (21, 0), (1, phase), (64, p0), (64, p1)]

/-- The Watchman sends the record at HEAD of event ring `r` of pen 0 to its subscriber (17 R421). -/
def State.sendRecord (s : State) (r resends : Nat) : State :=
  match s.pen? 0 with
  | none => s
  | some q =>
    let e := q.crier.ring r
    let bytes := memReadBytes s.crierArea (e.base.toNat + 32 * (e.head % e.size)) 32
    { s.emit (.sideBand (packBytes 3 [(16, 0xEB10), (8, 5)] ++ bytes)) with
      watchman := { s.watchman with record := some (r, s.clock.now, resends) } }

/-- The Watchman has an attention to serve: it clears the ring's ATTN_PENDING bit (R367) and sends the first record, once no
record is outstanding and a subscriber takes it (17 R421). -/
def State.watchmanTakes (s : State) (r : Nat) : State :=
  if s.watchman.subscriber.isSome && s.watchman.record.isNone then
    let keep : BitVec 16 := ~~~BitVec.ofNat 16 (2 ^ r)
    (s.modPen 0 fun q => { q with crier := { q.crier with attnPending := q.crier.attnPending &&& keep } }).sendRecord r 0
  else { s with watchman := { s.watchman with attention := s.watchman.attention ++ [r] } }

/-- The attention signal of event ring `r` of pen `p` (R364). -/
def State.attnSignal (s : State) (p r : Nat) : State :=
  match s.pen? p with
  | none => s
  | some q =>
    if (q.crier.ring r).reeve then (s.emit (.watchmanAttention r)).watchmanTakes r
    else s.hostOut (.attention (16 * p + r))

/-- Set bit `r` of a 16-bit register. -/
def setBit16 (v : BitVec 16) (r : Nat) : BitVec 16 := v ||| BitVec.ofNat 16 (2 ^ r)

/-- Event ring `r` of pen `p` fires (R362, R364). -/
def State.evFire (s : State) (p r : Nat) : State :=
  match s.pen? p with
  | none => s
  | some q =>
    let s1 := s.modEvRing p r fun e => { e with n := 0, timer := none }
    if bitOf q.crier.attnPending.toNat r then s1.hwMark (.attentionAgain p r)
    else
      let s2 := (s1.modPen p fun q =>
        { q with crier := { q.crier with attnPending := setBit16 q.crier.attnPending r } }).hwMark (.attention p r)
      if bitOf q.crier.attnMask.toNat r then s2 else s2.attnSignal p r

/-- Whether the ring fires at cycle `now` by its moderation (R362). -/
def EventRing.due (e : EventRing) (now : Nat) : Bool :=
  decide (0 < e.n) && ((decide (0 < e.count) && decide (e.count ≤ e.n))
    || (match e.timer with | some t => decide (t + e.time ≤ now) | none => false))

/-- Write one record into a ring with a free slot, then moderate (R355, R362, R363). -/
def State.evWrite (s : State) (p r seq code p0 p1 : Nat) : State :=
  match s.pen? p with
  | none => s
  | some q =>
    let e := q.crier.ring r
    let bytes := eventBytes seq code p (phaseOf e.written e.size) p0 p1
    let addr := e.base.toNat + 32 * (e.written % e.size)
    let s1 := if e.reeve then { s with crierArea := memWriteBytes s.crierArea addr bytes }
      else s.hostOut (.hostWrite addr bytes)
    let e1 := { e with written := add32 e.written 1, n := e.n + 1,
                       timer := some (e.timer.getD s.clock.now), idle := false }
    let s2 := (s1.modEvRing p r fun _ => e1).hwMark (.idle p r)
    if e.idle || e1.due s.clock.now then s2.evFire p r else s2

/-- An event routed to ring `r`: it takes a SEQ, and is written, lost or dropped (R357, R361). -/
def State.evRoute (s : State) (p r code p0 p1 : Nat) : State :=
  match s.pen? p with
  | none => s
  | some q =>
    let e := q.crier.ring r
    let s1 := s.modEvRing p r fun e => { e with nextSeq := e.nextSeq + 1 }
    if !e.enable then
      s1.modPen p fun q => { q with crier := { q.crier with disabledDrops := satBits 32 (q.crier.disabledDrops + 1) } }
    else if e.full then
      (s1.modEvRing p r fun e => { e with lostPending := satBits 32 (e.lostPending + 1), overflowed := true,
                                          firstLost := if e.lostPending = 0 then e.nextSeq - 1 else e.firstLost }).hwMark
        (.overflowed p r)
    else s1.evWrite p r e.nextSeq code p0 p1

/-- The event ring an event of the pen goes to, by CLASS_ROUTE (R360). -/
def Crier.route (c : Crier) (code : Nat) : Nat := bitsOf c.classRoute.toNat (4 * (code / 256)) 4

/-- Raise an event in pen `p`, to the named ring or by CLASS_ROUTE (R358, R360, R366). -/
def State.raiseTo (s : State) (p code p0 p1 : Nat) (ring : Option Nat) : State :=
  match s.pen? p with
  | none => s
  | some q =>
    if bitOf q.crier.eventMask.toNat (code / 256) then
      s.modPen p fun q => { q with crier := { q.crier with maskedEvents := satBits 32 (q.crier.maskedEvents + 1) } }
    else s.evRoute p (ring.getD (q.crier.route code)) code p0 p1

/-- Raise an event in pen `p` by CLASS_ROUTE. -/
def State.raise (s : State) (p code p0 p1 : Nat) : State := s.raiseTo p code p0 p1 none

/-- Raise an event in every existing pen (R358: "All"). -/
def State.raiseAll (s : State) (code p0 p1 : Nat) : State :=
  s.pens.foldl (fun t q => t.raise q.1 code p0 p1) s

/-- EVENTS_LOST, once the ring has a free slot (R361). -/
def State.evReportLost (s : State) (p r : Nat) : State :=
  match s.pen? p with
  | none => s
  | some q =>
    let e := q.crier.ring r
    if e.enable && decide (0 < e.lostPending) && !e.full then
      (s.modEvRing p r fun e => { e with nextSeq := e.nextSeq + 1, lostPending := 0 }).evWrite p r e.nextSeq
        0x0A01 e.firstLost e.lostPending
    else s

/-- CQ_ADVANCED of submission ring `k`, unless one lies unconsumed (R74, R359). -/
def State.cqAdvanced (s : State) (p k r written : Nat) : State :=
  match s.pen? p with
  | none => s
  | some q =>
    if (q.crier.ring r).cqPending.any (fun x => x.1 == k) then s
    else
      let before := (q.crier.ring r).written
      let s1 := (s.raiseTo p 0x0201 k written (some r)).modRing p k fun g => { g with loud := false }
      match s1.pen? p with
      | none => s1
      | some q1 =>
        if (q1.crier.ring r).written = before then s1
        else s1.modEvRing p r fun e => { e with cqPending := e.cqPending ++ [(k, before)] }

/-! ### Completions -/

/-- Fields of a descriptor (Table 3.4). -/
def descField (d : Desc) (lo w : Nat) : Nat := bitsOf d.toNat lo w

def descOpcode (d : Desc) : Nat := descField d 0 16
def descTag (d : Desc) : Nat := descField d 32 32
def descHandle (d : Desc) : Handle := BitVec.ofNat 64 (descField d 64 64)

/-- OPFLAGS bit `b` of the descriptor, numbered as Table 3.8 numbers it. -/
def descFlag (d : Desc) (b : Nat) : Bool := bitOf d.toNat b

/-- `n` bytes of the operand area from offset `off` (R66). -/
def operand (d : Desc) (off n : Nat) : Nat := descField d (128 + 8 * off) (8 * n)

/-- What a command completes with. -/
structure Reply where
  status : Status := .ok
  result : Nat := 0
  detail : Nat := 0
  hint : Nat := 0
  handle : Option Handle := none
  deriving DecidableEq, Repr

/-- The lowest offending byte among the checks, if one holds (R449). -/
def badAmong (l : List (Nat × Bool)) : Option Nat :=
  l.foldl (fun m x => if x.2 then some (match m with | none => x.1 | some y => min x.1 y) else m) none

/-- The same, with offences of the descriptor's fields before those found in what the command names or refers to
(R449). -/
def badFirst (fields others : List (Nat × Bool)) : Option Nat :=
  match badAmong fields with
  | some k => some k
  | none => badAmong others

/-- OK. -/
def rOk : Reply := {}
/-- BAD_PARAM with DETAIL (R449). -/
def rBad (detail : Nat) : Reply := { status := .badParam, detail := detail }
/-- A bare status. -/
def rStatus (st : Status) : Reply := { status := st }

/-- The 32-byte completion record of Table 3.5. -/
def completionNat (d : Desc) (r : Reply) (sqHead phase : Nat) : Nat :=
  packNat [(32, descTag d), (16, statusCode r.status), (16, descOpcode d),
    (64, (r.handle.getD (descHandle d)).toNat), (64, r.result), (16, r.detail), (16, r.hint), (15, sqHead), (16, 0),
    (1, phase)]

/-- The mailbox `mb`, if its pen exists. -/
def State.mb? (s : State) : Mb → Option Mailbox
  | .admin => some s.adminMb
  | .sideBand => some s.sbMb
  | .pen n => (s.pen? n).map (·.mailbox)

/-- Change mailbox `mb`, if its pen exists. -/
def State.modMb (s : State) (mb : Mb) (f : Mailbox → Mailbox) : State :=
  match mb with
  | .admin => { s with adminMb := f s.adminMb }
  | .sideBand => { s with sbMb := f s.sbMb }
  | .pen n => s.modPen n fun q => { q with mailbox := f q.mailbox }

/-- The pen whose Crier block takes a mailbox's MAILBOX_DONE (R72). -/
def mbPen : Mb → Nat
  | .pen n => n
  | _ => 0

/-- The source code in MAILBOX_DONE (Table 14.3). -/
def mbSource : Mb → Nat
  | .pen _ => 0
  | .admin => 1
  | .sideBand => 2

/-- The mailbox has admin authority (R71). -/
def mbAdmin : Mb → Bool
  | .pen _ => false
  | _ => true

/-- A side-band response (17 R418): vendor id, COMMAND, SB_STATUS, what follows. -/
def sbBody (command status : Nat) (rest : List Byte) : List Byte :=
  packBytes 4 [(16, 0xEB10), (8, command), (8, status)] ++ rest

/-- Write a mailbox completion and signal it, as step 4 of R72 states. -/
def State.mbWrite (s : State) (mb : Mb) (seq : Nat) (d : Desc) (r : Reply) : State :=
  let rec_ := completionNat d r 0 0
  let s1 := s.modMb mb fun m => { m with completion := BitVec.ofNat 256 rec_, seqDone := seq, busy := false,
                                         done := true, cmd := none }
  let s2 := match mb with
    | .sideBand => s1.emit (.sideBand (sbBody 1 0
        (natToBytes 32 rec_ ++ if descOpcode d = 1 then memReadBytes s1.sbMb.payload 0 256 else [])))
    | .pen n => s1.modPen n fun q => { q with mbServiced := true }
    | .admin => s1
  (s2.hwMark (.mbDone mb)).raise (mbPen mb) 0x0101 seq (mbSource mb)

/-! ### Descriptors (R69) -/

/-- Which submitters Table 3.7 admits. -/
inductive Admits where
  | any | adminOnly | adminPen | ring
  deriving DecidableEq, Repr

/-- One row of Tables 3.7 and 3.8: who may submit, OPFLAGS bits, operand bytes as (offset, size, PEN operand), reserved
bits inside them as (lowest bit in the operand area, width), and whether the command names a session. -/
structure OpRow where
  admits : Admits
  flags : List Nat := []
  bytes : List (Nat × Nat × Bool) := []
  holes : List (Nat × Nat) := []
  session : Bool := false
  deriving DecidableEq, Repr

/-- The reserved bits of a TOLLGATE block at +24 (04 Table 4.1), of PLAN_PARAMS at +8 (05 Table 5.1), and of index PARAMS at
+8 (08 Table 8.4). -/
def tollgateHoles : List (Nat × Nat) := [(192 + 143, 1), (192 + 148, 44)]
def planHoles : List (Nat × Nat) := [(64 + 9, 7), (64 + 61, 3), (64 + 77, 3), (64 + 97, 7), (64 + 155, 5), (64 + 167, 89)]
def indexHoles : List (Nat × Nat) := [(64 + 25, 3), (64 + 40, 24)]

/-- Tables 3.7 and 3.8. -/
def opRow : Nat → Option OpRow
  | 0x0001 => some { admits := .any }
  | 0x0002 | 0x0004 => some { admits := .adminOnly, bytes := [(0, 2, false), (8, 31, false), (40, 4, false)] }
  | 0x0003 => some { admits := .adminOnly, bytes := [(0, 2, false)] }
  | 0x0005 => some { admits := .adminPen, bytes := [(0, 2, true)] }
  | 0x0010 => some { admits := .adminPen, bytes := [(0, 22, false), (22, 2, true), (24, 24, false)],
                      holes := tollgateHoles }
  | 0x0011 => some { admits := .adminPen, bytes := [(20, 2, false), (22, 2, true)] }
  | 0x0012 => some { admits := .adminPen, bytes := [(19, 3, false), (22, 2, true), (24, 24, false)],
                      holes := tollgateHoles }
  | 0x0020 => some { admits := .adminOnly }
  | 0x0021 => some { admits := .adminOnly, bytes := [(0, 1, false)] }
  | 0x0022 => some { admits := .adminPen, bytes := [(0, 2, false), (2, 2, true), (8, 12, false)] }
  | 0x0023 => some { admits := .adminPen, bytes := [(0, 2, false), (2, 2, true)] }
  | 0x0030 => some { admits := .adminOnly, bytes := [(0, 2, false)] }
  | 0x0031 => some { admits := .adminOnly, bytes := [(0, 1, false)] }
  | 0x0032 => some { admits := .adminOnly, bytes := [(0, 1, false), (8, 32, false)], holes := planHoles }
  | 0x0033 => some { admits := .adminOnly, bytes := [(0, 2, false)], session := true }
  | 0x0040 => some { admits := .adminOnly, bytes := [(0, 6, false)] }
  | 0x0041 => some { admits := .adminOnly, bytes := [(0, 20, false)] }
  | 0x0042 | 0x0043 => some { admits := .adminOnly, bytes := [(0, 2, false)] }
  | 0x0050 | 0x0051 => some { admits := .adminOnly, bytes := [(0, 2, false), (8, 12, false)] }
  | 0x0060 => some { admits := .adminOnly, bytes := [(0, 12, false)] }
  | 0x0061 => some { admits := .adminOnly }
  | 0x0070 => some { admits := .adminOnly, bytes := [(0, 4, false)] }
  | 0x0071 => some { admits := .adminPen, bytes := [(0, 2, true), (2, 1, false), (8, 12, false)] }
  | 0x0072 => some { admits := .adminPen, bytes := [(0, 4, false), (4, 2, true), (8, 8, false)], holes := indexHoles }
  | 0x0073 => some { admits := .adminPen, bytes := [(0, 4, false), (4, 2, true)] }
  | 0x0100 => some { admits := .ring, flags := [24, 25], bytes := [(0, 25, false)], session := true }
  | 0x0101 => some { admits := .ring, flags := [26], bytes := [(0, 8, false)], session := true }
  | 0x0102 | 0x0103 | 0x0104 => some { admits := .ring, session := true }
  | 0x0105 => some { admits := .ring, flags := [24], bytes := [(0, 8, false)], session := true }
  | 0x0106 => some { admits := .ring, bytes := [(0, 25, false), (32, 2, false)], holes := [(256 + 9, 7)], session := true }
  | 0x0107 => some { admits := .ring, bytes := [(0, 1, false)], session := true }
  | 0x0110 => some { admits := .ring, flags := [24], bytes := [(0, 15, false)], session := true }
  | 0x0111 => some { admits := .ring, bytes := [(0, 14, false)], session := true }
  | 0x0112 => some { admits := .ring, bytes := [(0, 12, false)], session := true }
  | 0x0120 | 0x0121 => some { admits := .ring, bytes := [(0, 4, false), (8, 12, false)] }
  | 0x0122 => some { admits := .ring, bytes := [(0, 4, false)] }
  | 0x0123 => some { admits := .ring, flags := [24], bytes := [(0, 4, false), (8, 24, false)] }
  | _ => none

/-- Opcodes a LYS4160-PC omits (R4). -/
def pcOmits (op : Nat) : Bool :=
  op == 0x0030 || op == 0x0031 || op == 0x0032 || op == 0x0033 || op == 0x0107

/-- The opcode's bit in OPCODE_BITMAP (Table 3.9). -/
def State.supports (s : State) (op : Nat) : Bool := (opRow op).isSome && !(s.ident.pc && pcOmits op)

/-- The checks of R69 up to the carrier and the submitter, for a mailbox command. -/
def mbPrecheck (s : State) (mb : Mb) (d : Desc) : Option Reply :=
  let op := descOpcode d
  if !s.supports op then some (rStatus .unsupported)
  else match opRow op with
    | none => some (rStatus .unsupported)
    | some row =>
      match row.admits with
      | .ring => some (rStatus .denied)
      | .adminOnly => if mbAdmin mb then none else some (rStatus .denied)
      | _ => none

/-! ### The Reeve's queue (R71, R72, R454) -/

/-- A firmware completion of a mailbox command: written, or counted in MB_LATE when the hardware already completed it
(R72, R73). -/
def State.mbReply (s : State) (r : MbRef) (reply : Reply) : State :=
  match s.mb? r.mb with
  | none => s
  | some m =>
    if m.busy && m.ticket == r.cmd.ticket then s.mbWrite r.mb r.cmd.seq r.cmd.desc reply
    else s.bumpPen (mbPen r.mb) .mbLate 1

/-- Take a command out of its mailbox and the Reeve queue as the Reeve begins it. -/
def State.mbTake (s : State) (mb : Mb) (c : MbCmd) : State :=
  let s1 := s.modMb mb fun m => { m with cmd := if m.cmd = some c then none else m.cmd,
                                         late := m.late.filter (fun l => l.ticket != c.ticket) }
  { s1 with reeveQueue := s1.reeveQueue.filter (fun q => q.2 != c.ticket) }

/-- The Reeve executes commands: it is neither starting, reset nor being updated (R82, R454). -/
def State.reeveRuns (s : State) : Bool :=
  !(s.ident.devState = .boot || s.ident.devState = .warmReset || s.ident.devState = .updating)

/-- The Reeve core that executes command number `n` is free to: the Reeve runs, and the debug port does not hold the core
halted (17 R429). -/
def State.reeveFree (s : State) (n : Nat) : Bool :=
  s.reeveRuns && !(match assocGet (Config.reeveCore n % 16) s.debugPort.harts with | some h => h.halted | none => false)

/-- The command with number `n` that mailbox `mb` holds or owes. -/
def State.mbCmd? (s : State) (mb : Mb) (n : Nat) : Option MbCmd :=
  (s.mb? mb).bind fun m => (m.cmd.toList ++ m.late).find? fun c => c.ticket == n

/-- The Reeve, free for the command with number `n` of mailbox `mb`, completes it where its opcode, carrier or submitter
refuses it (R60, R69, R454). -/
def State.refuse (s : State) (mb : Mb) (n : Nat) : Option State :=
  (s.mbCmd? mb n).bind fun c =>
    if s.reeveFree n then (mbPrecheck s mb c.desc).map fun r => (s.mbTake mb c).mbReply ⟨mb, c⟩ r else none

/-- The Reeve completes refused commands for as long as one stands at the head of its queue (R454). -/
def State.refuseHeads : Nat → State → State
  | 0, s => s
  | n + 1, s =>
    match s.reeveQueue with
    | [] => s
    | x :: _ => match s.refuse x.1 x.2 with | none => s | some t => State.refuseHeads n t

/-- The Reeve goes on with its queue (R71, R454). -/
def State.reeveNext (s : State) : State := s.refuseHeads s.reeveQueue.length

/-- The Reeve takes up work again after it was held: refused commands of the pens' mailboxes, and its queue. -/
def State.reeveResumes (s : State) : State :=
  (s.pens.foldl (fun t q => match q.2.mailbox.cmd with
    | some c => (t.refuse (.pen q.1) c.ticket).getD t
    | none => t) s).reeveNext

/-- A firmware completion of a mailbox command, after which the Reeve goes on with its queue. -/
def State.mbFinish (s : State) (r : MbRef) (reply : Reply) : State := (s.mbReply r reply).reeveNext

/-! ### Completions of ring commands -/

/-- The ring is destroyed: RING_DESTROY completes (R77), and a RING_CONFIG still waiting for its tick names no ring. -/
def State.ringGone (s : State) (p k : Nat) : State :=
  match s.ring? p k with
  | none => s
  | some g =>
    match g.destroying with
    | none => s
    | some ref =>
      if g.inflight.isEmpty then
        g.config.foldl (fun t c => t.mbFinish c.2.2 (rBad 36))
          ((s.modPen p fun q => { q with rings := assocDel k q.rings }).mbFinish ref rOk)
      else s

/-- Write the completion of a ring command (R67, R74), if it is still owed. -/
def State.complete (s : State) (c : RingCmd) (r : Reply) : State :=
  match s.ring? c.pen c.ring with
  | none => s
  | some g =>
    if g.inflight.contains c.serial then
      let size := 2 ^ g.cqLog2
      let rec_ := completionNat c.desc r g.fetched (phaseOf g.written size)
      let s1 := s.hostOut (.hostWrite (g.cqBase + 32 * (g.written % size)) (natToBytes 32 rec_))
      let s2 := s1.modRing c.pen c.ring fun g =>
        { (if r.status = .throttled then g.bump .throttled 1 else g) with
          written := add32 g.written 1, inflight := g.inflight.filter (· != c.serial),
          loud := g.loud || !descFlag c.desc 17, serviced := true }
      let s3 := match r.status with
        | .abortedRetryable => s2.bumpPen c.pen .aborted 1
        | .retryUnitReset => s2.bumpPen c.pen .unitResetRetries 1
        | .redirect => s2.bumpDev .redirects 1
        | _ => s2
      let s4 := match g.eventRing with
        | none => s3
        | some e => if g.loud || !descFlag c.desc 17 then s3.cqAdvanced c.pen c.ring e (add32 g.written 1) else s3
      s4.ringGone c.pen c.ring
    else s

/-! ### Time -/

/-- The always-on count moved on to cycle `t`, never back (R451). -/
def State.at_ (s : State) (t : Nat) : State :=
  { s with clock := { s.clock with now := max s.clock.now t } }

/-! ### Sessions -/

/-- The session homed here under handle `h`. -/
def State.sess? (s : State) (h : Handle) : Option Session := assocGet h s.sessions

/-- Change session `h`, if it is homed here. -/
def State.modSess (s : State) (h : Handle) (f : Session → Session) : State :=
  { s with sessions := assocMod h f s.sessions }

/-- Change flock `f`, if it exists. -/
def State.modFlock (s : State) (f : Nat) (g : Flock → Flock) : State := { s with flocks := assocMod f g s.flocks }

/-- The leases of a session end at the next boundary of their flock (01 R20). -/
def State.endLeases (s : State) (h : Handle) : State :=
  let mark (l : Lease) : Lease := if l.handle = h then { l with ending := true } else l
  { s with flocks := mapVals (fun k => { k with leases := k.leases.map mark }) s.flocks }

/-- This device's node number (R28, R271). -/
def State.node (s : State) : Nat := s.ident.nodeNumber.toNat

/-- The mirror slice that this device answers for registry node `n` in the partner's place (11 R297). -/
def State.standInSlice (s : State) (n : Nat) : Option Slice :=
  if s.partner.standIn then assocGet n s.partner.slices else none

/-- Whether this device stands for node `n`: its own number, an alias (R329), or the partner whose slice it answers
(11 R297). -/
def State.isSelf (s : State) (n : Nat) : Bool :=
  n == s.node || s.harvest.aliases.any (fun a => a.1.toNat == n) || (s.standInSlice n).isSome

/-- Whether `n` names this device as a home: its own number, or an alias (R329). -/
def State.isOwn (s : State) (n : Nat) : Bool :=
  n == s.node || s.harvest.aliases.any (fun a => a.1.toNat == n)

/-- The registry slice for registry node `n` answered here. -/
def State.sliceOf (s : State) (n : Nat) : Option Slice :=
  if n = s.node then some s.slice
  else ((s.harvest.aliases.find? (fun a => a.1.toNat == n)).map (·.2)).or (s.standInSlice n)

/-- Put back the slice for registry node `n`. -/
def State.setSlice (s : State) (n : Nat) (sl : Slice) : State :=
  if n = s.node then { s with slice := sl }
  else
    { s with harvest := { s.harvest with aliases := s.harvest.aliases.map fun a => if a.1.toNat = n then (a.1, sl) else a },
             partner := { s.partner with slices := assocMod n (fun _ => sl) s.partner.slices } }

/-- Who submits a command: a mailbox with admin authority, or a pen. -/
inductive Submitter where
  | admin
  | pen (n : Nat)
  deriving DecidableEq, Repr

/-- The registry entry for a handle held here. -/
def State.entry? (s : State) (h : Handle) : Option RegEntry :=
  (s.sliceOf (handleNode h)).bind fun sl => assocGet (handleIndex h) sl.entries

/-- Change the registry entry for a handle held here. -/
def State.modEntry (s : State) (h : Handle) (f : RegEntry → RegEntry) : State :=
  match s.sliceOf (handleNode h) with
  | none => s
  | some sl => s.setSlice (handleNode h) { sl with entries := assocMod (handleIndex h) f sl.entries }

/-- The session is closed, or a SESSION_CLOSE received for it waits to be applied: what comes after it meets a closed
session (R452). -/
def Session.closing (x : Session) : Bool :=
  x.state == .closed || x.deferred.any (fun c => descOpcode c.desc == 0x0102)
    || x.region.waiting.any fun g => match g.effect with | .command c => descOpcode c.desc == 0x0102 | _ => false

/-- The handle check of R34: none when it passes. A device whose partner answers for its slice refers to the partner
(11 R297). -/
def checkHandle (s : State) (h : Handle) (by_ : Submitter) : Option Reply :=
  if bitOf h.toNat 63 || handleGen h == 0 then some (rStatus .badHandle)
  else if (match by_ with | .admin => false | .pen n => n != handlePen h) then some (rStatus .denied)
  else if s.partner.deposed && handleNode h == s.node then
    some { status := .redirect, result := 0, detail := match s.partner.node with | some n => n.toNat | none => 0 }
  else if s.isSelf (handleNode h) then
    match s.entry? h with
    | none => some (rStatus .badHandle)
    | some e =>
      if e.handle != h || (e.life != .live && e.life != .regrow) then some (rStatus .badHandle)
      else if !s.isOwn e.home.toNat then
        some { status := .redirect, result := e.locVersion, detail := e.home.toNat }
      else match s.sess? h with
        | some x => if x.closing then some (rStatus .badHandle) else none
        | none => none
  else
    match s.sess? h with
    | none => some { status := .redirect, result := 0, detail := handleNode h }
    | some x =>
      if x.closing then some (rStatus .badHandle) else none

/-! ### The checks of descriptors (R69) -/

/-- The bits of descriptor byte `k` that the row defines. A command that names no session carries the null handle (R66),
so its HANDLE bytes are reserved; FENCE and QUIET are bits 0 and 1 of byte 2. -/
def OpRow.byteMask (row : OpRow) (penMailbox : Bool) (k : Nat) : Nat :=
  if k < 2 || (4 ≤ k && k < 8) then 0xFF
  else if k < 16 then (if k < 3 then 0x03 else if k = 3 then row.flags.foldl (fun m b => m + 2 ^ (b - 24)) 0
    else if row.session then 0xFF else 0)
  else if row.bytes.any (fun b => decide (16 + b.1 ≤ k) && decide (k < 16 + b.1 + b.2.1) && !(b.2.2 && penMailbox))
    then ((List.range 8).filter fun i =>
      !row.holes.any fun h => decide (128 + h.1 ≤ 8 * k + i) && decide (8 * k + i < 128 + h.1 + h.2)).foldl (· + 2 ^ ·) 0
  else 0

/-- The first descriptor byte with a reserved bit set (R69); a HANDLE that must be null offends at its first byte
(R449). -/
def firstReserved (row : OpRow) (penMailbox : Bool) (d : Desc) : Option Nat :=
  ((List.range 64).find? fun k =>
    let b := descField d (8 * k) 8
    (List.range 8).any fun i => bitOf b i && !bitOf (row.byteMask penMailbox k) i).map fun k =>
      if 8 ≤ k ∧ k < 16 then 8 else k

/-- The checks of R69 after the submitter: reserved bits, and the handle where the command names a session. -/
def descCheck (s : State) (by_ : Submitter) (penMailbox : Bool) (d : Desc) : Option Reply :=
  match opRow (descOpcode d) with
  | none => some (rStatus .unsupported)
  | some row =>
    match firstReserved row penMailbox d with
    | some k => some (rBad k)
    | none =>
      if row.session && !(descOpcode d == 0x0100 && descHandle d == nullHandle) then checkHandle s (descHandle d) by_
      else none

/-- The checks of R69 for a ring command. -/
def ringCheck (s : State) (pen : Nat) (d : Desc) : Option Reply :=
  let op := descOpcode d
  if !s.supports op then some (rStatus .unsupported)
  else match opRow op with
    | none => some (rStatus .unsupported)
    | some row => if row.admits != .ring then some (rStatus .denied) else descCheck s (.pen pen) false d

/-- Outcome of a mailbox command's own part: completed now, or later. -/
inductive MbDone where
  | now (s : State) (r : Reply)
  | later (s : State)

/-- The submitter a mailbox stands for. -/
def mbSubmitter : Mb → Submitter
  | .pen n => .pen n
  | _ => .admin

/-- The pen a mailbox command acts on: its own, or the PEN operand at `off` for an admin mailbox (R450). -/
def mbTarget (mb : Mb) (d : Desc) (off : Nat) : Nat :=
  match mb with
  | .pen n => n
  | _ => operand d off 2

/-- The mailbox command the Reeve executes next from `mb` with opcode `op`: the waiting one, in queue order for the
admin and side-band mailboxes (R71), or one the hardware already completed with UNKNOWN (R73). -/
def mbNext (s : State) (mb : Mb) (op : Nat) : Option MbCmd :=
  match s.mb? mb with
  | none => none
  | some m =>
    match m.cmd with
    | some c =>
      if descOpcode c.desc == op && (!mbAdmin mb || (s.reeveQueue.head?.map (·.2) == some c.ticket)) then some c
      else none
    | none => m.late.find? (fun c => descOpcode c.desc == op)

/-- The Reeve executes the command of opcode `op` in mailbox `mb` (R69, R72): the checks of R69, then `body`. Nothing
happens when no such command waits there. -/
def mbRun (s : State) (mb : Mb) (op : Nat) (body : State → MbCmd → MbDone) : Out :=
  match mbNext s mb op with
  | none => stutter s
  | some c =>
    if !s.reeveFree c.ticket then stutter s else
    let s1 := s.mbTake mb c
    match (mbPrecheck s mb c.desc).or (descCheck s (mbSubmitter mb) (!mbAdmin mb) c.desc) with
    | some r => .next (s1.mbFinish ⟨mb, c⟩ r)
    | none =>
      match body s1 c with
      | .now s2 r => .next (s2.mbFinish ⟨mb, c⟩ r)
      | .later s2 => .next s2.reeveNext

/-- The opcodes that change an index (08 R203). -/
def indexOpcode (op : Nat) : Bool := decide (0x0120 ≤ op) && decide (op ≤ 0x0122)

/-- Command `a` must run before `c`, which its unit received later: both are for one session and from one ring (R41), or
both change one index (08 R203). -/
def RingCmd.precedes (a c : RingCmd) : Bool :=
  let session (x : RingCmd) : Bool := match opRow (descOpcode x.desc) with | some r => r.session | none => false
  (a.pen == c.pen && a.ring == c.ring && session a && session c && descHandle a.desc == descHandle c.desc)
    || (a.pen == c.pen && indexOpcode (descOpcode a.desc) && indexOpcode (descOpcode c.desc)
      && operand a.desc 0 4 == operand c.desc 0 4)

/-- The commands that no earlier one keeps waiting. -/
def unblocked : List RingCmd → List RingCmd → List RingCmd
  | _, [] => []
  | before, c :: cs => (if before.any fun a => a.precedes c then [] else [c]) ++ unblocked (before ++ [c]) cs

/-- The first dispatched command of a ring with opcode `op` whose turn it is (R41, 08 R203). -/
def ringNext (s : State) (pen ring op : Nat) : Option RingCmd :=
  (unblocked [] s.dispatched).find? fun c => c.pen == pen && c.ring == ring && descOpcode c.desc == op

/-- Take a dispatched command from its unit. -/
def State.ringTake (s : State) (c : RingCmd) : State :=
  { s with dispatched := s.dispatched.filter (fun d => d.serial != c.serial) }

/-- Outcome of a ring command's own part: completed now, or later. -/
inductive RingDone where
  | now (s : State) (r : Reply)
  | later (s : State)

/-- The unit executes the first dispatched command of opcode `op` of a ring: handle checked again as it takes effect
(R34, R41), then `body`. Nothing happens when none was dispatched, or while the Reeve, which executes the session opcodes,
does not run (R82). -/
def ringRun (s : State) (pen ring op : Nat) (body : State → RingCmd → RingDone) : Out :=
  match ringNext s pen ring op with
  | none => stutter s
  | some c =>
    if decide (op ≤ 0x0102) && !s.reeveFree c.serial then stutter s else
    let s1 := s.ringTake c
    match descCheck s (.pen pen) false c.desc with
    | some r => .next (s1.complete c r)
    | none =>
      match body s1 c with
      | .now s2 r => .next (s2.complete c r)
      | .later s2 => .next s2

/-- RETRY_LATER with a hint no rule derives: a free value. -/
def retryLater (s : State) : State × Reply :=
  let (n, s1) := s.draw
  (s1, { status := .retryLater, hint := (Config.retryHint n).toNat })

end Sys2Proof.Machine
end

