-- ==== Sys2Proof/Machine/Sha256.lean ====
section
/-!
DEFINITION. SHA-256 (FIPS 180-4), which 08_sketch_search R192 and 16_security use, and HKDF over it (RFC 5869).
-/
namespace Sys2Proof.Machine

abbrev W32 := BitVec 32

/-- Words packed into one number, the first in its lowest 32 bits. -/
def wordsOf (count packed : Nat) : List W32 := (List.range count).map fun i => BitVec.ofNat 32 (packed / 2 ^ (32 * i))

/-- The round constants, sixteen to a number: the first 32 bits of the fractional parts of the cube roots of the first 64
primes. -/
def shaK : List W32 :=
  wordsOf 16 0xc19bf1749bdc06a780deb1fe72be5d74550c7dc3243185be12835b01d807aa98ab1c5ed5923f82a459f111f13956c25be9b5dba5b5c0fbcf71374491428a2f98
    ++ wordsOf 16 0x1429296706ca6351d5a79147c6e00bf3bf597fc7b00327c8a831c66d983e515276f988da5cb0a9dc4a7484aa2de92c6f240ca1cc0fc19dc6efbe4786e49b69c1
    ++ wordsOf 16 0x106aa070f40e3585d6990624d192e819c76c51a3c24b8b70a81a664ba2bfe8a192722c8581c2c92e766a0abb650a735453380d134d2c6dfc2e1b213827b70a85
    ++ wordsOf 16 0xc67178f2bef9a3f7a4506ceb90befffa8cc7020884c8781478a5636f748f82ee682e6ff35b9cca4f4ed8aa4a391c0cb334b0bcb52748774c1e376c0819a4c116

/-- The initial hash value: the same of the square roots of the first eight primes. -/
def shaInit : List W32 := wordsOf 8 0x5be0cd191f83d9ab9b05688c510e527fa54ff53a3c6ef372bb67ae856a09e667

def sigma (a b c : Nat) (x : W32) : W32 := x.rotateRight a ^^^ x.rotateRight b ^^^ x.rotateRight c

/-- The next word of the message schedule from the last sixteen, oldest first. -/
def schedNext (w : List W32) : W32 :=
  let x := w.getD 1 0
  let y := w.getD 14 0
  (x.rotateRight 7 ^^^ x.rotateRight 18 ^^^ (x >>> 3)) + w.getD 9 0
    + (y.rotateRight 17 ^^^ y.rotateRight 19 ^^^ (y >>> 10)) + w.getD 0 0

/-- One round on the working variables a to h. -/
def shaRound (v : List W32) (k w : W32) : List W32 :=
  match v with
  | [a, b, c, d, e, f, g, h] =>
    let chosen := g ^^^ (e &&& (f ^^^ g))
    let majority := (a &&& b) ||| (c &&& (a ||| b))
    let fresh := k + w + h + chosen + sigma 6 11 25 e
    [fresh + majority + sigma 2 13 22 a, a, b, c, fresh + d, e, f, g]
  | _ => v

/-- The rounds of one block: `w` holds the next sixteen words of the schedule. -/
def shaRounds : List W32 → List W32 → List W32 → List W32
  | [], _, v => v
  | k :: ks, w, v => shaRounds ks (w.drop 1 ++ [schedNext w]) (shaRound v k (w.headD 0))

/-- A big-endian word. -/
def beWord (b : List Byte) : W32 := BitVec.ofNat 32 (b.foldl (fun n x => 256 * n + x.toNat) 0)

/-- One block of 64 bytes into the hash value. -/
def shaBlock (h : List W32) (b : List Byte) : List W32 :=
  List.zipWith (· + ·) h (shaRounds shaK ((chunks 4 16 b).map beWord) h)

/-- Big-endian bytes. -/
def beBytes (n v : Nat) : List Byte := (natToBytes n v).reverse

/-- The digest of a byte string, 32 bytes. -/
def sha256 (m : List Byte) : List Byte :=
  let p := m ++ [0x80] ++ List.replicate ((119 - m.length % 64) % 64) 0 ++ beBytes 8 (8 * m.length)
  ((chunks 64 (p.length / 64) p).foldl shaBlock shaInit).flatMap fun w => beBytes 4 w.toNat

/-- The digest as a 256-bit value, first byte most significant. -/
def sha256Nat (m : List Byte) : BitVec 256 := BitVec.ofNat 256 ((sha256 m).foldl (fun n x => 256 * n + x.toNat) 0)

/-- HMAC-SHA-256 (RFC 2104). -/
def hmac (key m : List Byte) : List Byte :=
  let k0 := if 64 < key.length then sha256 key else key
  let k := k0 ++ List.replicate (64 - k0.length) 0
  sha256 (k.map (· ^^^ 0x5c) ++ sha256 (k.map (· ^^^ 0x36) ++ m))

/-- The blocks of HKDF-Expand: `n` of them, from block `i` after block `t`. -/
def hkdfBlocks (prk info : List Byte) : Nat → Nat → List Byte → List Byte
  | 0, _, _ => []
  | n + 1, i, t =>
    let b := hmac prk (t ++ info ++ [BitVec.ofNat 8 i])
    b ++ hkdfBlocks prk info n (i + 1) b

/-- HKDF-SHA-256 (RFC 5869) with an output of `n` bytes (R394). -/
def hkdf (ikm salt info : List Byte) (n : Nat) : List Byte :=
  let prk := hmac (if salt.isEmpty then List.replicate 32 0 else salt) ikm
  (hkdfBlocks prk info (ceilDiv n 32) 1 []).take n

end Sys2Proof.Machine
end

