-- ==== Sys2Proof/Machine/Tollgate.lean ====
section
/-!
DEFINITION. The Tollgate (04_tollgate) and the rings' doorbells (03_nirvex_interface R75), with the heartbeat of the
pens (R64).
-/
namespace Sys2Proof.Machine

/-! ### Doorbells -/

/-- The test of R75. -/
def Ring.doorbellOk (g : Ring) (tail head : Nat) : Bool :=
  decide (sub32 tail g.sqTail ≤ 2 ^ g.sqLog2) && decide (sub32 tail g.fetched ≤ 2 ^ g.sqLog2)
    && decide (sub32 head g.cqHead ≤ 2 ^ g.cqLog2) && decide (sub32 g.written head ≤ 2 ^ g.cqLog2)

/-- A doorbell write (R75, R77). -/
def State.ringDoorbell (s : State) (p k : Nat) (v : BitVec 64) : State :=
  match s.ring? p k with
  | none => s.bumpPen p .dbInvalid 1
  | some g =>
    if g.destroying.isSome then s.bumpPen p .dbInvalid 1
    else
      let tail := bitsOf v.toNat 0 32
      let head := bitsOf v.toNat 32 32
      if g.doorbellOk tail head then
        s.modRing p k fun g =>
          { g with sqTail := tail, cqHead := head,
                   visible := if tail = g.sqTail then g.visible
                     else g.visible ++ [(sub32 tail g.sqTail, s.clock.now)] }
      else
        let g1 := g.bump .dbInvalid 1
        (s.modRing p k fun _ => g1).raiseTo p 0x0202 k (tallyGet g1.ctrs .dbInvalid) g.eventRing

/-! ### Counted length and colour -/

/-- Bytes per element of a storage format, in eighths, and scale bytes per 32 elements (Table 2.9). -/
def formatSize : Nat → Nat × Nat
  | 0x0 => (16, 0) | 0x1 => (8, 0) | 0x2 => (8, 0) | 0x3 => (8, 1) | 0x4 => (8, 1)
  | 0x5 => (6, 1) | 0x6 => (6, 1) | 0x7 => (4, 1) | 0x8 => (8, 2) | 0x9 => (4, 2) | _ => (0, 0)

/-- E(n) of R59. -/
def formatBytes (format n : Nat) : Nat := n * (formatSize format).1 / 8 + n / 32 * (formatSize format).2

/-- DIM, ELEM_FORMAT and V of an index's PARAMS (Table 8.4). -/
def indexDim (params : BitVec 64) : Nat := bitsOf params.toNat 0 12 + 1
def indexFormat (params : BitVec 64) : Nat := bitsOf params.toNat 12 4
def indexVectorBytes (params : BitVec 64) : Nat := formatBytes (indexFormat params) (indexDim params)

/-- The index a command names in its pen, unless its INDEX_DESTROY was accepted (R86, R207). -/
def State.index? (s : State) (p id : Nat) : Option Index :=
  (s.pen? p).bind fun q => (assocGet id q.indexes).bind fun x => if x.destroying.isSome then none else some x

/-- The data bytes of Table 4.2. -/
def dataBytes (s : State) (p : Nat) (d : Desc) : Nat :=
  let op := descOpcode d
  if op = 0x0110 || op = 0x0112 then operand d 8 4
  else if op = 0x0111 then 4 * operand d 8 4
  else if op = 0x0105 then (if descFlag d 24 then 32 else 256)
  else if op = 0x0120 || op = 0x0121 then
    match s.index? p (operand d 0 4) with
    | some x => operand d 16 4 * (16 + indexVectorBytes x.params)
    | none => 0
  else if op = 0x0123 then
    match s.index? p (operand d 0 4) with
    | some x => 2 * indexDim x.params + operand d 24 2 * 16
    | none => 0
  else 0

/-- The counted length B (R86). -/
def countedLength (s : State) (p : Nat) (g : Ring) (d : Desc) : Nat := 64 + g.toll.overhead + dataBytes s p d

/-- The colour of a command of counted length `b`, and the buckets after it (R89). -/
def Ring.colourOf (g : Ring) (b : Nat) : Colour × Nat × Nat :=
  if g.tp < b then (.red, g.tc, g.tp)
  else if (g.toll.colourAware && g.toll.preColourYellow) || decide (g.tc < b) then (.yellow, g.tc, g.tp - b)
  else (.green, g.tc - b, g.tp - b)

/-- The hint of R92. -/
def Ring.hintOf (g : Ring) (b : Nat) : Nat := max 1 (min 0xFFFF (ceilDiv (b - g.tp) g.toll.pir))

/-- The ring is paused (R93). -/
def Ring.paused (g : Ring) : Bool := g.toll.cir == 0 || g.toll.pir == 0

/-- One descriptor is admitted or completes without admission: the oldest visible one (R99). -/
def popVisible : List (Nat × Nat) → List (Nat × Nat)
  | [] => []
  | (n, t) :: l => if n ≤ 1 then l else (n - 1, t) :: l

/-- The held command leaves the ring: it completes without admission, and its descriptor is no longer the oldest (R95,
R99). -/
def Ring.unhold (g : Ring) : Ring :=
  { g with held := none, visible := if g.held.isSome then popVisible g.visible else g.visible }

/-- The ring after a command is admitted with colour `c` (R90, R99). -/
def Ring.take (g : Ring) (cmd : RingCmd) (c : Colour) (tc tp now : Nat) : Ring :=
  let g1 := { g with tc := tc, tp := tp, held := none, visible := popVisible g.visible,
                     admitted := g.admitted ++ [{ cmd with colour := c, admitted := now }] }
  (g1.bump (if c = .green then .green else .yellow) 1).bump .admittedBytes cmd.length

/-- A fetched or held command of counted length within PBS is coloured (R89, R90); an index command that is
admitted takes its snapshot of the index (08 R204, R206, R207, R211). -/
def State.colourCmd (s : State) (p k : Nat) (cmd : RingCmd) : State :=
  match s.ring? p k with
  | none => s
  | some g =>
    match g.colourOf cmd.length with
    | (.red, _, _) =>
      if g.toll.hold then s.modRing p k fun g => ({ g with held := some cmd }).bump .red 1
      else
        let hint := g.hintOf cmd.length
        let n := sub32 g.sqTail g.fetched
        (s.modRing p k fun g =>
          ({ g with held := none, run := if n = 0 then none else some (n, hint),
                    visible := popVisible g.visible }).bump .red 1).complete cmd
          { status := .throttled, hint := hint }
    | (c, tc, tp) =>
      let op := descOpcode cmd.desc
      let snap := if 0x0120 ≤ op && decide (op ≤ 0x0123) then
          (s.index? p (operand cmd.desc 0 4)).map fun x => (x.commitSeq, x.generation, s.recovery.gleaners.length)
        else none
      s.modRing p k fun g => g.take { cmd with snapshot := snap } c tc tp s.clock.now

/-- A command that completes at fetch without admission. -/
def State.rejectCmd (s : State) (p k : Nat) (cmd : RingCmd) (r : Reply) : State :=
  (s.modRing p k fun g => { g with visible := popVisible g.visible }).complete cmd r

/-- BAD_LENGTH of a command that can never pass the peak bucket (R87, R94). -/
def State.oversizeCmd (s : State) (p k : Nat) (cmd : RingCmd) : State :=
  (s.modRing p k fun g => ({ g with held := none }).bump .oversize 1).rejectCmd p k cmd (rStatus .badLength)

/-! ### Fetching -/

/-- The device fetches: rings are served and no warm reset or HALTED stands (R342, R348, R441). -/
def State.fetches (s : State) : Bool := s.ident.devState = .serving || s.ident.devState = .updating

/-- The ring may give a descriptor (R74, R93, R97). -/
def Ring.fetchable (g : Ring) : Bool :=
  !g.paused && g.held.isNone && g.destroying.isNone && g.sqTail != g.fetched
    && decide (sub32 g.written g.cqHead + g.inflight.length < 2 ^ g.cqLog2)

/-- Every fetchable ring of pens not under PEN_REINIT. -/
def State.fetchable (s : State) : List (Nat × Nat × Bool) :=
  s.pens.flatMap fun q =>
    if q.2.reinit.isSome then []
    else (q.2.rings.filter fun g => g.2.fetchable).map fun g => (q.1, g.1, g.2.latencyCritical)

/-- A ring's place in the round: pens in order, rings in order within a pen. -/
def ringPlace (r : Nat × Nat) : Nat := r.1 * 4096 + r.2

/-- The ring of a list with the lowest place. -/
def firstRing (l : List (Nat × Nat)) : Option (Nat × Nat) :=
  l.foldl (fun m r => match m with
    | none => some r
    | some q => if ringPlace r < ringPlace q then some r else some q) none

/-- The next ring after `last` in round-robin order. -/
def nextRing (last : Nat × Nat) (l : List (Nat × Nat)) : Option (Nat × Nat) :=
  (firstRing (l.filter fun r => decide (ringPlace last < ringPlace r))).or (firstRing l)

/-- The ring that gives the next descriptor, and the arbitration after it (R97): in each round the latency-critical rings
first, then the others, each class in round-robin order, and no ring twice. -/
def State.nextFetch (s : State) : Option ((Nat × Nat) × FetchArb) :=
  let a := s.fetchArb
  let all := s.fetchable
  let fresh := all.filter fun x => !a.round.contains (x.1, x.2.1)
  let round := if fresh.isEmpty then [] else a.round
  let cand := if fresh.isEmpty then all else fresh
  let rings (lc : Bool) : List (Nat × Nat) := (cand.filter fun x => x.2.2 == lc).map fun x => (x.1, x.2.1)
  match nextRing a.lastLc (rings true) with
  | some r => some (r, { a with round := round ++ [r], lastLc := r })
  | none => (nextRing a.lastBe (rings false)).map fun r => (r, { a with round := round ++ [r], lastBe := r })

/-- The arbitration after ring `k` of pen `p` has given the next descriptor, where it is that ring's turn (R97). -/
def State.fetchTurn (s : State) (p k : Nat) : Option FetchArb :=
  s.nextFetch.bind fun x => if x.1 = (p, k) then some x.2 else none

/-! ### The tick -/

/-- The buckets refilled (R88). -/
def Ring.refill (g : Ring) : Ring :=
  if g.paused then g
  else { g with tc := min g.toll.cbs (g.tc + g.toll.cir), tp := min g.toll.pbs (g.tp + g.toll.pir) }

/-- A new Tollgate block and class (R94). -/
def Ring.reconfigure (g : Ring) (t : Tollgate) (lc : Bool) (now : Nat) : Ring :=
  let full := g.paused && !(t.cir == 0 || t.pir == 0)
  { g with toll := t, latencyCritical := lc,
           tc := if full then t.cbs else min g.tc t.cbs, tp := if full then t.pbs else min g.tp t.pbs,
           nextSample := if t.sampleLog2 = g.toll.sampleLog2 then g.nextSample
             else nextMultiple (2 ^ (10 + t.sampleLog2)) now }

/-- One ring at a tick: refill, a held command coloured again, both under the settings in force, then an accepted RING_CONFIG
applied (R88, R90, R94). -/
def State.tickRing (s : State) (p k : Nat) : State :=
  let s1 := s.modRing p k Ring.refill
  let s2 := match s1.ring? p k with
    | none => s1
    | some g =>
      match g.held with
      | none => s1
      | some cmd =>
        if g.paused then s1
        else if g.toll.pbs < cmd.length then s1.oversizeCmd p k cmd
        else s1.colourCmd p k cmd
  match s2.ring? p k with
  | none => s2
  | some g => g.config.foldl (fun t c =>
      (t.modRing p k fun g => g.reconfigure c.1 c.2.1 s2.clock.now).mbFinish c.2.2 rOk)
      (s2.modRing p k fun g => { g with config := [] })

/-- The rings of every pen. -/
def State.allRings (s : State) : List (Nat × Nat) :=
  s.pens.flatMap fun q => q.2.rings.map fun g => (q.1, g.1)

/-- TOLLGATE_TICK: the next multiple of 1,024 always-on cycles (R88). -/
def execTollgateTick (s : State) : Out :=
  let due := s.clock.tollTick + 1024
  let s1 := s.at_ due
  let s2 := { s1 with clock := { s1.clock with tollTick := due } }
  .next (s2.allRings.foldl (fun t x => t.tickRing x.1 x.2) s2)

/-! ### Sampling and heartbeats -/

/-- Head-of-line delay of R99. -/
def Ring.holDelay (g : Ring) (now : Nat) : Nat :=
  match g.visible with
  | [] => 0
  | (_, t) :: _ => now - t

/-- Depth of R99. -/
def Ring.depth (g : Ring) : Nat := sub32 g.sqTail g.fetched + bitNat g.held.isSome

/-- A sample of the ring at cycle `now` (R99). -/
def Ring.sample (g : Ring) (now : Nat) : Ring :=
  let d := g.depth
  let h := satBits 32 (g.holDelay now)
  let c := assocSet RingCtr.depthLast d (assocSet RingCtr.holLast h g.ctrs)
  ({ g with ctrs := tallyMax (tallyMax c .depthMax d 32) .holMax h 32,
            nextSample := nextMultiple (2 ^ (10 + g.toll.sampleLog2)) now }).bump .samples 1

/-- TOLLGATE_SAMPLE: the ring's next multiple of its interval (R99). -/
def execTollgateSample (p k : Nat) (s : State) : Out :=
  match s.ring? p k with
  | none => stutter s
  | some g =>
    let s1 := s.at_ g.nextSample
    .next (s1.modRing p k fun g => g.sample (max g.nextSample s.clock.now))

/-- A ring counts as serviced in the window (R64, R93). -/
def Ring.servicedOk (g : Ring) : Bool :=
  g.serviced || g.paused || g.held.isSome || (g.sqTail == g.fetched && g.inflight.isEmpty)

/-- A pen at the end of a heartbeat window that began at `start` (R64). -/
def Pen.heartbeatWindow (q : Pen) (start : Nat) : Pen :=
  let ok := q.reinit.isNone && decide (q.createdAt ≤ start) && (q.mbServiced || !q.mailbox.busy)
    && q.rings.all fun g => g.2.servicedOk
  { q with heartbeat := if ok then q.heartbeat + 1 else q.heartbeat, mbServiced := false,
           rings := q.rings.map fun g => (g.1, { g.2 with serviced := false }) }

/-- HEARTBEAT_WINDOW: the next multiple of 2^18 always-on cycles (R64). -/
def execHeartbeatWindow (s : State) : Out :=
  let start := s.clock.heartbeatWindow
  let s1 := s.at_ (start + 2 ^ 18)
  .next { s1 with clock := { s1.clock with heartbeatWindow := start + 2 ^ 18 },
                  pens := s1.pens.map fun q => (q.1, q.2.heartbeatWindow start) }

/-- Reeve firmware runs (Table 3.2), HALTED included (18 R442); without a valid image none does. -/
def State.firmwareRuns (s : State) : Bool :=
  s.ident.devState != .boot && s.ident.devState != .warmReset && !s.board.noReeve

/-- REEVE_HEARTBEAT_TICK: firmware adds 1 at the next multiple of 2^16 (Table 3.2, R451). -/
def execReeveHeartbeatTick (s : State) : Out :=
  let due := s.clock.reeveHeartbeat + 2 ^ 16
  let s1 := s.at_ due
  let s2 := { s1 with clock := { s1.clock with reeveHeartbeat := due } }
  if s.firmwareRuns then
    .next { s2 with ident := { s2.ident with reeveHeartbeat := s2.ident.reeveHeartbeat + 1,
                                             reeveHeartbeatChanged := s2.clock.now } }
  else .next s2

end Sys2Proof.Machine
end

