-- ==== Sys2Proof/Machine/Usage.lean ====
section
/-!
DEFINITION. What pens are charged for and what their quotas are (06_tiers_and_drovers R131 to R142, 12 R306, 09 R227),
computed from the state.
-/
namespace Sys2Proof.Machine

/-- An FP32 pattern is not finite. -/
def f32NotFinite (x : F32) : Bool := bitsOf x.toNat 23 8 == 255

/-- The layout of a session, by id. -/
def State.layout? (s : State) (id : Nat) : Option Layout := assocGet id s.layouts

/-- The position record size of a layout in a format (R59). -/
def Layout.recordBytes (l : Layout) (format : Nat) : Nat :=
  if l.latent then formatBytes format l.latentWidth + formatBytes format l.ropeWidth
  else formatBytes format (2 * l.kvHeads * l.headWidth)

/-- The payload size of a sheaf entry (R46). -/
def sheafBytes (l : Layout) (x : Sheaf) : Nat := x.count * l.recordBytes x.format

/-- The bytes of an id coded in 7-bit groups (R307). -/
def idBytes (id : Nat) : Nat := if id < 2 ^ 7 then 1 else if id < 2 ^ 14 then 2 else if id < 2 ^ 21 then 3 else 5

/-- Bytes of a record: header and body padded to 8 (R307). -/
def Rec.bytes (r : Rec) : Nat :=
  32 + ceilDiv (r.body.length + (r.ids.map idBytes).sum) 8 * 8

/-- Bytes a Ledger region is charged: header, record pages and staging pages (R306). -/
def Region.bytes (r : Region) : Nat :=
  let recs := (r.recs.map Rec.bytes).sum + (r.waiting.flatMap (·.recs) |>.map Rec.bytes).sum
  let staged := (r.streams.map fun x => ceilDiv ((x.2.staged.map idBytes).sum) 4096).sum
  256 + 4096 * (ceilDiv recs 4096 + staged)

/-- Bytes a session is charged in a tier: record and map, owned sheaves, Ledger region (Table 6.3). -/
def Session.charge (s : State) (h : Handle) (x : Session) (t : Tier) : Nat :=
  let recMap := if x.tier = t then 256 + 64 * x.map.length else 0
  let reg := if t = .t1 && x.state != .closed then x.region.bytes else 0
  match s.layout? x.layout with
  | none => recMap + reg
  | some l =>
    recMap + reg + ((x.map.filter fun f => f.owner == h && !f.shared && f.tier == t).map (sheafBytes l)).sum

/-- A committed version whose delete is in the tombstone table: given after the strip that holds it was written. -/
def Index.tombstones (x : Index) : Nat :=
  (x.versions.filter fun v => v.gen.isSome && match v.delSeq with | some d => decide (x.genSeq < d) | none => false).length

/-- Versions in the side list, and pending ones (08 R203). -/
def Index.sideCount (x : Index) : Nat :=
  (x.versions.filter fun v => v.gen.isNone).length
    + (x.pending.filter fun o => match o with | .insert .. => true | .delete _ => false).length

/-- T1 bytes of an index: side list, tombstone table, strip descriptors, and what a replaced generation still holds
(08 R206, R212). -/
def Index.t1Bytes (x : Index) : Nat :=
  (x.sideCount + (x.old.map fun o => o.2.2.1).sum) * Config.sideEntryBytes x.params.toNat
    + (x.tombstones + (x.pending.length - (x.pending.filter fun o => match o with | .insert .. => true | _ => false).length)
        + (x.old.map fun o => o.2.2.2).sum) * Config.tombstoneBytes
    + (if x.generation = 0 then 0 else 2 ^ bitsOf x.params.toNat 20 5 * Config.stripDescriptorBytes)

/-- T2 bytes of an index: strip pages, those of replaced generations included (08 R212). -/
def Index.t2Bytes (x : Index) : Nat := x.stripBytes + (x.old.map fun o => o.2.1).sum

/-- Bytes of a pen's automaton tables and indexes (R227, 08 R212). -/
def Pen.tableBytes (q : Pen) (t : Tier) : Nat :=
  match t with
  | .t1 => (q.constraints.map fun c => c.2.bytes).sum + (q.indexes.map fun i => i.2.t1Bytes).sum
  | .t2 => (q.indexes.map fun i => i.2.t2Bytes).sum
  | .t3 => 0

/-- The pen charged for a session: its handle's, or the LOCAL_PEN of the grant under which it is homed (11 R282). -/
def chargedPen (x : Handle × Session) : Nat := x.2.localPen.getD (handlePen x.1)

/-- The pen charged for the session with a handle. -/
def State.penOf (s : State) (h : Handle) : Nat :=
  match s.sess? h with | some x => chargedPen (h, x) | none => handlePen h

/-- The session a move belongs to. -/
def MoveSubject.owner : MoveSubject → Handle
  | .sheaf h _ _ => h
  | .bale h _ _ => h
  | .session h => h

/-- The pen a move is charged to. -/
def State.movePen (s : State) (q : MoveSubject) : Nat := s.penOf q.owner

/-- Destination space of the pen's open moves in a tier (Table 6.3). -/
def State.moveCharge (s : State) (p : Nat) (t : Tier) : Nat :=
  ((s.moves.filter fun m => s.movePen m.subject == p && m.dst == t && (m.state == .copying || m.state == .committing)).map
    (·.charge)).sum
  -- sources not yet freed (R152), at a pool until it has applied the free
  + ((s.moves.filter fun m => s.movePen m.subject == p && m.src == t && m.state == .freeing).map (·.srcCharge)).sum
  + (if t = .t3 then (s.commons.requests.map fun r => match r.use with
      | .poolFree q _ n => if q = p then n else 0
      | _ => 0).sum else 0)

/-- The append reservation of a plan entry (R142). The position of R455 opens no sheaf entry. -/
def entryReservation (l : Layout) (format tailFill : Nat) (e : PlanEntry) : Nat :=
  (e.tokens + e.draftMax) * l.recordBytes format * l.layers
    + (if e.oneToken then 0
       else 64 * l.layers * (ceilDiv (tailFill + e.tokens + e.draftMax) 128 - (if tailFill = 0 then 0 else 1)))

/-- The format of a session's open tail, or the native format (R142, R148). -/
def Session.tailFormat (x : Session) (l : Layout) : Nat :=
  match x.map.find? (fun f => !f.isSealed) with
  | some f => f.format
  | none => l.nativeFormat

/-- TAIL_FILL at an entry's POSITION, as its plan assumes the session there (R107, R142). -/
def Session.fillAt (x : Session) (e : PlanEntry) : Nat := (x.tailFill + (e.position - x.kvPositions)) % 128

/-- Append reservations in force for the pen's entries: of steps in progress, to the boundary, and built plans (R142). -/
def State.reserved (s : State) (p : Nat) : Nat :=
  let plans := s.flocks.flatMap fun f =>
    (match f.2.run with | some r => r.plan.entries | none => [])
      ++ (match f.2.next with | some n => n.entries | none => [])
  ((plans.filter fun e => s.penOf e.handle == p).map fun e =>
    match s.sess? e.handle with
    | none => 0
    | some x =>
      match s.layout? x.layout with
      | none => 0
      | some l => entryReservation l (x.tailFormat l) (x.fillAt e) e).sum

/-- Bytes held for other nodes' pens: extents of grants, and space reserved for handoffs (11 R282, R291). -/
def State.grantCharge (s : State) (p : Nat) (t : Tier) : Nat :=
  ((s.commons.grants.filter fun g => g.localPen == p).map fun g =>
    ((g.extents.filter fun e => e.tier == t).map (·.size)).sum).sum
  + ((s.commons.incoming.filter fun i => i.localPen.getD (handlePen i.handle) == p && i.tier == t).map
      (·.bytes)).sum

/-- The pen's use of a tier (T1_USED, T2_USED, T3_USED of Table 6.9). -/
def State.used (s : State) (p : Nat) (t : Tier) : Nat :=
  ((s.sessions.filter fun x => chargedPen x == p).map fun x => x.2.charge s x.1 t).sum + s.grantCharge p t
    + (match s.pen? p with | some q => q.tableBytes t | none => 0)
    + s.moveCharge p t + (if t = .t1 then s.reserved p else 0)

/-- T1_BYTES (R131, R330). -/
def t1BytesOf (hbmStacks slices : Nat) : Nat := hbmStacks * 93000000000 - 6442450944 - 536870912 * slices
def State.t1Bytes (s : State) : Nat :=
  t1BytesOf s.recovery.hbmStacks.length (s.harvest.aliases.length + s.harvest.aliasMirrors.length)

/-- The smallest populated channel of a parity group (R133). -/
def groupChannelBytes (g : Nat) : Nat :=
  ((List.range 16).map fun i => Config.channelBytes (16 * g + i)).foldl
    (fun m c => if c = 0 then m else if m = 0 then c else min m c) 0

/-- The census's channels of a parity group. -/
def Recovery.groupChannels (r : Recovery) (g : Nat) : List Nat := r.channels.filter fun c => c / 16 == g

/-- The parity groups in the census (R136, R342, 18 R447): with channels, and not lost. -/
def State.usableGroups (s : State) : List Nat :=
  (List.range 8).filter fun g => !(s.recovery.groupChannels g).isEmpty && !s.t2.lost.contains g

/-- T2_BYTES (R133) of the groups of a census. -/
def t2BytesOf (groups : List Nat) : Nat := (groups.map fun g => groupChannelBytes g * 16 * 15 / 16 * 11 / 12).sum
def State.t2Bytes (s : State) : Nat := t2BytesOf s.usableGroups

/-- A pen's effective quota in a tier (R139). -/
def State.quota (s : State) (p : Nat) (t : Tier) : Nat :=
  match s.pen? p with
  | none => 0
  | some q =>
    match t with
    | .t1 => if s.t1Bytes < t1BytesOf 12 0 then q.cfg.t1Quota * s.t1Bytes / t1BytesOf 12 0 / 128 * 128
      else q.cfg.t1Quota
    | .t2 => let full := t2BytesOf (List.range 8)
      if s.t2Bytes < full then q.cfg.t2Quota * s.t2Bytes / full / 4096 * 4096 else q.cfg.t2Quota
    | .t3 => q.cfg.t3Quota

/-- A session's record, map and tails are pinned in T1 (R141). -/
def Session.pinned (x : Session) : Bool :=
  x.state = .runnable || x.state = .running || x.state = .faulted

/-- Whether a lease views the sheaf (R19, R141). -/
def State.leased (s : State) (f : Sheaf) : Bool :=
  s.flocks.any fun k => k.2.leases.any fun l => l.refs.contains (f.owner, f.layer, f.ordinal)

/-- A sheaf is pinned in T1 (R141): viewed by a lease, an open tail of a pinned session, or among its hottest. -/
def Session.sheafPinned (s : State) (x : Session) (f : Sheaf) : Bool :=
  s.leased f || (!f.isSealed && x.pinned)
    || ((x.state = .runnable || x.state = .running) &&
        match x.flock.bind (fun k => assocGet k s.flocks) with
        | none => false
        | some k => decide ((x.map.filter fun g => g.layer == f.layer && g.isSealed
            && decide (f.startPos < g.startPos)).length < k.params.hotSheaves))

/-- R141 pins the sheaf in T1, for its owner or for a session that shares it: leased, named in a built plan's promotion
list, in step or about to be, or pinned by a session whose map names it. -/
def State.pinnedSheaf (s : State) (f : Sheaf) : Bool :=
  s.flocks.any (fun k =>
      (match k.2.next with | some n => n.promotions.contains (f.owner, f.layer, f.ordinal) | none => false)
        || (match k.2.run with | some r => r.plan.promotions.contains (f.owner, f.layer, f.ordinal) | none => false))
    || s.sessions.any fun x => x.2.map.any fun g =>
      g.owner == f.owner && g.layer == f.layer && g.ordinal == f.ordinal && x.2.sheafPinned s g

/-- Bytes of the pen pinned in T1 (T1_PINNED). -/
def State.pinnedBytes (s : State) (p : Nat) : Nat :=
  ((s.sessions.filter fun x => chargedPen x == p).map fun x =>
    (if x.2.tier = .t1 && x.2.pinned then 256 + 64 * x.2.map.length else 0)
      + (if x.2.state = .closed then 0 else x.2.region.bytes)
      + match s.layout? x.2.layout with
        | none => 0
        | some l => ((x.2.map.filter fun f => f.owner == x.1 && !f.shared && f.tier == .t1 && s.pinnedSheaf f).map
            (sheafBytes l)).sum).sum

/-- Sessions of the pen that count towards SESSIONS_MAX, lingering ones included (R33). -/
def State.sessionCount (s : State) (p : Nat) : Nat :=
  (s.slice.entries.filter fun e => handlePen e.2.handle == p
    && (e.2.life == .live || e.2.life == .regrow || (e.2.life == .closed && !s.slice.reissue.contains e.1))).length

end Sys2Proof.Machine
end

