-- ==== Sys2Proof/Machine/Pens.lean ====
section
/-!
DEFINITION. The mailbox commands over pens, rings, layouts and constraint sets (03_nirvex_interface Table 3.7, 02 R56 to
R58, 04 R85 and R94, 06 R139, 09 R227 and R229, 15 R376, 16 R395), and NIRVEX_CAPS (R79).
-/
namespace Sys2Proof.Machine

/-- The pen that a command at `off` of the operand area names, or its BAD_PARAM (R450). -/
def penOr (s : State) (mb : Mb) (d : Desc) (off : Nat) : Except Reply (Nat × Pen) :=
  let p := mbTarget mb d off
  match s.pen? p with
  | some q => .ok (p, q)
  | none => .error (rBad (16 + off))

/-- `body` on the pen a command names. -/
def withPen (s : State) (mb : Mb) (d : Desc) (off : Nat) (body : Nat → Pen → MbDone) : MbDone :=
  match penOr s mb d off with
  | .ok (p, q) => body p q
  | .error r => .now s r

/-- `body` unless a check of the descriptor or of state offends. -/
def unlessBad (s : State) (l : List (Nat × Bool)) (body : MbDone) (others : List (Nat × Bool) := []) : MbDone :=
  match badFirst l others with
  | some k => .now s (rBad k)
  | none => body

/-! ### Capabilities -/

/-- A port that was LINKED since power-on has left the census (R252). -/
def portMissing (p : Nat × Port) : Bool := p.2.known && !p.2.census

/-- DEGRADED: a count is below the full count for the ordering number (R340). Unpopulated parity groups (18 R447) and ports
that never linked (R252) do not count. -/
def State.degraded (s : State) : Bool :=
  decide (s.recovery.oxen.length < 64) || decide (s.recovery.gleaners.length < 128)
    || decide (s.recovery.drovers.length < 16)
    || decide (s.recovery.channels.length + 16 * s.recovery.unpopulated.length < 128)
    || decide (s.recovery.hbmStacks.length < 12) || s.stepPorts.any portMissing || s.commons.ports.any portMissing

/-- Ports in the census (R252, R276); a LYS4160-PC has no Step Link ports (R4). -/
def State.stepPortCount (s : State) : Nat :=
  if s.ident.pc then 0 else (s.stepPorts.filter fun p => p.2.census).length
def State.commonsPortCount (s : State) : Nat := (s.commons.ports.filter fun p => p.2.census).length

/-- Registry indices that read EXHAUSTED (R32). -/
def State.exhausted (s : State) : Nat := (s.slice.entries.filter fun e => e.2.life == .exhausted).length

/-- OPCODE_BITMAP (Table 3.9). -/
def State.opcodeBitmap (s : State) : Nat :=
  ((List.range 512).map fun k => if s.supports k then 2 ^ k else 0).sum

/-- Lanes of the ports, one byte each (Table 3.9). -/
def portLanes (ports : List (Nat × Port)) (n : Nat) : List (Nat × Nat) :=
  (List.range n).map fun i => (8, match assocGet i ports with | some p => p.width | none => 0)

/-- The version of the image that runs. -/
def State.fwVersion (s : State) : Nat :=
  match s.security.running with | some i => i.version.toNat | none => Config.bootFwVersion.toNat

/-- NIRVEX_MINOR of the image that runs. -/
def State.nirvexMinor (s : State) : Nat := (Config.nirvexMinor (BitVec.ofNat 24 s.fwVersion)).toNat

/-- The capability block of Table 3.9. -/
def State.capsBlock (s : State) : List Byte :=
  packBytes 256 ([(8, s.nirvexMinor), (8, 1), (16, 0), (32, s.fwVersion), (512, s.opcodeBitmap),
    (7, s.recovery.oxen.length), (1, 0), (8, s.recovery.gleaners.length), (5, s.recovery.drovers.length), (3, 0),
    (8, s.recovery.channels.length), (4, s.recovery.hbmStacks.length), (4, s.stepPortCount), (5, s.commonsPortCount),
    (3, 0), (4, if s.ident.pc then 0 else 8), (4, 0), (11, 1024), (5, 0), (13, 4096), (3, 0), (17, 65536), (23, 0),
    (25, 16777216), (7, 0), (13, 4096), (3, 0), (7, 64), (1, 0), (1, bitNat s.partner.node.isNone),
    (1, bitNat s.ident.pc), (1, bitNat s.degraded), (5, 0), (64, s.t1Bytes), (64, s.t2Bytes), (32, s.exhausted),
    (32, s.ident.censusGeneration.toNat)] ++ portLanes s.stepPorts 8 ++ portLanes s.commons.ports 18)

/-- NIRVEX_CAPS (R79). -/
def execNirvexCaps (mb : Mb) (s : State) : Out :=
  mbRun s mb 0x0001 fun s _ =>
    .now (s.modMb mb fun m => { m with payload := memWriteBytes m.payload 0 s.capsBlock }) rOk

/-! ### Pens -/

/-- The settings operands of PEN_CREATE and PEN_CONFIG (Table 3.7). -/
def penCfgOf (d : Desc) : PenCfg :=
  { t1Quota := operand d 8 8, t2Quota := operand d 16 8, t3Quota := operand d 24 8, sessionsMax := operand d 32 4,
    ringsMax := operand d 36 2, fidelity := operand d 38 1, energyFloor := operand d 40 4 }

/-- Checks of the settings' ranges (Table 3.7, R143, R376). -/
def penCfgChecks (c : PenCfg) : List (Nat × Bool) :=
  [(52, decide (4096 < c.ringsMax)), (54, decide (15 < c.fidelity)), (56, decide (1000000 < c.energyFloor))]

/-- The settings of every pen but `p`. -/
def State.otherPens (s : State) (p : Nat) : List PenCfg :=
  (s.pens.filter fun q => q.1 != p).map fun q => q.2.cfg

/-- The settings that every pen but `p` will have once what is accepted is in effect (R453). -/
def State.otherPensNext (s : State) (p : Nat) : List PenCfg :=
  (s.pens.filter fun q => q.1 != p).map fun q => ((q.2.pendingCfg.getLast?).map (·.1)).getD q.2.cfg

/-- The sums of R139 and R376 with `c` as the settings of a pen beside the others'. -/
def quotaExceeded (s : State) (o : List PenCfg) (c : PenCfg) : Bool :=
  decide (s.t1Bytes < (o.map (·.t1Quota)).sum + c.t1Quota)
    || decide (s.t2Bytes < (o.map (·.t2Quota)).sum + c.t2Quota)
    || decide ((s.hearth.sustained - 400) * 1000 < (o.map (·.energyFloor)).sum + c.energyFloor)

/-- Rings that exist in the device. -/
def State.ringCount (s : State) : Nat := (s.pens.map fun q => q.2.rings.length).sum

/-- PEN_CREATE (R139, R143, R376, R395, R450). -/
def execPenCreate (mb : Mb) (s : State) : Out :=
  mbRun s mb 0x0002 fun s c =>
    let p := operand c.desc 0 2
    let cfg := penCfgOf c.desc
    let gen := (assocGet p s.penGens).getD 0
    unlessBad s ((16, decide (1023 < p) || (s.pen? p).isSome) :: penCfgChecks cfg) <|
      if quotaExceeded s (s.otherPens p) cfg || quotaExceeded s (s.otherPensNext p) cfg || decide (65536 ≤ s.ringCount) || decide (16777216 ≤ s.sessions.length)
          || decide (0xFFFFFFFF ≤ gen) then .now s (rStatus .quota)
      else .now { s with pens := assocSet p { cfg := cfg, createdAt := s.clock.now } s.pens,
                         penGens := assocSet p (gen + 1) s.penGens } rOk

/-- PEN_DESTROY (Table 3.7, R450): an empty pen other than pen 0x000. -/
def execPenDestroy (mb : Mb) (s : State) : Out :=
  mbRun s mb 0x0003 fun s c =>
    let p := operand c.desc 0 2
    if p = 0 then .now s (rStatus .denied)
    else
      unlessBad s [(16, match s.pen? p with
        | none => true
        | some q => !q.rings.isEmpty || decide (0 < s.sessionCount p) || s.sessions.any fun x => handlePen x.1 == p)] <|
        .now { s with pens := assocDel p s.pens } rOk

/-- PEN_CONFIG (R453): checked, then in effect at the next service-plan boundary. -/
def execPenConfig (mb : Mb) (s : State) : Out :=
  mbRun s mb 0x0004 fun s c =>
    let p := operand c.desc 0 2
    let cfg := penCfgOf c.desc
    unlessBad s ((16, (s.pen? p).isNone) :: penCfgChecks cfg) <|
      if quotaExceeded s (s.otherPensNext p) cfg then .now s (rStatus .quota)
      else .later (s.modPen p fun q => { q with pendingCfg := q.pendingCfg ++ [(cfg, ⟨mb, c⟩)] })

/-! ### Rings -/

/-- The TOLLGATE block at operand offset 24 (Table 4.1). -/
def tollgateOf (d : Desc) : Tollgate :=
  let b := operand d 24 24
  { cir := bitsOf b 0 32, pir := bitsOf b 32 32, cbs := bitsOf b 64 32, pbs := bitsOf b 96 32,
    overhead := bitsOf b 128 12, colourAware := bitOf b 140, preColourYellow := bitOf b 141, hold := bitOf b 142,
    sampleLog2 := bitsOf b 144 4 }

/-- The checks of R85, by descriptor byte; the block's reserved bits are among the descriptor's (R69). -/
def tollgateChecks (d : Desc) : List (Nat × Bool) :=
  let t := tollgateOf d
  [(48, t.cbs == 0), (52, t.pbs == 0), (44, t.cir != 0 && t.pir != 0 && decide (t.pir < t.cir))]

/-- A ring as RING_CREATE makes it (R74, R88). -/
def newRing (d : Desc) (now : Nat) : Ring :=
  let t := tollgateOf d
  { sqBase := operand d 0 8, cqBase := operand d 8 8, sqLog2 := operand d 16 1, cqLog2 := operand d 17 1,
    eventRing := if operand d 18 1 = 0xFF then none else some (operand d 18 1), latencyCritical := operand d 19 1 == 1,
    toll := t, tc := t.cbs, tp := t.pbs, createdAt := now, nextSample := nextMultiple (2 ^ (10 + t.sampleLog2)) now }

/-- RING_CREATE (R74, R85, R450). -/
def execRingCreate (mb : Mb) (s : State) : Out :=
  mbRun s mb 0x0010 fun s c =>
    withPen s mb c.desc 22 fun p q =>
      let d := c.desc
      let k := operand d 20 2
      unlessBad s ([(16, operand d 0 8 % 4096 != 0), (24, operand d 8 8 % 4096 != 0),
          (32, decide (operand d 16 1 < 6) || decide (14 < operand d 16 1)),
          (33, decide (operand d 17 1 < 6) || decide (15 < operand d 17 1)),
          (34, decide (15 < operand d 18 1) && operand d 18 1 != 0xFF), (35, decide (1 < operand d 19 1)),
          (36, decide (4095 < k) || assocHas k q.rings)] ++ tollgateChecks d) <|
        if decide (q.cfg.ringsMax ≤ q.rings.length) || decide (65536 ≤ s.ringCount) then .now s (rStatus .quota)
        else .now (s.modPen p fun q => { q with rings := assocSet k (newRing d s.clock.now) q.rings }) rOk

/-- A ring that exists for later commands (R77). -/
def Pen.hasRing (q : Pen) (k : Nat) : Bool :=
  match assocGet k q.rings with | some g => g.destroying.isNone | none => false

/-- RING_DESTROY (R77, R95): fetching stops, the held command is aborted, and the command completes once every fetched
command has. -/
def execRingDestroy (mb : Mb) (s : State) : Out :=
  mbRun s mb 0x0011 fun s c =>
    withPen s mb c.desc 22 fun p q =>
      let k := operand c.desc 20 2
      unlessBad s [(36, !q.hasRing k)] <|
        let held := (s.ring? p k).bind (·.held)
        let s1 := s.modRing p k fun g => { g.unhold with destroying := some ⟨mb, c⟩, run := none }
        match held with
        | none => .later (s1.ringGone p k)
        | some h => .later (s1.complete h (rStatus .abortedRetryable))

/-- RING_CONFIG (R85, R94): in effect at the first tick after acceptance. -/
def execRingConfig (mb : Mb) (s : State) : Out :=
  mbRun s mb 0x0012 fun s c =>
    withPen s mb c.desc 22 fun p q =>
      let d := c.desc
      let k := operand d 20 2
      unlessBad s ([(35, decide (1 < operand d 19 1)), (36, !q.hasRing k)] ++ tollgateChecks d) <|
        .later (s.modRing p k fun g =>
          { g with config := g.config ++ [(tollgateOf d, operand d 19 1 == 1, ⟨mb, c⟩)] })

/-! ### Layouts -/

/-- The descriptor of Table 2.10. -/
def layoutOf (bs : List Byte) : Layout :=
  let v := bytesToNat (bs.take 256)
  { id := bitsOf v 0 6, vocab := bitOf v 6, latent := bitOf v 7, causal := bitOf v 8, layers := bitsOf v 16 11,
    vocabSize := bitsOf v 32 19, kvHeads := bitsOf v 64 9, headWidth := bitsOf v 80 10, queryHeads := bitsOf v 96 11,
    latentWidth := bitsOf v 112 12, ropeWidth := bitsOf v 128 9, nativeFormat := bitsOf v 144 4,
    sinkSheaves := bitsOf v 152 5, window := bitsOf v 160 32, scoreScale := BitVec.ofNat 32 (bitsOf v 192 32),
    softcap := BitVec.ofNat 32 (bitsOf v 224 32), projectionSeed := BitVec.ofNat 64 (bitsOf v 256 64),
    windowLayers := BitVec.ofNat 1024 (bitsOf v 384 1024), raw := bs.take 256 }

/-- The reserved ranges of Table 2.10: first byte within the payload, lowest bit, width. -/
def layoutReserved : List (Nat × Nat × Nat) :=
  [(1, 9, 7), (3, 27, 5), (6, 51, 5), (7, 56, 8), (9, 73, 7), (11, 90, 6), (13, 107, 5), (15, 124, 4), (17, 137, 7),
   (18, 148, 4), (19, 157, 3)] ++ ((List.range 8).map fun i => (40 + i, 320 + 8 * i, 8))
   ++ ((List.range 80).map fun i => (176 + i, 1408 + 8 * i, 8))

/-- The checks of R57 and R13 on a layout descriptor, by payload byte. -/
def layoutChecks (l : Layout) : List (Nat × Bool) :=
  let v := bytesToNat l.raw
  let mul32 (w lo hi : Nat) : Bool := decide (lo ≤ w) && decide (w ≤ hi) && w % 32 == 0
  [(2, l.layers == 0 || decide (1024 < l.layers)),
   (4, if l.vocab then l.vocabSize == 0 || decide (262144 < l.vocabSize) else l.vocabSize != 768),
   (8, if l.latent then l.kvHeads != 0 else l.kvHeads == 0 || decide (256 < l.kvHeads)),
   (10, if l.latent then l.headWidth != 0 else !mul32 l.headWidth 32 512),
   (12, l.queryHeads == 0 || decide (1024 < l.queryHeads)
     || (!l.latent && l.kvHeads != 0 && l.queryHeads % l.kvHeads != 0)),
   (14, if l.latent then !mul32 l.latentWidth 32 2048 else l.latentWidth != 0),
   (16, if l.latent then !mul32 l.ropeWidth 0 256 else l.ropeWidth != 0),
   (18, decide (9 < l.nativeFormat)),
   (19, decide (16 < l.sinkSheaves)),
   (20, decide (2 ^ 27 < l.window)),
   (24, f32NotFinite l.scoreScale || bitOf l.scoreScale.toNat 31 || l.scoreScale == 0),
   (28, f32NotFinite l.softcap || (bitOf l.softcap.toNat 31 && bitsOf l.softcap.toNat 0 31 != 0))]
  ++ layoutReserved.map fun r => (r.1, bitsOf v r.2.1 r.2.2 != 0)

/-- LAYOUT_LOAD (R56, R57). -/
def execLayoutLoad (mb : Mb) (s : State) : Out :=
  mbRun s mb 0x0020 fun s c =>
    let l := layoutOf (memReadBytes c.payload 0 256)
    match badAmong ((0, (s.layout? l.id).isSome) :: layoutChecks l) with
    | some k => .now s (rBad (64 + k))
    | none => .now { s with layouts := assocSet l.id l s.layouts } rOk

/-- Whether a session or a flock refers to a layout (R58, R103). -/
def State.layoutUsed (s : State) (id : Nat) : Bool :=
  s.sessions.any (fun x => x.2.layout == id)
    || s.flocks.any fun f => (f.2.params.enable && f.2.params.layout == id)
      || f.2.pending.any fun p => p.1.enable && p.1.layout == id

/-- LAYOUT_UNLOAD (R58, R103). -/
def execLayoutUnload (mb : Mb) (s : State) : Out :=
  mbRun s mb 0x0021 fun s c =>
    let id := operand c.desc 0 1
    unlessBad s [(16, (s.layout? id).isNone || s.layoutUsed id)] <|
      .now { s with layouts := assocDel id s.layouts } rOk

/-! ### Constraint sets -/

/-- A parsed source record: its kind and its ids. -/
abbrev SourceRec := Nat × List Nat

/-- The records of a constraint source (R227): none when a header or the end is wrong. -/
def parseSource : Nat → List Byte → Option (List SourceRec)
  | 0, bs => if bs.isEmpty then some [] else none
  | fuel + 1, bs =>
    if bs.isEmpty then some []
    else
      let h := bytesAt bs 0 4
      let n := bitsOf h 0 7
      let kind := bitsOf h 8 2
      if bs.length < 4 || bitOf h 7 || bitsOf h 10 22 != 0 || kind == 3 || n == 0 || decide (64 < n)
          || decide (bs.length < 4 + 4 * n) then none
      else
        let ids := (List.range n).map fun i => bytesAt bs (4 + 4 * i) 4
        if ids.any (fun i => decide (262144 ≤ i)) then none
        else (parseSource fuel (bs.drop (4 + 4 * n))).map fun rs => (kind, ids) :: rs

/-- Whether the source ends on a record boundary, by its headers' lengths alone. -/
def onBoundary : Nat → List Byte → Bool
  | 0, bs => bs.isEmpty
  | fuel + 1, bs => bs.isEmpty || (decide (4 + 4 * bitsOf (bytesAt bs 0 4) 0 7 ≤ bs.length)
      && onBoundary fuel (bs.drop (4 + 4 * bitsOf (bytesAt bs 0 4) 0 7)))

/-- The rules of a source: a TRIGGER is followed at once by its FORCED record (R227). -/
def sourceRules : List SourceRec → Option (List (List Nat) × List (List Nat × List Nat))
  | [] => some ([], [])
  | (0, ids) :: rs => (sourceRules rs).map fun r => (ids :: r.1, r.2)
  | (1, t) :: (2, f) :: rs => (sourceRules rs).map fun r => (r.1, (t, f) :: r.2)
  | _ => none

/-- A source compiled (R227): the rules, and the charge of 256 bytes a state and 8 bytes a transition. -/
def compileSource (src : List Byte) : Option ConstraintSet :=
  match (parseSource src.length src).bind sourceRules with
  | none => none
  | some (b, f) =>
    if 256 < b.length || 64 < f.length then none
    else some { banned := b, forced := f, states := Config.compiledStates src,
                bytes := 256 * Config.compiledStates src + 8 * Config.compiledTransitions src, source := src }

/-- CONSTRAINT_LOAD (R227): `source` is what stands at SOURCE in control-node memory. -/
def execConstraintLoad (mb : Mb) (source : List Byte) (s : State) : Out :=
  mbRun s mb 0x0022 fun s c =>
    withPen s mb c.desc 2 fun p q =>
      let id := operand c.desc 0 2
      let len := operand c.desc 16 4
      let src := source.take len ++ List.replicate (len - source.length) 0
      if len = 0 then .now s rOk
      else unlessBad s [(16, id == 0xFFFF || assocHas id q.constraints), (32, decide (1048576 < len)
          || !onBoundary len src)]
        (if 256 ≤ q.constraints.length then .now s (rBad 0xFFFF)
        else match compileSource src with
          | none => .now s (rBad 24)
          | some set =>
            if decide (16384 < (q.constraints.map fun x => x.2.states).sum + set.states)
                || decide (s.quota p .t1 < s.used p .t1 + set.bytes) then .now s (rStatus .quota)
            else .now (s.modPen p fun q => { q with constraints := assocSet id set q.constraints }) rOk)
        [(24, (compileSource src).isNone)]

/-- Whether a session uses a constraint set of its pen (R229). -/
def State.constraintUsed (s : State) (p id : Nat) : Bool :=
  s.sessions.any fun x => handlePen x.1 == p && x.2.state != .closed &&
    (x.2.sampler.constraintSet == id
      || x.2.configs.any fun c => bitOf (operand c.desc 32 2) 4 && operand c.desc 16 2 == id)

/-- CONSTRAINT_UNLOAD (Table 3.7, R229). -/
def execConstraintUnload (mb : Mb) (s : State) : Out :=
  mbRun s mb 0x0023 fun s c =>
    withPen s mb c.desc 2 fun p q =>
      let id := operand c.desc 0 2
      unlessBad s [(16, !assocHas id q.constraints || s.constraintUsed p id)] <|
        .now (s.modPen p fun q => { q with constraints := assocDel id q.constraints }) rOk

end Sys2Proof.Machine
end

