-- ==== Sys2Proof/Machine/Hearth.lean ====
section
/-!
DEFINITION. The power and thermal manager (15_hearth_power): domains and the wake ladder, floors, grants, limits, the
overrun window, the price multipliers, and what a tick makes of the sensors.
-/
namespace Sys2Proof.Machine

/-! ### Domains (Table 15.1) -/

/-- A power domain. -/
def State.domain (s : State) (d : Nat) : Domain := (assocGet d s.hearth.domains).getD {}

/-- Put back a power domain. -/
def State.setDomain (s : State) (d : Nat) (x : Domain) : State :=
  { s with hearth := { s.hearth with domains := assocSet d x s.hearth.domains } }

/-- The domain is in RUN. -/
def State.domainRuns (s : State) (d : Nat) : Bool := (s.domain d).state == .run

/-- A waiting change into its place in the queue of R372. -/
def insertChange (c : Nat × Nat × DomState) : List (Nat × Nat × DomState) → List (Nat × Nat × DomState)
  | [] => [c]
  | x :: l =>
    if c.1 < x.1 ∨ (c.1 = x.1 ∧ c.1 = 1 ∧ c.2.1 < x.2.1) then c :: x :: l else x :: insertChange c l

/-- Ask for a wake of domain `d` in class `cls` of R372: 1 for a plan's wake list, 2 for the service plan, 3 for a
demand wake (R371). A waiting entry into SLEEP or OFF of the domain is withdrawn. -/
def State.askWake (s : State) (cls d : Nat) : State :=
  let waiting := s.hearth.changes.filter fun c => !(c.2.1 == d && c.2.2 != .run)
  let s1 := { s with hearth := { s.hearth with changes := waiting } }
  if s.domainRuns d || (s.domain d).wakeDue.isSome || waiting.any (fun c => c.2.1 == d) then s1
  else { s1 with hearth := { s1.hearth with changes := insertChange (cls, d, .run) waiting } }

/-- Ask for wakes of each domain of a list. -/
def State.askWakes (s : State) (cls : Nat) (ds : List Nat) : State := ds.foldl (fun t d => t.askWake cls d) s

/-- A plan is in force: every Weaver lane, drover, ox pair and HBM stack is named by it. -/
def State.planInForce (s : State) : Bool := s.flocks.any fun f => f.2.run.isSome || f.2.next.isSome

/-- The domains a plan names (the model's choice). -/
def planDomains : List Nat := (List.range 40).map (· + 9) ++ (List.range 12).map (· + 65)

/-- The unit that executes a ring opcode (Table 3.8). -/
def unitOfOp (op : Nat) : CmdUnit :=
  if op ≤ 0x0102 then .reeve
  else if op = 0x0106 ∨ (0x0110 ≤ op ∧ op ≤ 0x0112) then .weaver
  else if op < 0x0110 then .shepherd
  else .gleaners

/-- Work queued for a unit: admitted or dispatched commands. -/
def State.queuedFor (s : State) (u : CmdUnit) : Bool :=
  s.dispatched.any (fun c => unitOfOp (descOpcode c.desc) == u)
    || s.pens.any fun q => q.2.rings.any fun g => g.2.admitted.any fun c => unitOfOp (descOpcode c.desc) == u

/-- Flash operations are queued: moves to or from T2, searches, compactions (Table 15.1). -/
def State.flashQueued (s : State) : Bool :=
  s.moves.any (fun m => m.src == .t2 || m.dst == .t2) || s.queuedFor .gleaners
    || s.pens.any fun q => q.2.indexes.any fun i => !i.2.searches.isEmpty || i.2.compacting

/-- Whether the condition of Table 15.1 for domain `d` to enter `t` holds, apart from time. -/
def State.mayRest (s : State) (d : Nat) (t : DomState) : Bool :=
  let asleep := (s.domain d).state == .sleep
  let toSleep := t == .sleep && s.domainRuns d
  let toOff := t == .off
  if 9 ≤ d ∧ d ≤ 12 then (toSleep && !s.queuedFor .weaver && !s.planInForce) || (toOff && asleep)
  else if 13 ≤ d ∧ d ≤ 16 then (toSleep && s.moves.isEmpty && !s.planInForce) || (toOff && asleep)
  else if 17 ≤ d ∧ d ≤ 48 then !s.planInForce && (toSleep || toOff)
  else if 49 ≤ d ∧ d ≤ 64 then
    !s.flashQueued && (toSleep || (toOff && asleep && s.sessions.all fun x => x.2.region.flashed == x.2.ledgerStep))
  else if 65 ≤ d ∧ d ≤ 76 then
    (toSleep && !s.planInForce) || (toOff && !s.recovery.hbmStacks.contains (d - 65))
  else if 77 ≤ d ∧ d ≤ 84 then
    toOff && (match assocGet (d - 77) s.stepPorts with | some p => p.state == .off | none => true)
  else if 85 ≤ d ∧ d ≤ 102 then
    toOff && !s.commons.routes.any (fun r => r.2.contains (d - 85))
      && (match assocGet (d - 85) s.commons.ports with | some p => p.state != .training | none => true)
  else d == 105 && toOff && !s.debugPort.sessionOpen

/-- Idle time before a domain enters `t` (Table 15.1). -/
def restDelay (d : Nat) (t : DomState) : Nat :=
  if t = .sleep then (if 65 ≤ d ∧ d ≤ 76 then 2 ^ 16 else 0)
  else if 9 ≤ d ∧ d ≤ 64 then 2 ^ 20 else 0

/-- Queue the entry of domain `d` into `t` when its condition and its idle time hold (R370, R372). -/
def State.restDomain (s : State) (d : Nat) (t : DomState) : State :=
  if s.mayRest d t && (s.domain d).state != t && (s.domain d).wakeDue.isNone && !s.hearth.changes.any (fun c => c.2.1 == d) then
    let s1 := s.at_ ((s.domain d).idleSince + restDelay d t)
    { s1 with hearth := { s1.hearth with changes := insertChange (4, d, t) s1.hearth.changes } }
  else s

/-- DOMAIN_SLEEP (R370). -/
def execDomainSleep (d : Nat) (s : State) : Out :=
  if 106 ≤ d then .fault .noSuchUnit else .next (s.restDomain d .sleep)

/-- DOMAIN_OFF_TIMER (R370). -/
def execDomainOffTimer (d : Nat) (s : State) : Out :=
  if 106 ≤ d then .fault .noSuchUnit else .next (s.restDomain d .off)

/-- The ladder's spacing after a change (R372), by whether the domain leaves or enters OFF. -/
def ladderSpacing (off : Bool) : Nat := if off then 250 else 25

/-- The cycle since which a domain that enters `t` now is idle: an ox pair counts from the last plan that named it, every
other domain from its last change (Table 15.1). -/
def State.idleFrom (s : State) (d : Nat) : Nat := if 17 ≤ d ∧ d ≤ 48 then (s.domain d).idleSince else s.clock.now

/-- A Commons port whose domain goes OFF is OFF, its logic reset (R370, 11 R276). -/
def State.portRests (s : State) (d : Nat) (t : DomState) : State :=
  if 85 ≤ d ∧ d ≤ 102 ∧ t = .off then
    match assocGet (d - 85) s.commons.ports with
    | some q =>
      let off : Port := { census := q.census, known := q.known, since := s.clock.now, ctrs := q.ctrs }
      { s with commons := { s.commons with ports := assocSet (d - 85) off s.commons.ports } }
    | none => s
  else s

/-- Issue one change of the ladder at the present cycle (R371, R372). An entry whose condition no longer holds is
dropped. -/
def State.issueChange (s : State) (d : Nat) (t : DomState) : State :=
  let now := s.clock.now
  if t = .run then
    let off := (s.domain d).state == .off
    let s1 := s.setDomain d { s.domain d with wakeDue := some (now + if off then 1000 else 50) }
    { s1 with hearth := { s1.hearth with nextIssue := now + ladderSpacing off } }
  else if s.mayRest d t then
    let s1 := (s.setDomain d { state := t, idleSince := s.idleFrom d }).portRests d t
    { s1 with hearth := { s1.hearth with nextIssue := now + ladderSpacing (t == .off) } }
  else s

/-- WAKE_ISSUE: the ladder issues its first waiting change (R372). -/
def execWakeIssue (s : State) : Out :=
  match s.hearth.changes with
  | [] => stutter s
  | c :: rest =>
    let s1 := s.at_ s.hearth.nextIssue
    .next ({ s1 with hearth := { s1.hearth with changes := rest } }.issueChange c.2.1 c.2.2)

/-- DOMAIN_WOKEN: a woken domain is in RUN (R371). -/
def execDomainWoken (d : Nat) (s : State) : Out :=
  if 106 ≤ d then .fault .noSuchUnit
  else match (s.domain d).wakeDue with
    | none => stutter s
    | some t =>
      let s1 := s.at_ t
      .next (s1.setDomain d { state := .run, idleSince := s1.clock.now })

/-! ### Limits (R375, R380) -/

/-- Capacity of the burst store in µJ (R380). -/
def Hearth.capacity (h : Hearth) : Nat := (h.burst - h.sustained) * 10000

/-- POWER_LIMIT_SET (R375, R380, R386). -/
def execPowerLimitSet (mb : Mb) (s : State) : Out :=
  mbRun s mb 0x0070 fun s c =>
    let sw := operand c.desc 0 2
    let bw := operand c.desc 2 2
    let floors := (s.pens.map fun q => q.2.cfg.energyFloor).sum
    unlessBad s [(16, decide (sw < 600) || decide (1400 < sw) || decide ((sw - 400) * 1000 < floors)),
        (18, decide (bw < sw) || decide (1650 < bw))] <|
      let h := { s.hearth with sustained := sw, burst := bw, limitsApplied := true }
      let h1 := { h with store := if s.hearth.limitsApplied then min h.store h.capacity else h.capacity }
      .now ({ s with hearth := h1 }.raise 0 0x0905 sw bw) rOk

/-- OVERRUN_WINDOW: the end of a window of 2^20 cycles (R381). -/
def execOverrunWindow (s : State) : Out :=
  let due := s.clock.overrunWindow + 2 ^ 20
  let s1 := s.at_ due
  let s2 := { s1 with clock := { s1.clock with overrunWindow := due } }
  let h := s2.hearth
  -- in twenty-fifths of a µJ
  let limit := h.sustained * 2 ^ 20 + 25 * h.windowBurst
  let excess := (25 * h.windowEnergy - limit) / 25
  let s3 := { s2 with hearth := { h with windowEnergy := 0, windowBurst := 0, owed := h.owed + excess } }
  if limit < 25 * h.windowEnergy then .next (s3.raise 0 0x0904 excess s3.hearth.owed) else .next s3

/-! ### Floors and grants (R377, R378) -/

/-- n(p, f): the pen's latency-critical sessions eligible at the flock's latest snapshot. -/
def Hearth.eligibleCount (h : Hearth) (f p : Nat) : Nat :=
  (assocGet p ((assocGet f h.counts).getD [])).getD 0

/-- The enabled flocks. -/
def State.enabledFlocks (s : State) : List Nat := (s.flocks.filter fun f => f.2.params.enable).map (·.1)

/-- N(p). -/
def State.eligibleTotal (s : State) (p : Nat) : Nat :=
  (s.enabledFlocks.map fun f => s.hearth.eligibleCount f p).sum

/-- F(p, X) in µJ (R377). -/
def State.penFloor (s : State) (p x period : Nat) : Nat :=
  let n := s.hearth.eligibleCount x p
  if n = 0 then 0
  else ((s.pen? p).map (·.cfg.energyFloor)).getD 0 * period * s.hearth.derate * n
    / (25000 * 320 * s.eligibleTotal p)

/-- The sum of ENERGY_FLOOR over pens with n(p, f) > 0 in any enabled flock, in mW. -/
def State.floorPower (s : State) : Nat :=
  ((s.pens.filter fun q => s.enabledFlocks.any fun f => decide (0 < s.hearth.eligibleCount f q.1)).map fun q =>
    q.2.cfg.energyFloor).sum

/-- A sum of fractions. -/
def addFrac (a b : Nat × Nat) : Nat × Nat := (a.1 * b.2 + b.1 * a.2, a.2 * b.2)

/-- The lesser of two fractions. -/
def minFrac (a b : Nat × Nat) : Nat × Nat := if a.1 * b.2 ≤ b.1 * a.2 then a else b

/-- The key of the service plan among the grants. -/
def serviceKey : Nat := 8

/-- The best-effort energy of R378 before OWED and burst, in µJ, as a fraction. Powers are in 1/320 mW. -/
def State.bestEffort (s : State) (key period weight : Nat) : Nat × Nat :=
  let h := s.hearth
  let head := h.sustained * 1000 * h.derate - 400 * 1000 * 320 - s.floorPower * h.derate
  let others := h.grants.filter fun g => g.1 != key
  let weights := weight + (others.map fun g => g.2.2.2.2).sum
    + (if key = serviceKey ∨ others.any (fun g => g.1 == serviceKey) then 0 else 512)
  let used := others.foldl (fun a g => addFrac a ((g.2.1 - g.2.2.1) * 25000 * 320, g.2.2.2.1)) (0, 1)
  let rest := (head * used.2 - used.1, used.2)
  let p := minFrac (weight * head, weights) rest
  (p.1 * period, p.2 * 25000 * 320)

/-- hearth_grant of R378: `request` and `guaranteed` in µJ; the grant, and the state after it. -/
def State.grant (s : State) (key period weight request guaranteed : Nat) : Nat × State :=
  let put (g : Nat) (h : Hearth) : State :=
    { s with hearth := { h with grants := assocSet key (g, guaranteed, period, weight) h.grants } }
  let h := s.hearth
  if h.truncated then
    let g := if key = serviceKey then guaranteed else 0
    (g, put g h)
  else
    let be := s.bestEffort key period weight
    let paid := min h.owed (be.1 / be.2)
    let be1 := (be.1 - paid * be.2, be.2)
    let want := request - guaranteed
    let extra := if be1.1 < want * be1.2 && h.derate == 320 then
        min (min ((want * be1.2 - be1.1) / be1.2) ((h.burst - h.sustained) * period / 25)) h.store
      else 0
    let g := guaranteed + min want ((be1.1 + extra * be1.2) / be1.2)
    (g, put g { h with owed := h.owed - paid, store := h.store - extra, windowBurst := h.windowBurst + extra })

/-- The domains that plans name, where they run and no plan is in force any more, are idle from now (Table 15.1). -/
def State.idleDomains (s : State) : State :=
  if s.planInForce then s
  else
    let rest (d : Nat × Domain) : Nat × Domain :=
      if planDomains.contains d.1 && d.2.state == .run then (d.1, { d.2 with idleSince := s.clock.now }) else d
    { s with hearth := { s.hearth with domains := s.hearth.domains.map rest } }

/-- The grant of a plan ends. -/
def State.dropGrant (s : State) (key : Nat) : State :=
  ({ s with hearth := { s.hearth with grants := assocDel key s.hearth.grants } }).idleDomains

/-! ### Price correction (R381) -/

/-- A flock's price multiplier in units of 2^−16. -/
def Hearth.multiplier (h : Hearth) (f : Nat) : Nat := (assocGet f h.multipliers).getD 65536

/-- A price under a flock's multiplier. -/
def State.priced (s : State) (f p : Nat) : Nat := p * s.hearth.multiplier f / 65536

/-- The multiplier after a plan of price `price` that metered `metered` (R381): raised above 17/16 of the price, let down by a
plan within its price, kept between the two. -/
def correctedMultiplier (m price metered : Nat) : Nat :=
  if price * 17 < metered * 16 ∧ 0 < price then m * metered / price
  else if metered ≤ price then m - (m - 65536) / 16
  else m

/-- A plan's metered energy is compared with its price (R381). -/
def State.correctPrice (s : State) (f price : Nat) : State :=
  let (n, s1) := s.draw
  { s1 with hearth := { s1.hearth with
      multipliers := assocSet f (correctedMultiplier (s.hearth.multiplier f) price (Config.metered n))
        s1.hearth.multipliers } }

/-! ### Sensors (R382, R385) -/

/-- The class of a sensor (Table 15.4): 0 junction, 1 HBM stack, 2 optical engine. -/
def sensorClass (i : Nat) : Nat := if i < 64 then 0 else if i < 76 then 1 else 2

/-- The quadrant of a sensor (R382). -/
def sensorQuadrant (i : Nat) : Nat :=
  if i < 32 then i / 8 else if i < 64 then (i - 32) / 8 else if i < 76 then (i - 64) / 3 else i - 76

/-- Derate, truncate, clear and shutdown thresholds of a sensor in degrees (Table 15.4). -/
def sensorLimits (i : Nat) : Nat × Nat × Nat × Nat :=
  match sensorClass i with
  | 0 => (100, 110, 105, 120)
  | 1 => (85, 95, 90, 105)
  | _ => (70, 80, 75, 90)

/-- A threshold in sixteenths of a degree. -/
def sixteenths (t : Nat) : Int := 16 * (t : Int)

/-- A sensor. -/
def Hearth.sensor (h : Hearth) (i : Nat) : Sensor := (assocGet i h.sensors).getD {}

/-- A sensor after one sampling (R385): none when it did not update. -/
def Sensor.sample (x : Sensor) (r : Option Int) : Sensor :=
  if x.failed then x
  else match r with
    | none => { x with stale := x.stale + 1, failed := decide (4 ≤ x.stale + 1) }
    | some t => if t < -640 ∨ 2400 < t then { x with failed := true } else { x with reading := t, stale := 0 }

/-- The reading of sensor `i`, substituted when it has failed (R385). -/
def Hearth.reading (h : Hearth) (i : Nat) : Int :=
  let x := h.sensor i
  if x.failed then
    let peers := (List.range 80).filter fun j =>
      sensorClass j == sensorClass i && sensorQuadrant j == sensorQuadrant i && !(h.sensor j).failed
    match peers.map fun j => (h.sensor j).reading with
    | [] => sixteenths ((sensorLimits i).1 + 5)
    | r :: rs => rs.foldl max r + 80
  else x.reading

/-- The term of sensor `i` in the derate factor, in 1/320 (R382). -/
def derateTerm (i : Nat) (t : Int) : Nat :=
  320 - (t - sixteenths (sensorLimits i).1).toNat

/-- The derate factor and the sensor whose term gives it, ties to the lower number (R382, R386). -/
def Hearth.derateNow (h : Hearth) : Nat × Nat :=
  (List.range 80).foldl (fun (m : Nat × Nat) i =>
    let d := derateTerm i (h.reading i)
    if d < m.1 then (d, i) else m) (320, 0)

/-- The sensor with the greatest excess over its truncate threshold, if any is at or above it (R386). -/
def Hearth.hottest (h : Hearth) : Option Nat :=
  ((List.range 80).foldl (fun (m : Option (Nat × Int)) i =>
    let e := h.reading i - sixteenths (sensorLimits i).2.1
    if e < 0 then m else match m with
      | none => some (i, e)
      | some (j, f) => if f < e then some (i, e) else some (j, f)) none).map (·.1)

/-- Every sensor reads below its clear threshold (R383). -/
def Hearth.allClear (h : Hearth) : Bool :=
  (List.range 80).all fun i => decide (h.reading i < sixteenths (sensorLimits i).2.2.1)

/-- A sensor reads at or above its shutdown threshold (R384). -/
def Hearth.shutdown (h : Hearth) : Bool :=
  (List.range 80).any fun i => decide (sixteenths (sensorLimits i).2.2.2 ≤ h.reading i)

/-- P1 of a temperature event: sensor and temperature (R386). -/
def sensorWord (i : Nat) (t : Int) : Nat := packNat [(8, i), (8, 0), (16, (t % 65536).toNat)]

/-- All sensors sampled, with SENSOR_FAILED for each that fails now (R385). -/
def State.sampleSensors (s : State) (samples : List (Option Int)) : State :=
  (List.range 80).foldl (fun t i =>
    let x := t.hearth.sensor i
    let y := x.sample ((samples.getD i none))
    let t1 := { t with hearth := { t.hearth with sensors := assocSet i y t.hearth.sensors } }
    if y.failed && !x.failed then t1.raise 0 0x0906 i 0 else t1) s

/-- The derate factor of a tick, and DERATE_CHANGED (R382, R386). -/
def State.setDerate (s : State) : State :=
  let (d, i) := s.hearth.derateNow
  let last := s.hearth.lastDerate
  let s1 := { s with hearth := { s.hearth with derate := d } }
  if decide (20 ≤ (d - last) + (last - d)) || (d == 320 && last != 320) then
    ({ s1 with hearth := { s1.hearth with lastDerate := d } }).raise 0 0x0901 (d * 65536 / 320)
      (sensorWord i (s.hearth.reading i))
  else s1

/-- The burst store refilled at a tick that metered `energy` µJ (R380). -/
def Hearth.refill (h : Hearth) (energy : Nat) : Hearth :=
  { h with store := min h.capacity (h.store + (h.sustained * h.derate * 16 - 125 * energy) / 125),
           windowEnergy := h.windowEnergy + energy }

end Sys2Proof.Machine
end

