-- ==== Sys2Proof/Machine/Flash.lean ====
section
/-!
DEFINITION. T2 as pages (06_tiers_and_drovers R132 to R136, 16_security R397): stripes and their parity, page runs and where
they go, which groups are open, garbage collection and the rewriting of a group that lost a channel.
-/
namespace Sys2Proof.Machine

/-! ### Stripes (R132) -/

/-- Bytes of a flash page. -/
def pageBytes : Nat := 4096

/-- Bytewise exclusive-or of two pages. -/
def xorPage (a b : List Byte) : List Byte := List.zipWith (· ^^^ ·) a b

/-- The parity page of a stripe: the exclusive-or of its data pages. -/
def parityPage (data : List (List Byte)) : List Byte := data.foldl xorPage (List.replicate pageBytes 0)

/-- A page rebuilt from the other data pages of its stripe and the parity page (R136). -/
def rebuiltPage (others : List (List Byte)) (parity : List Byte) : List Byte := others.foldl xorPage parity

/-- Data pages of a stripe over these channels: all but the parity page. -/
def stripeWidth (channels : List Nat) : Nat := channels.length - 1

/-- The stripe of a run's page `i`, and its place among the stripe's data pages. -/
def PageRun.placeOf (r : PageRun) (i : Nat) : Nat × Nat :=
  let w := max 1 (stripeWidth r.channels)
  (r.stripe + (r.place + i) / w, (r.place + i) % w)

/-- The channel of a stripe's parity page, which rotates stripe by stripe. -/
def parityChannel (channels : List Nat) (stripe : Nat) : Nat := channels.getD (stripe % max 1 channels.length) 0

/-- The channel of a run's page: the stripe's channels in order, the parity page's left out. -/
def PageRun.channelOf (r : PageRun) (i : Nat) : Nat :=
  let p := r.placeOf i
  ((r.channels.filter (· != parityChannel r.channels p.1)).getD p.2 0)

/-- Pages `first` to `first + n - 1` of a run are read: those on channels that have left the census are reconstructed from the rest
of their stripes, and counted (R136, 13 Table 13.13). -/
def State.readPages (s : State) (run first n : Nat) : State :=
  match s.t2.runs.find? fun r => r.id == run with
  | none => s
  | some r => s.bumpDev .pagesReconstructed
      (((List.range n).filter fun i => !s.recovery.channels.contains (r.channelOf (first + i))).length)

/-! ### Room (R133 to R135) -/

/-- Pages that a group holds of its data and padding: what parity, the translation tables and the Ledger area leave (Table
6.2: 119 in 120 of what is left after parity, DEDUCED). -/
def groupPages (g : Nat) : Nat := groupChannelBytes g * 16 * 15 / 16 * 119 / 120 / pageBytes

/-- Pages of a group that its runs hold, collected or not. -/
def T2Space.held (t : T2Space) (g : Nat) : Nat := ((t.runs.filter fun r => r.group == g).map (·.pages)).sum

/-- The groups open to a run of `n` pages (R135). -/
def State.openGroups (s : State) (n : Nat) : List Nat :=
  s.usableGroups.filter fun g => decide (s.t2.held g + n ≤ groupPages g)

/-- Pages of `n` bytes: a bale or a sheaf starts on its own page, and the end of its last page is padding (R134). -/
def pagesOf (n : Nat) : Nat := ceilDiv n pageBytes

/-! ### Writing (R132, 16 R397) -/

/-- A run of `n` pages goes to the head of a group's log; the translation tables record it under the next sequence, which is
their root's, and the ledger partner's copy follows it. -/
def State.writeRun (s : State) (g n : Nat) : State :=
  let chans := s.recovery.groupChannels g
  let w := max 1 (stripeWidth chans)
  let head := (assocGet g s.t2.heads).getD (0, 0)
  let seq := s.t2.root + 1
  let run : PageRun := { id := s.t2.nextRun, group := g, stripe := head.1, place := head.2, pages := n, channels := chans, seq := seq }
  let next := (head.1 + (head.2 + n) / w, (head.2 + n) % w)
  { s with t2 := { s.t2 with runs := s.t2.runs ++ [run], nextRun := s.t2.nextRun + 1, heads := assocSet g next s.t2.heads,
                             root := seq, rootMirror := if s.partner.node.isSome && !s.partner.fallback then seq else s.t2.rootMirror } }

/-- A run of `n` bytes is written to one of the groups open to it: its number, and the state; none where no group is open. -/
def State.newRun (s : State) (bytes : Nat) : Option (Nat × State) :=
  let n := pagesOf bytes
  match s.openGroups n with
  | [] => none
  | g :: gs =>
    let l := g :: gs
    some (s.t2.nextRun, s.writeRun (l.getD (Config.pickGroup s.t2.nextRun % l.length) g) n)

/-- LOCATION of a sheaf in a T2 run: the run's first page (R134). -/
def runLocation (run : Nat) : Nat := (Config.locator 2 run).toNat

/-- Page runs for parts of these sizes; none where no group is open to one of them (R135). -/
def State.newRuns (s : State) : List Nat → Option (List Nat × State)
  | [] => some ([], s)
  | n :: ns =>
    match s.newRun n with
    | none => none
    | some r => (r.2.newRuns ns).map fun q => (r.1 :: q.1, q.2)

/-- LOCATION of a sheaf in T1, by what numbers it (R47): its owner, ordinal and layer. -/
def t1Location (h : Handle) (ordinal layer : Nat) : Nat :=
  (Config.locator 1 (2 ^ 100 + (h.toNat * 1048576 + ordinal) * 1024 + layer)).toNat

/-- A session that comes to this device in tier `t`, its record, map and own sheaves placed there: in T2 a page run each; in T1
where no group is open (R134, R135). -/
def State.placeSession (s : State) (h : Handle) (t : Tier) (x : Session) : Session × State :=
  let own (f : Sheaf) : Bool := !f.shared && f.tier != .t3
  let size (f : Sheaf) : Nat := match s.layout? x.layout with | some l => sheafBytes l f | none => 0
  let home (f : Sheaf) : Sheaf :=
    if own f then { f with tier := .t1, run := 0, bale := false, node := s.ident.nodeNumber,
                           location := t1Location h f.ordinal f.layer } else f
  let inT1 := ({ x with tier := .t1, run := 0, map := x.map.map home }, s)
  match (if t = .t2 then s.newRuns ((256 + 64 * x.map.length) :: (x.map.filter own).map size) else none) with
  | none => inT1
  | some (run :: runs, s1) =>
    let place (f : Sheaf) : Sheaf :=
      let r := runs.getD ((x.map.filter own).findIdx fun g => g.layer == f.layer && g.ordinal == f.ordinal) 0
      if own f then { f with tier := .t2, run := r, bale := false, node := s.ident.nodeNumber, location := runLocation r } else f
    ({ x with tier := .t2, run := run, map := x.map.map place }, s1)
  | some ([], _) => inT1

/-- The byte offset of a sheaf in its run: in a bale (k mod 32) full sheaves after its first page (R134). -/
def Sheaf.runOffset (l : Layout) (f : Sheaf) : Nat := if f.bale then f.ordinal % 32 * sheafBytes l f else 0

/-- A sheaf in T2 is read (R136). -/
def State.readRun (s : State) (l : Layout) (f : Sheaf) : State :=
  if f.tier != .t2 then s
  else
    let a := f.runOffset l
    s.readPages f.run (a / pageBytes) (ceilDiv (a + sheafBytes l f) pageBytes - a / pageBytes)

/-! ### Flash management (R135, R136) -/

/-- Something is stored in a run: an owned sheaf in T2, or a session's record and map; or a move writes it. -/
def State.runLive (s : State) (id : Nat) : Bool :=
  s.sessions.any fun x => (x.2.tier == .t2 && x.2.run == id)
    || x.2.map.any (fun f => f.owner == x.1 && !f.shared && f.tier == .t2 && f.run == id)
    || s.moves.any fun m => m.runs.contains id

/-- Garbage collection: runs with nothing stored in them give their pages back (R135). -/
def State.collect (s : State) : State := { s with t2 := { s.t2 with runs := s.t2.runs.filter fun r => s.runLive r.id } }

/-- The first run of a group whose stripes lie over a channel that has left. -/
def State.staleRun (s : State) (g : Nat) : Option PageRun :=
  s.t2.runs.find? fun r => r.group == g && r.channels != s.recovery.groupChannels g

/-- One step of the rewriting of a group that lost a channel (R136): its first stale run goes, under its own number, to the
head of the log over the channels that remain; with none left, the rewrite is complete. -/
def State.rewriteGroup (s : State) (g : Nat) : State :=
  if !s.usableGroups.contains g || !s.recovery.lostChannels.any (fun c => c / 16 == g) then s
  else match s.staleRun g with
    | none => { s with recovery := { s.recovery with lostChannels := s.recovery.lostChannels.filter fun c => c / 16 != g } }
    | some r =>
      let s1 := (s.readPages r.id 0 r.pages).writeRun g r.pages
      let move (q : PageRun) : PageRun := if q.id = s.t2.nextRun then { q with id := r.id } else q
      { s1 with t2 := { s1.t2 with runs := (s1.t2.runs.filter fun q => q.id != r.id).map move, nextRun := s.t2.nextRun } }

/-- Flash management of a service step. -/
def State.manageFlash (s : State) : State := (List.range 8).foldl State.rewriteGroup s.collect

/-- The runs that a second lost channel of a group takes: those whose stripes lay over both (R136). -/
def State.lostRuns (s : State) (g : Nat) (channels : List Nat) : List Nat :=
  (s.t2.runs.filter fun r => r.group == g && decide (2 ≤ (channels.filter fun c => r.channels.contains c).length)).map (·.id)

/-- A sheaf that lies in one of these runs. -/
def Sheaf.inRuns (ids : List Nat) (f : Sheaf) : Bool := f.tier == .t2 && ids.contains f.run

end Sys2Proof.Machine
end

