-- ==== Sys2Proof/Machine/Float.lean ====
section
/-!
DEFINITION. IEEE 754 binary32 arithmetic on bit patterns, as 07_split_attention R174 fixes it: rounding to nearest, ties
to even; subnormals kept; exp, tanh and square root correctly rounded. Every operation is exact on integers and rounds
once.
-/
namespace Sys2Proof.Machine

/-- What a binary32 pattern stands for: a finite value is `mant × 2^(exp − 149)`. -/
inductive FVal where
  | nan
  | inf (neg : Bool)
  | fin (neg : Bool) (mant exp : Nat)
  deriving DecidableEq, Repr

/-- The quiet NaN of R175. -/
def f32Nan : F32 := 0x7FC00000

/-- Infinity and zero with a sign. -/
def f32Inf (neg : Bool) : F32 := if neg then 0xFF800000 else 0x7F800000
def f32Zero (neg : Bool) : F32 := if neg then 0x80000000 else 0

/-- The value of a pattern. -/
def f32Val (x : F32) : FVal :=
  let n := x.toNat
  let neg := bitOf n 31
  let e := bitsOf n 23 8
  let m := bitsOf n 0 23
  if e = 255 then (if m = 0 then .inf neg else .nan)
  else if e = 0 then .fin neg m 0
  else .fin neg (2 ^ 23 + m) (e - 1)

def f32IsNan (x : F32) : Bool := match f32Val x with | .nan => true | _ => false
def f32IsFinite (x : F32) : Bool := match f32Val x with | .fin .. => true | _ => false

/-- The quotient rounded to nearest, ties to even. -/
def divRne (num den : Nat) : Nat :=
  let q := num / den
  let r := num % den
  if den < 2 * r then q + 1 else if 2 * r = den then q + q % 2 else q

/-- floor(log2(num / den)) + `off`, for positive num and den, with `off` above every |exponent| that arises. -/
def log2Ratio (off num den : Nat) : Nat :=
  let a := off + num.log2 - den.log2
  -- num / den lies in [2^(a−off−1), 2^(a−off+1))
  if off ≤ a then (if den * 2 ^ (a - off) ≤ num then a else a - 1)
  else (if den ≤ num * 2 ^ (off - a) then a else a - 1)

/-- The positive rational num/den rounded to nearest even in a binary format of `mbits` mantissa bits whose least normal
exponent is `1 − bias`: its code without the sign, unbounded above. -/
def roundCode (mbits bias num den : Nat) : Nat :=
  if num = 0 then 0
  else
    let off := 4096
    let e := max (log2Ratio off num den) (off + 1 - bias)
    -- ulp exponent e − mbits (offset `off`)
    let u := e - mbits
    let q := if u ≤ off then divRne (num * 2 ^ (off - u)) den else divRne num (den * 2 ^ (u - off))
    (e + bias - (off + 1)) * 2 ^ mbits + q

/-- The rational ±num/den rounded to binary32; overflow gives infinity. -/
def f32Round (neg : Bool) (num den : Nat) : F32 :=
  let c := roundCode 23 127 num den
  if 0x7F800000 ≤ c then f32Inf neg else BitVec.ofNat 32 ((if neg then 2 ^ 31 else 0) + c)

/-- Negation: the sign bit flipped. -/
def f32Neg (x : F32) : F32 := x ^^^ 0x80000000

/-- A finite value as an integer count of 2^−149. -/
def f32Int (neg : Bool) (m e : Nat) : Int := let v : Int := (m * 2 ^ e : Nat); if neg then -v else v

/-- Addition. -/
def f32Add (a b : F32) : F32 :=
  match f32Val a, f32Val b with
  | .nan, _ | _, .nan => f32Nan
  | .inf s, .inf t => if s = t then f32Inf s else f32Nan
  | .inf s, _ => f32Inf s
  | _, .inf t => f32Inf t
  | .fin s m e, .fin t n g =>
    let v := f32Int s m e + f32Int t n g
    if v = 0 then f32Zero (s && t) else f32Round (decide (v < 0)) v.natAbs (2 ^ 149)

/-- Subtraction. -/
def f32Sub (a b : F32) : F32 := f32Add a (f32Neg b)

/-- Multiplication. -/
def f32Mul (a b : F32) : F32 :=
  match f32Val a, f32Val b with
  | .nan, _ | _, .nan => f32Nan
  | .inf s, .inf t => f32Inf (s != t)
  | .inf s, .fin t n _ => if n = 0 then f32Nan else f32Inf (s != t)
  | .fin s m _, .inf t => if m = 0 then f32Nan else f32Inf (s != t)
  | .fin s m e, .fin t n g =>
    if m = 0 ∨ n = 0 then f32Zero (s != t) else f32Round (s != t) (m * n * 2 ^ (e + g)) (2 ^ 298)

/-- Division. -/
def f32Div (a b : F32) : F32 :=
  match f32Val a, f32Val b with
  | .nan, _ | _, .nan => f32Nan
  | .inf _, .inf _ => f32Nan
  | .inf s, .fin t _ _ => f32Inf (s != t)
  | .fin s _ _, .inf t => f32Zero (s != t)
  | .fin s m e, .fin t n g =>
    if n = 0 then (if m = 0 then f32Nan else f32Inf (s != t))
    else if m = 0 then f32Zero (s != t)
    else f32Round (s != t) (m * 2 ^ e) (n * 2 ^ g)

/-- The integer square root of `n < 4^k`, rounded down. -/
def isqrt : Nat → Nat → Nat → Nat
  | 0, _, r => r
  | k + 1, n, r => if (r + 2 ^ k) * (r + 2 ^ k) ≤ n then isqrt k n (r + 2 ^ k) else isqrt k n r

/-- The square root, correctly rounded. -/
def f32Sqrt (a : F32) : F32 :=
  match f32Val a with
  | .nan => f32Nan
  | .inf s => if s then f32Nan else f32Inf false
  | .fin s m e =>
    if m = 0 then a
    else if s then f32Nan
    else
      -- a = m·2^(e+1) / 2^150; √a = √(m·2^(e+1)) / 2^75, taken with 40 further bits and a sticky bit
      let n := m * 2 ^ (e + 1 + 80)
      let r := isqrt 182 n 0
      f32Round false (2 * r + (if r * r = n then 0 else 1)) (2 ^ (75 + 40 + 1))

/-- Bounds of e^t for t = tn/2^p in [0, 1), as multiples of 2^−p: `k` terms of the series are left. -/
def expSeries (p tn : Nat) : Nat → Nat → Nat → Nat → Nat × Nat
  | 0, n, _, sum => (sum, sum + n + 4)
  | k + 1, n, term, sum =>
    let t := term * tn / (2 ^ p * n)
    if t = 0 then (sum, sum + n + 4) else expSeries p tn k (n + 1) t (sum + t)

/-- Bounds squared `k` times. -/
def squareBounds (p : Nat) : Nat → Nat × Nat → Nat × Nat
  | 0, b => b
  | k + 1, (l, u) => squareBounds p k (l * l / 2 ^ p, u * u / 2 ^ p + 1)

/-- Bounds of e^(num/2^q), for 0 ≤ num/2^q < 256 and q ≤ p − 8, as multiples of 2^−p. -/
def expBounds (p num q : Nat) : Nat × Nat :=
  squareBounds p 8 (expSeries p (num * 2 ^ (p - 8 - q)) p 1 (2 ^ p) (2 ^ p))

/-- The bounds round alike, or the working precision doubles, at most `k` times. -/
def roundBounds (neg : Bool) (f : Nat → (Nat × Nat) × (Nat × Nat)) : Nat → Nat → F32
  | 0, p => f32Round neg (f p).1.1 (f p).1.2
  | k + 1, p =>
    let lo := f32Round neg (f p).1.1 (f p).1.2
    let hi := f32Round neg (f p).2.1 (f p).2.2
    if lo = hi then lo else roundBounds neg f k (2 * p)

/-- exp, correctly rounded (R174). -/
def f32Exp (x : F32) : F32 :=
  match f32Val x with
  | .nan => f32Nan
  | .inf s => if s then 0 else f32Inf false
  | .fin s m e =>
    let v := m * 2 ^ e
    if v < 2 ^ 123 then 0x3F800000            -- |x| < 2^−26
    else if 104 * 2 ^ 149 < v then (if s then 0 else f32Inf false)
    else
      let f (p : Nat) : (Nat × Nat) × (Nat × Nat) :=
        let b := expBounds p v 149
        if s then ((2 ^ p, b.2), (2 ^ p, b.1)) else ((b.1, 2 ^ p), (b.2, 2 ^ p))
      roundBounds false f 4 384

/-- tanh, correctly rounded (R174). -/
def f32Tanh (x : F32) : F32 :=
  match f32Val x with
  | .nan => f32Nan
  | .inf s => if s then 0xBF800000 else 0x3F800000
  | .fin s m e =>
    let v := m * 2 ^ e
    if v < 2 ^ 136 then x                      -- |x| < 2^−13
    else if 10 * 2 ^ 149 ≤ v then (if s then 0xBF800000 else 0x3F800000)
    else
      let f (p : Nat) : (Nat × Nat) × (Nat × Nat) :=
        let b := expBounds p (2 * v) 149
        ((b.1 - 2 ^ p, b.1 + 2 ^ p), (b.2 - 2 ^ p, b.2 + 2 ^ p))
      roundBounds s f 4 384

/-! ### Order -/

/-- The place of a pattern that is not NaN in the order of the reals; both zeros take one place. -/
def f32Key (x : F32) : Int := let n : Int := (bitsOf x.toNat 0 31 : Nat); if bitOf x.toNat 31 then -n else n

/-- a < b, false where either is NaN. -/
def f32Lt (a b : F32) : Bool := !f32IsNan a && !f32IsNan b && decide (f32Key a < f32Key b)

/-- The larger of two values that are not NaN; +0 stands above −0. -/
def f32Max (a b : F32) : F32 :=
  if f32Key a < f32Key b || (a == 0x80000000 && b == 0) then b else a

/-! ### BF16 -/

/-- A BF16 pattern as FP32, exact. -/
def bf16ToF32 (n : Nat) : F32 := BitVec.ofNat 32 (n * 65536)

/-- A finite FP32 value rounded to BF16, ties to even, as FP32. -/
def f32ToBf16 (x : F32) : F32 :=
  if f32IsNan x then x else bf16ToF32 (divRne x.toNat 65536)

/-- A non-negative integer below 2^24 as FP32. -/
def f32OfNat (n : Nat) : F32 := f32Round false n 1

/-! ### Sums -/

/-- Adjacent pairs added. -/
def addPairs : List F32 → List F32
  | a :: b :: l => f32Add a b :: addPairs l
  | l => l

/-- `k` levels of pairwise addition. -/
def pairLevels : Nat → List F32 → List F32
  | 0, l => l
  | k + 1, l => pairLevels k (addPairs l)

/-- The least k with n ≤ 2^k. -/
def log2Up (n : Nat) : Nat := if n ≤ 1 then 0 else (n - 1).log2 + 1

/-- The canonical sum (R174): padded with +0 to a power of two, then added in adjacent pairs, level by level. -/
def canonicalSum (l : List F32) : F32 :=
  let k := log2Up l.length
  (pairLevels k (l ++ List.replicate (2 ^ k - l.length) 0)).headD 0

/-- The canonical sum of products (R174). -/
def dot (a b : List F32) : F32 := canonicalSum (List.zipWith f32Mul a b)

end Sys2Proof.Machine
end

