-- ==== Sys2Proof/Machine/Formats.lean ====
section
/-!
DEFINITION. Storage formats (02 Table 2.9, R59), decoding and transcoding (06_tiers_and_drovers R145), and position
records (02 R46).
-/
namespace Sys2Proof.Machine

/-- Exponent bits, mantissa bits, bias, and code of the largest finite magnitude of a small float format. -/
def miniFormat : Nat → Nat × Nat × Nat × Nat
  | 0x1 | 0x3 => (4, 3, 7, 0x7E)
  | 0x2 | 0x4 => (5, 2, 15, 0x7B)
  | 0x5 => (3, 2, 3, 0x1F)
  | 0x6 => (2, 3, 1, 0x1F)
  | _ => (2, 1, 1, 7)

/-- Whether a format is one of the MX formats. -/
def isMx (format : Nat) : Bool := decide (3 ≤ format) && decide (format ≤ 7)

/-- ± the largest finite FP32 value. -/
def f32Max32 (neg : Bool) : F32 := if neg then 0xFF7FFFFF else 0x7F7FFFFF

/-- Decode a small float with an E8M0 scale code (127 stands for 1), exactly; above the FP32 range it saturates. -/
def decodeMini (format scale c : Nat) : F32 :=
  let f := miniFormat format
  let e := bitsOf c f.2.1 f.1
  let m := bitsOf c 0 f.2.1
  let neg := bitOf c (f.1 + f.2.1)
  if scale = 255 then f32Nan
  else if (format = 1 ∨ format = 3) ∧ bitsOf c 0 7 = 0x7F then f32Nan
  else if (format = 2 ∨ format = 4) ∧ e = 31 then (if m = 0 then f32Inf neg else f32Nan)
  else
    let mant := if e = 0 then m else 2 ^ f.2.1 + m
    let x := f32Round neg (mant * 2 ^ (max e 1 + scale)) (2 ^ (f.2.2.1 + f.2.1 + 127))
    if mant = 0 then f32Zero neg else if f32IsFinite x then x else f32Max32 neg

/-- Decode an FP16 pattern, exactly. -/
def decodeF16 (c : Nat) : F32 :=
  let e := bitsOf c 10 5
  let m := bitsOf c 0 10
  let neg := bitOf c 15
  if e = 31 then (if m = 0 then f32Inf neg else f32Nan)
  else
    let mant := if e = 0 then m else 1024 + m
    if mant = 0 then f32Zero neg else f32Round neg (mant * 2 ^ max e 1) (2 ^ 25)

/-- A two's-complement integer of `w` bits as FP32. -/
def decodeInt (w c : Nat) : F32 :=
  let neg := bitOf c (w - 1)
  if neg then f32Round true (2 ^ w - c) 1 else if c = 0 then 0 else f32Round false c 1

/-- Bits of one element (Table 2.9). -/
def elemBits (format : Nat) : Nat := (formatSize format).1

/-- `n` stored elements, with their scale bytes after them, decoded exactly to FP32 (R59, R145). -/
def decodeElems (format n : Nat) (bs : List Byte) : List F32 :=
  let w := elemBits format
  let v := bytesToNat (bs.take (n * w / 8))
  let scales := bs.drop (n * w / 8)
  (List.range n).map fun i =>
    let c := bitsOf v (w * i) w
    match format with
    | 0 => bf16ToF32 c
    | 8 | 9 => f32Mul (decodeInt w c) (decodeF16 (bytesAt scales (2 * (i / 32)) 2))
    | _ => decodeMini format (if isMx format then bytesAt scales (i / 32) 1 else 127) c

/-- A magnitude in units of 2^−149. -/
def f32Mag (x : F32) : Nat := match f32Val x with | .fin _ m e => m * 2 ^ e | _ => 0

/-- One finite value encoded in a small float format under a scale code, ties to even, saturated (R145). -/
def encodeMini (format scale : Nat) (x : F32) : Nat :=
  let f := miniFormat format
  min f.2.2.2 (roundCode f.2.1 f.2.2.1 (f32Mag x * 2 ^ 127) (2 ^ (149 + scale)))
    + (if bitOf x.toNat 31 then 2 ^ (f.1 + f.2.1) else 0)

/-- emax of OCP MX v1.0: the largest exponent of an element format. -/
def emaxOf : Nat → Nat
  | 3 => 8 | 4 => 15 | 5 => 4 | _ => 2

/-- One block of values as its scale code and element codes (R145). -/
def encodeBlock (format : Nat) (vs : List F32) : Nat × List Nat :=
  let amax := (vs.map f32Mag).foldl max 0
  if vs.any fun v => !f32IsFinite v then
    (255, (List.range vs.length).map fun i => Config.nanBlock i % 2 ^ elemBits format)
  else if amax = 0 then (0, vs.map fun _ => 0)
  else
    -- floor(log2(amax)) − emax + 127, held to the codes of E8M0
    let scale := min 254 (amax.log2 + 127 - (149 + emaxOf format))
    (scale, vs.map (encodeMini format scale))

/-- One value for FP8_E4M3 and FP8_E5M2 (R145). -/
def encodeFp8 (format : Nat) (x : F32) : Nat :=
  let sign := if bitOf x.toNat 31 then 128 else 0
  match f32Val x with
  | .nan => sign + 0x7F
  | .inf _ => sign + (miniFormat format).2.2.2
  | .fin .. => encodeMini format 127 x

/-- Values cut into blocks of 32. -/
def blocks32 : Nat → List F32 → List (List F32)
  | 0, _ => []
  | k + 1, l => if l.isEmpty then [] else l.take 32 :: blocks32 k (l.drop 32)

/-- Element codes of `w` bits packed from bit 0 up. -/
def packCodes (w : Nat) (cs : List Nat) : List Byte := packBytes (cs.length * w / 8) (cs.map fun c => (w, c))

/-- Values encoded in a format, scale bytes after the elements (R145). INT8_S32 and INT4_S32 are never a target. -/
def encodeElems (format : Nat) (vs : List F32) : List Byte :=
  if format = 0 then packCodes 16 (vs.map fun v => (f32ToBf16 v).toNat / 65536)
  else if format = 1 ∨ format = 2 then packCodes 8 (vs.map (encodeFp8 format))
  else if isMx format then
    let bl := (blocks32 vs.length vs).map (encodeBlock format)
    packCodes (elemBits format) (bl.flatMap (·.2)) ++ bl.map fun b => BitVec.ofNat 8 b.1
  else []

/-- Elements of a position record (R46). -/
def Layout.recordElems (l : Layout) : Nat :=
  if l.latent then l.latentWidth + l.ropeWidth else 2 * l.kvHeads * l.headWidth

/-- A position record transcoded from one format to another (R145): bit for bit when they are equal. -/
def transcodeRecord (l : Layout) (src dst : Nat) (bs : List Byte) : List Byte :=
  if src = dst then bs else encodeElems dst (decodeElems src l.recordElems bs)

/-- The position records of a payload. -/
def recordsOf (l : Layout) (format count : Nat) (payload : List Byte) : List (List Byte) :=
  let n := l.recordBytes format
  (List.range count).map fun i => (payload.drop (i * n)).take n

/-- A sheaf's positions, decoded. -/
def Sheaf.positions (f : Sheaf) (l : Layout) : List (List F32) :=
  (recordsOf l f.format f.count f.payload).map (decodeElems f.format l.recordElems)

/-- The key and the value of KV head `g` in a decoded position record (R46, R181). -/
def Layout.keyOf (l : Layout) (g : Nat) (r : List F32) : List F32 :=
  if l.latent then r else (r.drop (g * l.headWidth)).take l.headWidth
def Layout.valueOf (l : Layout) (g : Nat) (r : List F32) : List F32 :=
  if l.latent then r.take l.latentWidth else (r.drop ((l.kvHeads + g) * l.headWidth)).take l.headWidth

/-- The target format of a fidelity mode, if a sheaf in `format` is transcoded when it enters the tier (R144). -/
def transcodeTarget (mode format : Nat) : Option Nat :=
  let t := match mode with
    | 1 => some (if format = 2 ∨ format = 4 then 4 else 3)
    | 2 => some 6
    | 3 => some 7
    | _ => none
  t.bind fun t => if (formatSize t).1 < (formatSize format).1 then some t else none

end Sys2Proof.Machine
end

