-- ==== Sys2Proof/Machine/Placement.lean ====
section
/-!
DEFINITION. Placement (06_tiers_and_drovers R137, R140, R141, R150, R156, R157): queueing moves, what demotion chooses, and
what an allocation that a quota refuses meets.
-/
namespace Sys2Proof.Machine

/-! ### The composition map -/

/-- A bit of a map record (Table 11.10). -/
def MapRec.bit (r : MapRec) (i : Nat) : Bool := bitOf (bytesToNat r.raw) i

/-- Pools where this node may place T3 data, in the map's order (R137, R301). -/
def State.pools (s : State) : List Nat :=
  (s.commons.map.filter fun r => r.kind == 1 && r.bit 4 && !r.bit 7).map (·.node.toNat)

/-- Pools being withdrawn (R301). -/
def State.leavingPools (s : State) : List Nat :=
  (s.commons.map.filter fun r => r.kind == 1 && r.bit 7).map (·.node.toNat)

/-- The map in force names a node (01 R30). -/
def State.mapNames (s : State) (n : Nat) : Bool := s.commons.map.any fun r => r.node.toNat == n

/-! ### Subjects of moves -/

/-- MOVING of every session: a handoff or a move of its data is open (R44). -/
def State.setMoving (s : State) : State :=
  { s with sessions := s.sessions.map fun x =>
      (x.1, { x.2 with moving := x.2.handover.isSome || s.moves.any fun m => m.subject.owner == x.1 }) }

/-- The sheaves that a subject names, at their owner; of a session, its open tails. -/
def State.subjectSheaves (s : State) (q : MoveSubject) : List Sheaf :=
  let own (p : Sheaf → Bool) : List Sheaf := match s.sess? q.owner with
    | some x => x.map.filter fun f => f.owner == q.owner && !f.shared && p f
    | none => []
  match q with
  | .sheaf _ l o => own fun f => f.layer == l && f.ordinal == o
  | .bale _ l o => own fun f => f.layer == l && decide (o ≤ f.ordinal) && decide (f.ordinal < o + 32)
  | .session _ => own fun f => !f.isSealed

/-- The subject names the sheaf. -/
def MoveSubject.names (q : MoveSubject) (h : Handle) (layer ordinal : Nat) : Bool :=
  match q with
  | .sheaf g l o => g == h && l == layer && o == ordinal
  | .bale g l o => g == h && l == layer && decide (o ≤ ordinal) && decide (ordinal < o + 32)
  | .session _ => false

/-- Two subjects share a sheaf, or a session's record. -/
def MoveSubject.meets (q r : MoveSubject) : Bool :=
  match q, r with
  | .session g, .session h => g == h
  | .sheaf h l o, _ => r.names h l o
  | .bale h l o, .sheaf .. => (match r with | .sheaf g k n => g == h && k == l && decide (o ≤ n) && decide (n < o + 32) | _ => false)
  | .bale h l o, .bale g k n => g == h && k == l && o == n
  | _, _ => false

/-- The open move of a subject, or of a part of it. -/
def State.openMove? (s : State) (q : MoveSubject) : Option Move := s.moves.find? fun m => m.subject.meets q

/-- Change a move. -/
def State.modMove (s : State) (id : Nat) (g : Move → Move) : State :=
  { s with moves := s.moves.map fun m => if m.id = id then g m else m }

/-- Queue a move; at most one is open for a subject (R150). -/
def State.queueMove (s : State) (q : MoveSubject) (src dst : Tier) (forPlan : Option Nat) : State :=
  if (s.openMove? q).isSome then s
  else
    let m : Move := { id := s.nextMove, subject := q, src := src, dst := dst, dstNode := 0, forPlan := forPlan }
    { s with moves := s.moves ++ [m], nextMove := s.nextMove + 1 }.setMoving

/-- Bytes a subject frees in the tier it leaves. -/
def State.subjectBytes (s : State) (q : MoveSubject) : Nat :=
  match (s.sess? q.owner), (s.sess? q.owner).bind fun x => s.layout? x.layout with
  | some x, some l =>
    ((s.subjectSheaves q).map (sheafBytes l)).sum + match q with | .session _ => 256 + 64 * x.map.length | _ => 0
  | _, _ => 0

/-- The format a sheaf takes on entering a tier (R144). -/
def State.entryFormat (s : State) (p : Nat) (dst : Tier) (format : Nat) : Option Nat :=
  match s.pen? p with
  | none => none
  | some q =>
    match dst with
    | .t1 => none
    | .t2 => transcodeTarget (bitsOf q.cfg.fidelity 0 2) format
    | .t3 => transcodeTarget (bitsOf q.cfg.fidelity 2 2) format

/-! ### Demotion (R156, R157) -/

/-- Where a demotion out of a tier goes, by the pen's quotas (Table 6.4): none where nothing lower is open to it. -/
def State.demoteTo (s : State) (p : Nat) (t : Tier) (isSession : Bool) : Option Tier :=
  let t3 := if !isSession && decide (0 < s.quota p .t3) && !s.pools.isEmpty then some Tier.t3 else none
  match t with
  | .t1 => if 0 < s.quota p .t2 then some .t2 else t3
  | .t2 => t3
  | .t3 => none

/-- The subject is a session's record, map and tails. -/
def MoveSubject.isSession (q : MoveSubject) : Bool := match q with | .session _ => true | _ => false

/-- The group of R157 that a parked or closed session falls in. -/
def demoteGroup (x : Session) : Option Nat :=
  match x.state, x.parkCause with
  | .parked, some .toolCall | .parked, some .prefixDone => some 2
  | .parked, _ | .closed, _ => some 1
  | .runnable, _ | .running, _ => some 3
  | _, _ => none

/-- A prefix session is chosen only when no child holds a reference (R157). -/
def prefixMayMove (x : Session) (h : Handle) : Bool :=
  !x.isPrefix || x.map.all fun f => f.owner != h || f.shared || f.refcount == 1

/-- The sealed sheaves of a session that may leave a tier, lowest layer first, then lowest ordinal (R153). -/
def State.sealedIn (s : State) (h : Handle) (x : Session) (t : Tier) : List Sheaf :=
  sortBy (fun a b => decide (a.layer < b.layer) || (a.layer == b.layer && decide (a.ordinal ≤ b.ordinal)))
    (x.map.filter fun f => f.owner == h && !f.shared && f.isSealed && f.tier == t && !f.missing
      && !(t == .t1 && s.pinnedSheaf f))

/-- The subjects of a whole session's settling out of a tier, in the order of R153. -/
def State.sessionSubjects (s : State) (h : Handle) (x : Session) (t : Tier) : List MoveSubject :=
  (s.sealedIn h x t).map (fun f => .sheaf h f.layer f.ordinal)
    ++ (if t = .t1 && x.tier = .t1 && !x.pinned then [.session h] else [])

/-- Sessions charged to a pen by LAST_STEP, ties to the lower handle (R157). -/
def State.byLastStep (s : State) (p : Nat) : List (Handle × Session) :=
  sortBy (fun x y => decide (x.2.lastStep < y.2.lastStep)
    || (x.2.lastStep == y.2.lastStep && decide (x.1.toNat ≤ y.1.toNat)))
    (s.sessions.filter fun x => chargedPen x == p)

/-- Victims of a pen in a tier, in the order of R157. -/
def State.victims (s : State) (p : Nat) (t : Tier) : List MoveSubject :=
  let xs := (s.byLastStep p).filter fun x => prefixMayMove x.2 x.1
  let whole (g : Nat) := (xs.filter fun x => demoteGroup x.2 == some g).flatMap fun x => s.sessionSubjects x.1 x.2 t
  let third := (xs.filter fun x => demoteGroup x.2 == some 3).flatMap fun x =>
    let fs := s.sealedIn x.1 x.2 t
    (sortBy (fun a b => decide (a.ordinal ≤ b.ordinal)) fs).map fun f => MoveSubject.sheaf x.1 f.layer f.ordinal
  (whole 1 ++ whole 2 ++ third).filter fun q => (s.openMove? q).isNone

/-- The leading subjects, each with its destination, that cover `need` bytes. -/
def State.chooseOut (s : State) (p : Nat) (t : Tier) : List MoveSubject → Nat → List (MoveSubject × Tier)
  | [], _ => []
  | q :: qs, need =>
    if need = 0 then []
    else match s.demoteTo p t q.isSession with
      | none => s.chooseOut p t qs need
      | some d => (q, d) :: s.chooseOut p t qs (need - s.subjectBytes q)

/-- A sheaf's FORMAT in T2. -/
def State.formatInT2 (s : State) (f : Sheaf) : Nat := (s.entryFormat (s.penOf f.owner) .t2 f.format).getD f.format

/-- The 32 sheaves from ordinal `b` of a layer, all among those chosen for T2, form a bale (R134). -/
def State.isBale (s : State) (chosen : List (MoveSubject × Tier)) (h : Handle) (layer b : Nat) : Bool :=
  match s.subjectSheaves (.bale h layer b) with
  | [] => false
  | f :: fs => fs.length == 31 && (f :: fs).all fun g => g.isSealed && g.count == 128 && !g.missing
      && s.formatInT2 g == s.formatInT2 f && chosen.contains (.sheaf h layer g.ordinal, .t2)

/-- Subjects as they move: the sheaves of a bale go to T2 by one move (R134). -/
def State.inBales (s : State) (chosen : List (MoveSubject × Tier)) : List (MoveSubject × Tier) :=
  chosen.filterMap fun q => match q with
    | (.sheaf h l o, .t2) =>
      if s.isBale chosen h l (o / 32 * 32) then (if o % 32 = 0 then some (.bale h l o, .t2) else none) else some q
    | _ => some q

/-- Queue chosen subjects out of a tier. -/
def State.queueChosen (s : State) (t : Tier) (chosen : List (MoveSubject × Tier)) : State :=
  (s.inBales chosen).foldl (fun u q => u.queueMove q.1 t q.2 none) s

/-- Bytes that the open moves out of a tier will free. -/
def State.leaving (s : State) (p : Nat) (t : Tier) : Nat :=
  ((s.moves.filter fun m => s.movePen m.subject == p && m.src == t && m.dst != t).map fun m =>
    if m.state = .freeing then m.srcCharge else s.subjectBytes m.subject).sum

/-- Demotion in one tier by its watermarks (R156). -/
def State.demoteTier (s : State) (p : Nat) (t : Tier) : State :=
  let q := s.quota p t
  let use := s.used p t
  if q * 15 < use * 16 then
    s.queueChosen t (s.chooseOut p t (s.victims p t) (use - s.leaving p t - q * 7 / 8))
  else s

/-- The watermarks of both tiers of a pen. -/
def State.demote (s : State) (p : Nat) : State := (s.demoteTier p .t1).demoteTier p .t2

/-- The watermarks of every pen. -/
def State.demoteAll (s : State) : State := s.pens.foldl (fun t q => t.demote q.1) s

/-- Queue a demotion of at least `n` bytes out of T1 for an outcome of Table 6.4. -/
def State.demoteFor (s : State) (p n : Nat) : State :=
  s.queueChosen .t1 (s.chooseOut p .t1 (s.victims p .t1) (s.used p .t1 + n - s.leaving p .t1 - s.quota p .t1))

/-! ### Allocations at a quota limit (R140) -/

/-- Whether the pen has demotable data in T1 (R140); the record and map of an OPEN session stay in T1 (02 R38). -/
def State.demotable (s : State) (p : Nat) : Bool :=
  s.sessions.any fun x => chargedPen x == p && ((x.2.tier == .t1 && !x.2.pinned && x.2.state != .opened) || x.2.map.any fun f =>
    f.owner == x.1 && !f.shared && f.tier == .t1 && !s.pinnedSheaf f)

/-- The refusal of an allocation of `n` bytes of T1, by Table 6.4, counting it (R140): where something can make room, its
demotion is queued. -/
def refuseT1 (s : State) (p n : Nat) : Option (State × Reply) :=
  if n = 0 || decide (s.used p .t1 + n ≤ s.quota p .t1) then none
  else if s.demotable p then some (retryLater ((s.demoteFor p n).bumpPen p .retryRefusals 1))
  else some (s.bumpPen p .quotaRefusals 1, rStatus .quota)

/-- The refusal of a command that would leave the Ledger region of `h` as it is in `t` (R140, 12 R306). -/
def refuseGrowth (s t : State) (p : Nat) (h : Handle) : Option (State × Reply) :=
  match s.sess? h, t.sess? h with
  | some x, some y => refuseT1 s p (y.region.bytes - x.region.bytes)
  | _, _ => none

end Sys2Proof.Machine
end

