-- ==== Sys2Proof/Machine/Text.lean ====
section
/-!
DEFINITION. The Weaver's text side as functions on data (09_weaver_text): token spaces and controls, the tokenizer, token
appends, the automaton and the allowed set, and the encoding of output.
-/
namespace Sys2Proof.Machine

/-! ### Token spaces (R215 to R217) -/

/-- The id that stands for control 0x200 + k in a layout's token space, if it exists. -/
def Layout.control? (l : Layout) (k : Nat) : Option Nat :=
  if l.vocab then (if 64 ≤ l.vocabSize + k then some (l.vocabSize + k - 64) else none) else some (0x200 + k)

/-- The control k that an id stands for, if it is a control-range id. -/
def Layout.asControl (l : Layout) (id : Nat) : Option Nat :=
  if l.vocab then
    (if l.vocabSize ≤ id + 64 ∧ id < l.vocabSize then some (id + 64 - l.vocabSize) else none)
  else if 0x200 ≤ id ∧ id ≤ 0x23F then some (id - 0x200) else none

/-- An id is reserved: 0x240 to 0x2FF of the byte space (R215). -/
def Layout.isReserved (l : Layout) (id : Nat) : Bool := !l.vocab && decide (0x240 ≤ id)

/-- An id belongs to the token space and may be journalled (R215). -/
def Layout.hasId (l : Layout) (id : Nat) : Bool := decide (id < l.vocabSize) && !l.isReserved id

/-- Controls of Table 9.3, by k. -/
def kTurnBegin : Nat := 0
def kTurnEnd : Nat := 1
def kThinkOpen : Nat := 2
def kThinkClose : Nat := 3
def kToolCallOpen : Nat := 4
def kToolCallClose : Nat := 5
def kToolResultOpen : Nat := 6
def kToolResultClose : Nat := 7
def kEndOfSession : Nat := 8
def kDeadEnd : Nat := 9

/-- Whether control k may be sampled now (Table 9.3). -/
def controlSampled (k : Nat) (inThink inToolCall : Bool) : Bool :=
  match k with
  | 0 | 6 | 7 | 9 => false
  | 2 => !inThink
  | 3 => inThink
  | 4 => !inToolCall
  | 5 => inToolCall
  | _ => true

/-- IN_THINK and IN_TOOL_CALL after a journalled id (R216, R226). -/
def flagsAfter (l : Layout) (f : Bool × Bool) (id : Nat) : Bool × Bool :=
  match l.asControl id with
  | some 1 | some 8 | some 9 => (false, false)
  | some 2 => (true, f.2)
  | some 3 => (false, f.2)
  | some 4 => (f.1, true)
  | some 5 => (f.1, false)
  | _ => f

/-- The park cause of a control accepted from the sampler (Table 9.3). -/
def parkOf (l : Layout) (id : Nat) : Option ParkCause :=
  match l.asControl id with
  | some 1 => some .turnEnd
  | some 5 => some .toolCall
  | some 8 => some .endOfSession
  | some 9 => some .deadEnd
  | _ => none

/-! ### Segments (R218) -/

/-- The mode in force of a SEGMENT byte: 1 INTERPRET, 2 PASS, 3 ESCAPE (Table 9.4). -/
def segmentMode (seg : Nat) : Nat :=
  if bitsOf seg 2 2 = 0 then (if bitsOf seg 0 2 = 0 then 1 else 3) else bitsOf seg 2 2

/-- The controls of a class's frame: opening and closing (Table 9.4). -/
def frameControls (seg : Nat) : Nat × Nat := if bitsOf seg 0 2 = 1 then (kTurnBegin, kTurnEnd)
  else (kToolResultOpen, kToolResultClose)

/-- SEGMENT is not allowed for the session's token space (R218). -/
def segmentBad (l : Layout) (seg : Nat) : Bool :=
  bitsOf seg 0 2 == 3 || (bitsOf seg 2 2 == 1 && bitsOf seg 0 2 != 0) || bitsOf seg 5 3 != 0
    || (bitOf seg 4 && (bitsOf seg 0 2 == 0 || (l.control? (frameControls seg).1).isNone
      || (l.control? (frameControls seg).2).isNone))

/-- AUTHOR of an operand (R219). -/
def authorOf : Nat → Option Author
  | 0 => some .model | 1 => some .user | 2 => some .tool | 3 => some .system | _ => none

/-! ### The tokenizer (R222, R223) -/

/-- Bytes a well-formed sequence that begins with `b` takes (RFC 3629); 0 when none begins so. -/
def utf8Need (b : Nat) : Nat :=
  if b < 0x80 then 1 else if b < 0xC2 then 0 else if b < 0xE0 then 2 else if b < 0xF0 then 3
  else if b < 0xF5 then 4 else 0

/-- Whether `b` may follow the sequence so far as its next byte. -/
def utf8Continues (seq : List Nat) (b : Nat) : Bool :=
  match seq with
  | [] => decide (utf8Need b ≠ 0)
  | [l] =>
    let lo := if l = 0xE0 then 0xA0 else if l = 0xF0 then 0x90 else 0x80
    let hi := if l = 0xED then 0x9F else if l = 0xF4 then 0x8F else 0xBF
    decide (lo ≤ b) && decide (b ≤ hi)
  | _ => decide (0x80 ≤ b) && decide (b ≤ 0xBF)

/-- The counters the tokenizer adds to. -/
structure TextCounts where
  loose : Nat := 0
  replacements : Nat := 0
  escaped : Nat := 0
  introBad : Nat := 0
  deriving DecidableEq, Repr

/-- The tokenizer's state: sequence in progress, pending introducer, tokens staged by this append. -/
structure Tokenizer where
  seq : List Nat := []
  intro : Bool := false
  staged : List Nat := []
  counts : TextCounts := {}
  deriving DecidableEq, Repr

/-- An ill-formed subpart under the UTF-8 policy (R223). -/
def Tokenizer.illFormed (t : Tokenizer) (replace : Bool) (sub : List Nat) : Tokenizer :=
  if sub.isEmpty then t
  else if replace then
    { t with seq := [], staged := t.staged ++ [0xEF, 0xBF, 0xBD],
             counts := { t.counts with replacements := t.counts.replacements + 1 } }
  else { t with seq := [], staged := t.staged ++ sub.map (0x100 + ·),
                counts := { t.counts with loose := t.counts.loose + sub.length } }

/-- One byte that is no introducer, into the UTF-8 decoder. -/
def Tokenizer.decodeByte (t : Tokenizer) (replace : Bool) (b : Nat) : Tokenizer :=
  let t1 := if t.seq.isEmpty || utf8Continues t.seq b then t else t.illFormed replace t.seq
  if utf8Continues t1.seq b then
    let seq := t1.seq ++ [b]
    if seq.length = utf8Need (seq.headD 0) then { t1 with seq := [], staged := t1.staged ++ seq }
    else { t1 with seq := seq }
  else t1.illFormed replace [b]

/-- One byte that follows no pending introducer (R222). -/
def Tokenizer.plainByte (t : Tokenizer) (mode : Nat) (replace : Bool) (b : Nat) : Tokenizer :=
  if b = 0x10 then
    let t1 := if t.seq.isEmpty then t else t.illFormed replace t.seq
    if mode = 1 then { t1 with intro := true }
    else if mode = 2 then { t1 with staged := t1.staged ++ [0x10] }
    else { t1 with staged := t1.staged ++ [0x110],
                   counts := { t1.counts with escaped := t1.counts.escaped + 1 } }
  else t.decodeByte replace b

/-- One byte of input (R222). -/
def Tokenizer.byte (mode : Nat) (replace : Bool) (t : Tokenizer) (b : Byte) : Tokenizer :=
  let n := b.toNat
  if t.intro then
    let t1 := { t with intro := false }
    if 0x40 ≤ n && n ≤ 0x7F then { t1 with staged := t1.staged ++ [0x200 + (n - 0x40)] }
    else if n = 0x10 then { t1 with staged := t1.staged ++ [0x10] }
    else ({ t1 with staged := t1.staged ++ [0x110],
                    counts := { t1.counts with introBad := t1.counts.introBad + 1 } }).plainByte mode replace n
  else t.plainByte mode replace n

/-- What END adds: carried bytes, a pending introducer, the closing frame (R222). -/
def Tokenizer.flush (t : Tokenizer) (seg : Nat) (replace : Bool) : Tokenizer :=
  let t1 := t.illFormed replace t.seq
  let t2 := if t1.intro then { t1 with intro := false, staged := t1.staged ++ [0x110],
                                       counts := { t1.counts with introBad := t1.counts.introBad + 1 } } else t1
  if bitOf seg 4 then { t2 with staged := t2.staged ++ [0x200 + (frameControls seg).2] } else t2

/-- tokenize() of R222 for a byte layout: `opens` when this append opens the segment. -/
def tokenize (seg : Nat) (replace opens : Bool) (carry : List Byte) (introPending : Bool) (bytes : List Byte)
    (fin : Bool) : Tokenizer :=
  let t0 : Tokenizer := { intro := introPending,
                          staged := if opens && bitOf seg 4 then [0x200 + (frameControls seg).1] else [] }
  let t1 := (carry ++ bytes).foldl (Tokenizer.byte (segmentMode seg) replace) t0
  if fin then t1.flush seg replace else t1

/-! ### Token appends (R225) -/

/-- The ids APPEND_TOKENS journals, with what it substituted and dropped. -/
def translateIds (l : Layout) (seg substitute : Nat) (ids : List Nat) : List Nat × Nat × Nat :=
  let isCtl (i : Nat) : Bool := (l.asControl i).isSome
  let body :=
    if segmentMode seg = 1 then (ids, 0, 0)
    else
      let n := (ids.filter isCtl).length
      if l.vocab then
        (if isCtl substitute then (ids.filter fun i => !isCtl i, 0, n)
         else (ids.map fun i => if isCtl i then substitute else i, n, 0))
      else (ids.map fun i => if isCtl i then 0x110 else i, n, 0)
  let frame (k : Nat) : List Nat := if bitOf seg 4 then (l.control? k).toList else []
  (frame (frameControls seg).1 ++ body.1 ++ frame (frameControls seg).2, body.2)

/-! ### Constraints (R228, R229) -/

/-- The longest pattern of a set, so the history the suffix matches need. -/
def patternMax : Nat := 64

/-- `recent` (newest last) ends with `pat`. -/
def endsWith (recent pat : List Nat) : Bool := decide (recent.drop (recent.length - pat.length) = pat)

/-- advance(state, token) of R228. -/
def Automaton.advance (a : Automaton) (set : Option ConstraintSet) (fromModel : Bool) (id : Nat) : Automaton :=
  let recent := (a.recent ++ [id])
  let recent := recent.drop (recent.length - patternMax)
  let forced := if fromModel then a.forced.drop 1 else []
  match set with
  | none => { forced := [], recent := recent }
  | some c =>
    if forced.isEmpty then
      match c.forced.find? fun r => endsWith recent r.1 with
      | some r => { forced := r.2, recent := recent }
      | none => { forced := [], recent := recent }
    else { forced := forced, recent := recent }

/-- Whether the history followed by `id` ends with a banned sequence (R228). -/
def bannedNext (a : Automaton) (set : Option ConstraintSet) (id : Nat) : Bool :=
  match set with
  | none => false
  | some c => c.banned.any fun b => endsWith (a.recent ++ [id]) b

/-- Whether an id may be sampled: allowed(state, session) of R228. -/
def allowedId (l : Layout) (a : Automaton) (set : Option ConstraintSet) (flags : Bool × Bool) (id : Nat) : Bool :=
  l.hasId id && (match a.forced with | [] => true | f :: _ => id == f) && !bannedNext a set id
    && (match l.asControl id with | some k => controlSampled k flags.1 flags.2 | none => true)

/-- AUTOMATON_STATE that has absorbed a whole history (R228; 12 R317). -/
def replayAutomaton (set : Option ConstraintSet) (history : List (Nat × Bool × Bool)) : Automaton :=
  history.foldl (fun a t => a.advance set t.2.2 t.1) {}

/-- AUTOMATON_STATE rebuilt over the last 64 ids of the history, with no forced sequence at the start (R229). -/
def rebuildAutomaton (set : Option ConstraintSet) (history : List (Nat × Bool × Bool)) : Automaton :=
  (history.drop (history.length - 64)).foldl (fun a t => a.advance set t.2.2 t.1) {}

/-! ### Output (R237) -/

/-- The bytes of one output id. -/
def outputOf (l : Layout) (id : Nat) : List Byte :=
  if l.vocab then natToBytes 4 id
  else
    let lit (b : Nat) : List Byte := if b = 0x10 then [0x10, 0x10] else [BitVec.ofNat 8 b]
    if id < 0x100 then lit id
    else if id < 0x200 then lit (id - 0x100)
    else [0x10, BitVec.ofNat 8 (0x40 + (id - 0x200))]

end Sys2Proof.Machine
end

