-- ==== Sys2Proof/Machine/CommonsOps.lean ====
section
/-!
DEFINITION. Sending on the Commons (11_commons_fabric R277, R281, R285): packets, routes and outstanding requests; and
the CRC-32 of the stored structures (02 R35, 12 R306).
-/
namespace Sys2Proof.Machine

/-- One bit of the IEEE 802.3 CRC-32, reflected. -/
def crcBit (c : Nat) : Nat := if c % 2 = 1 then (c / 2) ^^^ 0xEDB88320 else c / 2

/-- One byte of the CRC. -/
def crcByte (c : Nat) (b : Byte) : Nat := (List.range 8).foldl (fun a _ => crcBit a) (c ^^^ b.toNat)

/-- CRC-32 with the IEEE 802.3 polynomial (R35). -/
def crc32 (bs : List Byte) : Nat := (bs.foldl crcByte 0xFFFFFFFF) ^^^ 0xFFFFFFFF

/-- The packet header of Table 11.3. -/
def packetHeader (op device dst src pen pseq srcInc dstInc len epoch pktId reqId : Nat) : BitVec 512 :=
  BitVec.ofNat 512 (packNat [(8, op), (1, device), (7, 0), (13, dst), (3, 0), (13, src), (3, 0), (10, pen), (6, 0),
    (48, pseq), (16, 0), (32, srcInc), (32, dstInc), (32, len), (32, 0), (64, epoch), (64, pktId), (64, reqId), (64, 0)])

/-- A field of a packet header. -/
def hdrField (h : BitVec 512) (lo w : Nat) : Nat := bitsOf h.toNat lo w

/-- A packet header with another value in a field. -/
def hdrSet (h : BitVec 512) (lo w v : Nat) : BitVec 512 :=
  BitVec.ofNat 512 (h.toNat - hdrField h lo w * 2 ^ lo + v % 2 ^ w * 2 ^ lo)

/-- Whether an operation is a memory request (Table 11.4). -/
def opMemory (op : Nat) : Bool := decide (1 ≤ op) && decide (op ≤ 4)

/-- A port with a number on the Commons. -/
def State.commonsPort? (s : State) (p : Nat) : Option Port := assocGet p s.commons.ports

/-- The ports of a node's route that are UP (R281). -/
def State.routePorts (s : State) (d : Nat) : List Nat :=
  ((assocGet d s.commons.routes).getD []).filter fun p =>
    match s.commonsPort? p with | some q => q.state == .up | none => false

/-- The stream of requests to a destination. -/
def State.outStream (s : State) (d : Nat) : OutStream := (assocGet d s.commons.outs).getD {}

/-- The list with element `i` changed. -/
def modAt {α : Type} (g : α → α) : Nat → List α → List α
  | _, [] => []
  | 0, x :: l => g x :: l
  | n + 1, x :: l => x :: modAt g n l

/-- The flits of a message or packet of `n` bytes wait on a virtual channel (R248, R255). -/
def Port.queueFlits (q : Port) (vc n : Nat) : Port :=
  { q with flits := { q.flits with waiting := modAt (· + max 1 (ceilDiv n 244)) vc q.flits.waiting } }

/-- The virtual channel of an operation (Table 11.4). -/
def opVc (op : Nat) : Nat := if opMemory op then 1 else if op = 0x80 then 2 else 3

/-- The wire size of a packet (R277). -/
def wireSize (n : Nat) : Nat := 64 + n + 16 * ceilDiv n 4096

/-- A Commons port holds credit on a virtual channel (R275, R281). -/
def State.holdsCredit (s : State) (vc p : Nat) : Bool :=
  match s.commonsPort? p with
  | some q => q.flits.totals.getD vc 0 % 65536 != q.flits.sent.getD vc 0 % 65536
  | none => false

/-- A port of `d`'s entry that is UP, if there is one (R281). -/
def State.nextRoute (s : State) (d : Nat) : Option Nat := (s.routePorts d).head?

/-- The ports of `d`'s entry in the order of their turns: list order, from the one behind the port taken last (R281). -/
def State.turnOrder (s : State) (d : Nat) : List Nat :=
  let l := (assocGet d s.commons.routes).getD []
  let n := tallyGet s.commons.roundRobin d % l.length
  l.drop n ++ l.take n

/-- The port that the next packet to `d` takes on channel `vc`: the first in turn that is UP and holds credit; where none
holds any, the first in turn that is UP, at which the packet waits for credit (R281). -/
def State.takeRoute (s : State) (d vc : Nat) : Option Nat :=
  let up := (s.turnOrder d).filter (s.routePorts d).contains
  (up.find? (s.holdsCredit vc)).or up.head?

/-- The place in `d`'s entry behind the port just taken (R281). -/
def State.turnAfter (s : State) (d p : Nat) : Nat := ((assocGet d s.commons.routes).getD []).idxOf p + 1

/-- Put a packet on the wire, on port `p` (R277, R281). -/
def State.sendPacket (s : State) (p : Nat) (h : BitVec 512) (body : List Byte) : State :=
  let d := hdrField h 16 13
  let s1 := s.emit (.packet h body)
  let c := s1.commons
  ({ s1 with commons := { c with roundRobin := assocSet d (s1.turnAfter d p) c.roundRobin,
                                 ports := assocMod p (fun q => q.queueFlits (opVc (hdrField h 0 8)) (wireSize body.length))
                                   c.ports } }).bumpDev .packetsTx 1

/-- Send a request to node `d` (R277, R281, R285). With the incarnation exhausted nothing is sent (R273). A request
without an UP port waits. -/
def State.request (s : State) (d op pen : Nat) (body : List Byte) (use : ReqUse) : State :=
  if s.commons.exhausted then s
  else
    let o := s.outStream d
    let pseq := if opMemory op then o.pseq + 1 else 0
    let dstInc := match o.incarnation with | some i => i.toNat | none => 0
    let id := s.commons.nextPkt
    let dev := match use with | .attend .. | .poolWrite _ | .poolAlloc _ | .poolRead .. | .poolFree .. => 0 | _ => 1
    let h := packetHeader op dev d s.node (if dev = 1 then 0 else pen) pseq s.commons.incarnation.toNat dstInc
      body.length s.commons.epoch id 0
    -- DST_INCARNATION 0 is accepted only with PSEQ 0 or 1 (R285): a later request waits until it is known
    let route := if decide (1 < pseq) && o.incarnation.isNone then none else s.takeRoute d (opVc op)
    let r : Request := { pktId := id, dest := BitVec.ofNat 13 d, pseq := pseq, header := h, body := body,
                         sent := s.clock.now, port := route, waiting := if route.isSome then none else some s.clock.now,
                         use := use }
    let s1 := { s with commons := { s.commons with
      nextPkt := id + 1, requests := s.commons.requests ++ [r],
      outs := assocSet d { o with pseq := if opMemory op then pseq else o.pseq } s.commons.outs } }
    match route with
    | some p => s1.sendPacket p h body
    | none => s1

/-- Send an outstanding request again, the identical packet (R278, R281, R286); with no port UP it waits. -/
def State.resendRequest (s : State) (r : Request) : State :=
  let put (s : State) (g : Request → Request) : State :=
    { s with commons := { s.commons with requests := s.commons.requests.map fun q => if q.pktId = r.pktId then g q else q } }
  let unknown := decide (1 < r.pseq) && hdrField r.header 160 32 == 0
  match if unknown then none else s.takeRoute r.dest.toNat (opVc (hdrField r.header 0 8)) with
  | some p => ((put s fun q => { q with port := some p, waiting := none, sent := s.clock.now }).sendPacket p r.header
      r.body).bumpDev .retransmits (if r.waiting.isSome then 0 else 1)
  | none => put s fun q => { q with port := none, waiting := some (q.waiting.getD s.clock.now) }

/-- A Commons port leaves UP: what was routed through it and is not answered goes out again at once (R281). -/
def State.leaveRoute (s : State) (p : Nat) : State :=
  (s.commons.requests.filter fun r => r.port == some p).foldl (fun t r => t.resendRequest r) s

/-- A Commons port is UP: requests that waited for a route go out (R281). -/
def State.joinRoute (s : State) : State :=
  (s.commons.requests.filter fun r => r.waiting.isSome).foldl (fun t r =>
    if (t.nextRoute r.dest.toNat).isSome then t.resendRequest r else t) s

/-- A request goes out as a new packet, with the present epoch and the incarnation now known, in its place in the
stream (R278, R285, R300). -/
def State.reissue (s : State) (r : Request) : State :=
  let inc := match (s.outStream r.dest.toNat).incarnation with | some i => i.toNat | none => 0
  let id := s.commons.nextPkt
  let h := hdrSet (hdrSet (hdrSet r.header 320 64 id) 256 64 s.commons.epoch) 160 32 inc
  let r1 := { r with pktId := id, header := h, sent := s.clock.now, retries := 0, busyUntil := none,
                     waiting := some (r.waiting.getD s.clock.now) }
  let c := s.commons
  ({ s with commons := { c with nextPkt := id + 1,
                                requests := c.requests.map (swap r1) } }).resendRequest r1
where
  /-- The new packet in the old one's place. -/
  swap (r1 q : Request) : Request := if q.pktId = r.pktId then r1 else q

/-- What a packet tells of its source's incarnation (R285): requests that waited for it go out. -/
def State.learn (s : State) (n : Nat) (inc : Nat) : State :=
  if (s.outStream n).incarnation.isSome then s
  else
    let o := { s.outStream n with incarnation := some (BitVec.ofNat 32 inc) }
    let s1 := { s with commons := { s.commons with outs := assocSet n o s.commons.outs } }
    (s1.commons.requests.filter fun r => r.dest.toNat == n && r.waiting.isSome && decide (1 < r.pseq)
      && hdrField r.header 160 32 == 0).foldl (fun t r => t.reissue r) s1

/-- Statuses of a response (Table 11.7) by code. -/
def rsOk : Nat := 0
def rsNotHomed : Nat := 1
def rsDenied : Nat := 2
def rsDataFault : Nat := 3
def rsBadParam : Nat := 4
def rsNotMapped : Nat := 5
def rsQuota : Nat := 6
def rsBusy : Nat := 7
def rsStale : Nat := 8
def rsEpochStale : Nat := 9
def rsConflict : Nat := 10
def rsPartnerActive : Nat := 11
def rsExists : Nat := 12
def rsNotFound : Nat := 13

/-- The highest PSEQ applied in unbroken order from a source (Table 11.6). -/
def State.appliedFrom (s : State) (n : Nat) : Nat := match assocGet n s.commons.ins with | some i => i.applied | none => 0

/-- Answer a request by its header (R277, Tables 11.3 and 11.6): nothing is sent without an UP port of the route, and
the source retransmits. -/
def State.respond (s : State) (req : BitVec 512) (status hint result : Nat) (payload : List Byte) : State :=
  let d := hdrField req 32 13
  let s1 := if status = rsDenied then s.bumpDev .deniedIn 1 else if status = rsEpochStale then s.bumpDev .epochStaleIn 1
    else if status = rsStale then s.bumpDev .staleIn 1 else s
  match s1.takeRoute d 2 with
  | none => s1
  | some p =>
    if s1.commons.exhausted then s1
    else
      let body := packBytes 32 [(8, status), (8, 0), (16, hint), (32, 0), (48, s1.appliedFrom d), (16, 0), (64, result),
        (64, 0)] ++ payload
      let dstInc := match (s1.outStream d).incarnation with | some i => i.toNat | none => 0
      let h := packetHeader 0x80 1 d s1.node 0 0 s1.commons.incarnation.toNat dstInc body.length s1.commons.epoch
        s1.commons.nextPkt (hdrField req 320 64)
      ({ s1 with commons := { s1.commons with nextPkt := s1.commons.nextPkt + 1 } }).sendPacket p h body

/-- The mirrored commit's partner, when commits use it: none in solo mode and during fallback (R26, R313). -/
def State.mirroredTo (s : State) : Option Nat :=
  if s.partner.fallback then none else s.partner.node.map (·.toNat)

/-- Handle and LOC_VERSION, as the home sends them in a registry operation (Table 11.8). -/
def State.registryBody (s : State) (h : Handle) : List Byte :=
  natToBytes 8 h.toNat ++ natToBytes 8 (match s.sess? h with | some x => x.homeVersion | none => 0)

/-- Send a changed registry entry to the mirror of a reciprocal partner (R290): the entry of Table 2.2 as bytes. -/
def RegEntry.bytes (e : RegEntry) : List Byte :=
  let b := packBytes 28 [(64, e.handle.toNat), (64, e.locVersion), (13, e.home.toNat), (3, 0), (13, e.offerNode.toNat),
    (1, bitNat e.offerValid), (2, 0), (2, bitNat e.flash), (2, 0), (3, lifeCode e.life), (1, bitNat e.moving),
    (1, bitNat e.isPrefix), (55, 0)]
  b ++ natToBytes 4 (crc32 b)

/-- A changed registry entry is owed to a partner that is not in force: one lost, or a new one (R313, R316). -/
def State.oweEntry (s : State) (h : Handle) : State :=
  if s.partner.fallback || s.partner.pending.isSome then
    { s with partner := { s.partner with owedEntries := s.partner.owedEntries ++ [h] } } else s

/-- Mirror the registry entry of `h` at the ledger partner, if there is one (R290, R313). -/
def State.mirrorEntry (s : State) (h : Handle) : State :=
  match s.entry? h, s.mirroredTo with
  | some e, some d => (s.oweEntry h).request d 0x28 0 e.bytes .mirror
  | some _, none => s.oweEntry h
  | none, _ => s

/-! ### Bodies of memory requests (11 Table 11.5) -/

/-- An ATOMIC body. -/
def atomicBody (aop off a b : Nat) (ident : List Byte) : List Byte :=
  packBytes 32 [(48, off), (16, 0), (8, aop), (56, 0), (64, a), (64, b)] ++ ident
    ++ List.replicate (32 - ident.length) 0

/-- A WRITE body. -/
def writeBody (off counter : Nat) (data : List Byte) : List Byte := natToBytes 6 off ++ natToBytes 2 counter ++ data

/-- A READ body. -/
def readBody (off len : Nat) : List Byte := packBytes 16 [(48, off), (16, 0), (32, len), (32, 0)]

/-- ALLOC and FREE of Table 11.5. -/
def aopAlloc : Nat := 4
def aopFree : Nat := 5

/-- Send the free of an extent of `n` bytes at a pool (R152, 11 R283). -/
def State.freeExtent (s : State) (p node off n : Nat) : State :=
  s.request node 3 p (atomicBody aopFree (4096 * off) 0 0 []) (.poolFree p node n)

/-- A move leaves the table; what it held at a pool's destination is freed (R147). -/
def State.removeMove (s : State) (m : Move) : State :=
  let s1 := { s with moves := s.moves.filter fun q => q.id != m.id }
  match m.dst, m.extent with
  | .t3, some off => s1.freeExtent (s.movePen m.subject) m.dstNode.toNat off m.charge
  | _, _ => s1

/-- The open offer of a session homed here has been withdrawn: the handoff is abandoned and the commands that waited
proceed (R292). -/
def State.offerWithdrawn (s : State) (h : Handle) : State :=
  match (s.sess? h).bind (·.handover) with
  | none => s
  | some hd =>
    let s1 := s.modSess h fun x => { x with handover := none, moving := s.moves.any fun m => m.subject.owner == h }
    { s1 with dispatched := hd.waiting ++ s1.dispatched }

/-! ### Registry operations of this device (Table 11.8) -/

/-- What an operation on an entry makes of it: the changed entry with RESULT, or the refusal. -/
def RegEntry.change (e : RegEntry) (op src now : Nat) (h : Handle) (body : List Byte) : Except Nat (RegEntry × Nat) :=
  let v := bytesAt body 8 8
  let home := e.home.toNat == src
  if e.handle != h then .error rsConflict
  else match op with
    | 0x21 => if e.life = .live && home && e.locVersion == v && !e.offerValid then
        .ok ({ e with offerNode := BitVec.ofNat 13 (bytesAt body 16 2), offerValid := true, moving := true, offerAt := now }, 0)
      else .error rsConflict
    | 0x22 => if e.offerValid && e.offerNode.toNat == src && e.locVersion == v && decide (now < e.offerAt + 2 ^ 26) then
        .ok ({ e with home := BitVec.ofNat 13 src, locVersion := v + 1, offerNode := 0, offerValid := false,
                      moving := false, flash := false }, v + 1)
      else .error rsConflict
    | 0x23 => if home && e.locVersion == v then .ok ({ e with offerNode := 0, offerValid := false, moving := false }, 0)
      else .error rsConflict
    | 0x24 =>
      let life := bytesAt body 16 1
      if home && e.locVersion == v && e.life = .live && life == lifeCode .regrow then .ok ({ e with life := .regrow }, 0)
      else if home && e.locVersion == v && e.life = .regrow && life == lifeCode .live then
        .ok ({ e with life := .live, locVersion := v + 1 }, v + 1)
      else .error rsConflict
    | 0x25 => if home && e.locVersion == v then
        .ok ({ e with life := .closed, offerNode := 0, offerValid := false, moving := false }, 0)
      else .error rsConflict
    | _ => .error rsBadParam

/-- The registry entry of `h` is changed here: this device answers for its slice (R297). -/
def State.regIsHere (s : State) (h : Handle) : Bool :=
  s.isSelf (handleNode h) && !(s.partner.deposed && handleNode h == s.node)

/-- A registry operation of a unit of this device goes to the registry node, or to the partner that answers for this
device's slice (R297). -/
def State.regAway (s : State) (h : Handle) (op : Nat) (body : List Byte) (use : ReqUse) : State :=
  let d := if s.partner.deposed && handleNode h == s.node then (match s.partner.node with | some d => d.toNat | none => 0)
    else handleNode h
  s.request d op 0 body use

/-- A registry operation of the home on an entry that is changed here (R290): the entry where the change is in force at
once; none where it waits for the partner, or for one that does, or is refused. -/
def State.regHere (s : State) (h : Handle) (op : Nat) (tail : List Byte) (use : ReqUse) : State × Option RegEntry :=
  match s.entry? h with
  | none => (s, none)
  | some e =>
    let body := natToBytes 8 h.toNat ++ natToBytes 8 e.locVersion ++ tail
    let q : RegPending := { id := s.commons.nextReg, handle := h, op := op, body := body, origin := .here use }
    let add (t : State) (q : RegPending) : State :=
      { t with commons := { t.commons with nextReg := t.commons.nextReg + 1, regPending := t.commons.regPending ++ [q] } }
    if s.commons.regPending.any fun p => p.handle == h then (add s q, none)
    else match e.change op (if s.isOwn e.home.toNat then e.home.toNat else s.node) s.clock.now h body with
      | .error _ => (s, none)
      | .ok (e1, _) =>
        match s.mirroredTo with
        | none => ((s.modEntry h fun _ => e1).oweEntry h, some e1)
        | some d => ((add s { q with change := some e1 }).request d 0x28 0 e1.bytes (.regMirror q.id), none)

/-- REG_WITHDRAW (Table 11.8, R292, R294): applied here, or sent to the registry node. -/
def State.withdrawOffer (s : State) (h : Handle) : State :=
  if s.regIsHere h then
    match s.entry? h with
    | some e =>
      if !s.isOwn e.home.toNat then s
      else if !e.offerValid then s.offerWithdrawn h
      else match s.regHere h 0x23 [] (.offer h) with
        | (s1, some _) => s1.offerWithdrawn h
        | (s1, none) => s1
    | none => s
  else s.regAway h 0x23 (s.registryBody h) (.offer h)

/-- A fork waits for the end of the handover, and asks for no withdraw (02 R44). -/
def RingCmd.isFork (c : RingCmd) : Bool := descOpcode c.desc == 0x0100 || descOpcode c.desc == 0x0101

/-- A command that would change a session whose offer is open waits for the withdraw that it makes the source send
(R292, R294). -/
def State.holdForOffer (s : State) (h : Handle) (c : RingCmd) : State :=
  match s.sess? h with
  | none => s
  | some x =>
    match x.handover with
    | none => s
    | some hd =>
      let s1 := s.modSess h fun x => { x with handover := some { hd with waiting := hd.waiting ++ [c] } }
      if hd.waiting.all (·.isFork) && !hd.committed then s1.withdrawOffer h else s1

/-- `ringRun` for a command that changes the session it names: while the session's offer is open it waits (R292). -/
def ringRunHome (s : State) (pen ring op : Nat) (body : State → RingCmd → RingDone) : Out :=
  ringRun s pen ring op fun s c =>
    match (s.sess? (descHandle c.desc)).bind (·.handover) with
    | some hd => if hd.offered then .later (s.holdForOffer (descHandle c.desc) c) else body s c
    | none => body s c

/-! ### Ledger records as bytes (R307) -/

/-- An id in 7-bit groups, lowest first (R307). -/
def idEncode : Nat → Nat → List Byte
  | 0, _ => []
  | n + 1, id => if id < 128 then [BitVec.ofNat 8 id] else BitVec.ofNat 8 (128 + id % 128) :: idEncode n (id / 128)

/-- Zeros that pad `n` bytes to a multiple of 8. -/
def padTo8 (n : Nat) : List Byte := List.replicate ((8 - n % 8) % 8) 0

/-- A record (Table 12.2) as bytes, with LAST. -/
def Rec.encode (r : Rec) (last : Bool) : List Byte :=
  let body := r.body ++ r.ids.flatMap (idEncode 5)
  let head := packBytes 28 [(64, r.step), (4, r.kind), (2, authorCode r.author), (1, bitNat r.sampled),
    (1, bitNat r.inherited), (1, bitNat r.deferred), (1, bitNat last), (6, 0), (28, r.firstPos.getD 0xFFFFFFF), (4, 0),
    (17, r.ids.length), (31, 0), (32, body.length), (16, 0), (1, bitNat r.isPrefix), (1, bitNat r.latencyCritical),
    (14, 0)]
  head ++ natToBytes 4 (crc32 (head ++ body)) ++ body ++ padTo8 body.length

/-- The records of one group as bytes: the last has LAST. -/
def encodeGroup : List Rec → List Byte
  | [] => []
  | [r] => r.encode true
  | r :: rs => r.encode false ++ encodeGroup rs

/-- The bytes of the groups of a region's committed records (R307): the last record of each LEDGER_STEP has LAST. -/
def encodeRecs : List Rec → List Byte
  | [] => []
  | [r] => r.encode true
  | r :: q :: rs => r.encode (r.step != q.step) ++ encodeRecs (q :: rs)

/-- A stream word (Table 12.1). -/
def Stream.word (t : Stream) : List (Nat × Nat) :=
  [(1, 1), (8, t.segment), (2, authorCode t.author), (2, t.carry.length), (1, bitNat t.introPending),
    (24, bytesToNat t.carry), (23, t.staged.length), (3, 0)]

/-- The staged ids of a region's streams, by author (R306). -/
def Region.stagedIds (r : Region) : List Nat := (List.range 4).flatMap fun k =>
  match assocGet k r.streams with | some t => t.staged | none => []

/-- The region header of Table 12.1. -/
def Region.header (r : Region) (h : Handle) (step : Nat) : List Byte :=
  let b := packBytes 252 ([(64, h.toNat), (64, step), (64, r.localStep), (28, r.outputPos), (36, 0),
    (64, (encodeRecs r.recs).length)] ++ (List.range 4).flatMap fun k =>
      match assocGet k r.streams with | some t => t.word | none => [(64, 0)])
  b ++ natToBytes 4 (crc32 b)

/-- What a group item of a RECORDS batch carries of the region where the header changes with the group (R308): the
region header (Table 12.1) and the staged ids it counts, behind the handle. Table 12.3 gives no form for it. -/
def Region.headerItem (r : Region) (h : Handle) (step : Nat) : List Byte :=
  natToBytes 8 h.toNat ++ r.header h step ++ r.stagedIds.flatMap (natToBytes 4)

/-- A group as an item of a RECORDS batch: its handle, then its records (R312). -/
def groupItem (h : Handle) (recs : List Rec) : List Byte := natToBytes 8 h.toNat ++ encodeGroup recs

/-- The LEDGER_MIRROR body header (Table 12.3). -/
def mirrorHeader (mop items seq : Nat) : List Byte := packBytes 16 [(4, mop), (12, 0), (16, items), (32, 0), (64, seq)]

/-- Send one group of session `h` to node `d` in a RECORDS batch (R312): its records, and the header that changes with it. -/
def State.sendRecords (s : State) (d : Nat) (h : Handle) (step : Nat) (recs : List Rec) (header : List (List Byte)) : State :=
  let seq := s.partner.mirrorSeq + 1
  let s1 := { s with partner := { s.partner with mirrorSeq := seq } }
  let items := (if recs.isEmpty then [] else [groupItem h recs]) ++ header
  s1.request d 0x30 0 (mirrorHeader 1 items.length seq ++ items.flatten) (.records seq [(h, step)])

end Sys2Proof.Machine
end

