-- ==== Sys2Proof/Machine/Journal.lean ====
section
/-!
DEFINITION. The Ledger's groups (12_ledger_and_harvest R306 to R310): forming a group, committing it, and what a commit
does to the session.
-/
namespace Sys2Proof.Machine

/-- Record kinds (Table 12.2). -/
def kTokens : Nat := 1
def kOpen : Nat := 2
def kConfig : Nat := 3
def kHostPark : Nat := 4
def kHostResume : Nat := 5
def kPlace : Nat := 6

/-- Token records of at most 65,536 ids each (R307). -/
def tokenRecs (author : Author) (sampled : Bool) : Nat → List Nat → List Rec
  | 0, _ => []
  | n + 1, ids =>
    if ids.isEmpty then []
    else { step := 0, kind := kTokens, author := author, sampled := sampled, ids := ids.take 65536 }
      :: tokenRecs author sampled n (ids.drop 65536)

/-- The records of a segment or of a step's tokens. -/
def tokensGroup (author : Author) (sampled : Bool) (ids : List Nat) : List Rec :=
  tokenRecs author sampled (ids.length / 65536 + 1) ids

/-- A change of OUTPUT_POS or of a stream is about to wait for its group: what is committed of them is kept. -/
def Region.keep (r : Region) : Region := { r with kept := r.kept.or (some (r.outputPos, r.streams)) }

/-- A region at its last committed group (13 R345, R348): what waits is discarded. -/
def Region.committed (r : Region) (step : Nat) : Region :=
  match r.kept with
  | none => { r with waiting := [], localStep := step }
  | some k => { r with waiting := [], localStep := step, outputPos := k.1, streams := k.2, kept := none }

/-- Form a group of session `h` (R308): written in the region, and sent to the partner in mirrored mode. A group with no
record is a header-only or staging commit and takes no LEDGER_STEP. -/
def State.formGroup (s : State) (h : Handle) (recs : List Rec) (eff : CommitEffect) : State :=
  match s.sess? h with
  | none => s
  | some x =>
    let step := x.region.localStep + (if recs.isEmpty then 0 else 1)
    let recs := recs.map fun r => if r.inherited then r else { r with step := step }
    let g : Group := { recs := recs, written := s.clock.now, id := s.nextTicket, effect := eff, after := (x.region.outputPos, x.region.streams),
                       batch := s.mirroredTo.map fun _ => s.partner.mirrorSeq + 1 }
    let s1 := { s with nextTicket := s.nextTicket + 1 }.modSess h fun x =>
      { x with region := { x.region with localStep := step, waiting := x.region.waiting ++ [g] } }
    match s1.mirroredTo with
    | none => s1
    | some d =>
      -- changes to the header ride with the group that causes them (R308)
      let before := match x.region.waiting.getLast? with | some w => w.after | none => x.region.kept.getD g.after
      s1.sendRecords d h step recs
        (if before = g.after then [] else [{ x.region with localStep := step }.headerItem h x.ledgerStep])

/-- A command that must see the groups formed before it takes its place behind them (02 R41). -/
def State.queueBehind (s : State) (h : Handle) (c : RingCmd) : State :=
  let g : Group := { recs := [], written := s.clock.now, id := s.nextTicket, held := true, effect := .command c }
  { s with nextTicket := s.nextTicket + 1 }.modSess h fun x =>
    { x with region := { x.region with waiting := x.region.waiting ++ [g] } }

/-- Tokens that count as held against the limit of R43: positioned, deferred and not yet committed. -/
def Region.heldTokens (r : Region) (positions : Nat) : Nat :=
  positions + ((r.recs.filter fun c => c.deferred && c.kind == kTokens
      && !r.recs.any fun p => p.kind == kPlace && bytesToNat p.body == c.step).map fun c => c.ids.length).sum
    + ((r.waiting.flatMap (·.recs)).filter (fun c => c.kind == kTokens && !c.inherited) |>.map fun c => c.ids.length).sum

/-- The deferred groups' steps that no PLACE has given positions, in LEDGER_STEP order (R309). -/
def Region.unplaced (r : Region) : List Nat :=
  ((r.recs.filter fun c => c.deferred && c.kind == kTokens
      && !r.recs.any fun p => p.kind == kPlace && bytesToNat p.body == c.step).map (·.step)).eraseDups

/-- A turn is in progress: input takes no positions at once (R309). -/
def Session.turnInProgress (x : Session) (l : Layout) : Bool :=
  x.state = .running
    || (x.state = .runnable && match x.region.hist.getLast? with
        | some (id, true, _) => (parkOf l id).isNone
        | _ => false)

/-- The constraint set a session runs under. -/
def State.setOf (s : State) (h : Handle) (x : Session) : Option ConstraintSet :=
  (s.pen? (handlePen h)).bind fun q => assocGet x.sampler.constraintSet q.constraints

/-- A journalled id on the session's flags and automaton (R226). -/
def Session.absorb (x : Session) (l : Layout) (set : Option ConstraintSet) (fromModel : Bool) (id : Nat) : Session :=
  let f := flagsAfter l (x.inThink, x.inToolCall) id
  { x with inThink := f.1, inToolCall := f.2, automaton := x.automaton.advance set fromModel id }

/-- Positions given to the ids of one record: history, flags, automaton and POSITIONS advance (R226, R309). -/
def Session.position (x : Session) (l : Layout) (set : Option ConstraintSet) (r : Rec) : Session :=
  let model := r.author == .model
  let x1 := r.ids.foldl (fun x id => x.absorb l set model id) x
  { x1 with positions := x.positions + r.ids.length,
            region := { x1.region with hist := x1.region.hist ++ r.ids.map fun i => (i, r.sampled, model) } }

/-- One record at its group's commit: TOKENS take positions or are DEFERRED, PLACE positions a deferred group. -/
def Session.commitRec (x : Session) (l : Layout) (set : Option ConstraintSet) (defer : Bool) (r : Rec) : Session :=
  let keep (x : Session) (r : Rec) : Session := { x with region := { x.region with recs := x.region.recs ++ [r] } }
  if r.inherited then keep x r
  else if r.kind = kTokens then
    if defer && !r.sampled then keep { x with inputPending := true } { r with deferred := true }
    else
      let x1 := keep (x.position l set r) { r with firstPos := some x.positions }
      if r.sampled then x1 else { x1 with inputPending := true, inputEnd := x1.positions }
  else if r.kind = kPlace then
    let ref := bytesToNat r.body
    let x1 := (x.region.recs.filter fun c => c.step == ref && c.deferred).foldl (fun x c => x.position l set c) x
    keep { x1 with inputEnd := x1.positions } { r with firstPos := some x.positions }
  else keep x r

/-- The state an append that journals leaves a session in (Table 2.5). -/
def Session.afterInput (x : Session) (cycle : Nat) : Session :=
  match x.state with
  | .opened | .parked => { x with state := .runnable, parkCause := none, readyCycle := cycle }
  | _ => x

/-- The state after a committed park or resume from the host (Table 2.5). -/
def Session.afterHost (x : Session) (park : Bool) (now : Nat) : Session :=
  if park then
    (if x.state = .runnable then { x with state := .parked, parkCause := some .host, parkedSince := now, flock := none,
                                          runLength := 0 }
     else if x.state = .faulted then { x with parkRecorded := true } else x)
  else if x.state = .parked then { x with state := .runnable, parkCause := none, readyCycle := now }
  else if x.state = .faulted then { x with parkRecorded := false }
  else x

/-- The record as the groups that wait for their commit will leave it: what the home has applied, in the order of receipt
(R41). -/
def Session.applied (x : Session) : Session :=
  x.region.waiting.foldl (fun x g => match g.effect with
    | .append .. => if g.recs.any fun r => r.kind == kTokens && !r.sampled then x.afterInput 0 else x
    | .host c => x.afterHost (descOpcode c.desc == 0x0103) 0
    | _ => x) x

/-- The step's tokens in history: how many were forced (Table 9.8), and the positions of TOOL_CALL_OPEN. -/
def tokenMarks (l : Layout) (set : Option ConstraintSet) : Nat → Automaton → List Nat → Nat × List Nat
  | _, _, [] => (0, [])
  | pos, a, id :: ids =>
    let r := tokenMarks l set (pos + 1) (a.advance set true id) ids
    (r.1 + (if a.forced.head? = some id then 1 else 0), if l.asControl id = some kToolCallOpen then pos :: r.2 else r.2)

/-- What the commit of a step's tokens counts and raises (R236), for the session as it was before. -/
def State.countSampled (s : State) (h : Handle) (l : Layout) (x : Session) (ids : List Nat) : State :=
  let p := handlePen h
  let m := tokenMarks l (s.setOf h x) x.positions x.automaton ids
  m.2.foldl (fun t q => t.raise p 0x0304 h.toNat q)
    ((s.bumpPen p .tokensSampled ids.length).bumpPen p .forcedTokens m.1)

/-- SESSION_PARKED (Table 14.3). -/
def State.raiseParked (s : State) (h : Handle) (c : ParkCause) : State :=
  s.raise (handlePen h) 0x0301 h.toNat (parkCode c)

/-- The session's committed groups and its header are in the own flash copy (R314). -/
def State.flashSession (s : State) (h : Handle) : State :=
  match s.sess? h with
  | none => s
  | some x =>
    let r := x.region.committed x.ledgerStep
    let f : FlashCopy := { recs := r.recs, outputPos := r.outputPos, streams := r.streams }
    ({ s with flash := assocSet h f s.flash }).modSess h fun x => { x with region := { x.region with flashed := x.ledgerStep } }

/-- Commit the first waiting group of session `h` (R308): LEDGER_STEP and POSITIONS advance, then its effects. -/
def State.commitGroup (s : State) (h : Handle) : State :=
  match s.sess? h with
  | none => s
  | some x =>
    match x.region.waiting, s.layout? x.layout with
    | g :: rest, some l =>
      let p := handlePen h
      let set := s.setOf h x
      let input := g.recs.any fun r => r.kind == kTokens && !r.sampled && !r.inherited
      let defer := input && x.turnInProgress l
      let x1 := g.recs.foldl (fun x r => x.commitRec l set defer r) 
        { x with region := { x.region with waiting := rest, kept := if rest.isEmpty then none
                                             else x.region.kept.map fun _ => g.after } }
      let x2 := match g.recs.getLast? with | some r => { x1 with ledgerStep := r.step } | none => x1
      let x3 := match g.effect with
        | .append c _ => if input then x2.afterInput c.admitted else x2
        | .host c => x2.afterHost (descOpcode c.desc == 0x0103) s.clock.now
        | _ => x2
      let ntok := (g.recs.filter fun r => !r.inherited).map (·.ids.length) |>.sum
      let s0 := s.modSess h fun _ => x3
      -- in solo mode and during fallback the flash copy is the second place (R26, R313)
      let s1 := if s.mirroredTo.isNone then s0.flashSession h else s0
      -- a header alone that the partner does not hold is owed with the session's last group (R313, R316)
      let s1 := if g.recs.isEmpty && (s.partner.fallback || s.partner.pending.isSome) then
          { s1 with partner := { s1.partner with owed := s1.partner.owed.map fun o =>
            if o.1 = h then (h, min o.2 (x.ledgerStep - 1)) else o } }
        else s1
      let s2 := if g.recs.isEmpty then s1
        else ((s1.bumpPen p .groups 1).bumpPen p .tokens ntok).maxPen p .commitWaitMax (s.clock.now - g.written)
      let s3 := if s.partner.fallback && !g.recs.isEmpty then s2.bumpPen p .soloGroups 1 else s2
      let s4 := if input then s3.bumpPen p .tokensIn ntok else s3
      let s5 := if defer then s4.bumpPen p .deferred 1 else s4
      match g.effect with
      | .append c res => s5.complete c { result := res }
      | .header c res det => s5.complete c { result := res, detail := det }
      | .opened c nh => s5.complete c { handle := some nh }
      | .host c =>
        let s6 := if x2.state = .runnable && x3.state = .parked then (s5.raiseParked h .host).endLeases h else s5
        s6.complete c rOk
      | .sampled => s5.countSampled h l x (g.recs.flatMap (·.ids))
      | .command _ => s5
      | .none => s5
    | _, _ => s

/-- The first waiting group of a session may commit: in the second place, which in solo mode is the flash copy (R308). -/
def State.mayCommit (s : State) (h : Handle) : Bool :=
  match s.sess? h with
  | none => false
  | some x =>
    match x.region.waiting with
    | [] => false
    | g :: _ => s.mirroredTo.isNone || g.held || (match g.effect with | .command _ => true | _ => false)

/-- The own half of the Ledger area: 1/256 of the raw flash in the census, split equally (R314). -/
def State.ledgerHalf (s : State) : Nat := (s.recovery.channels.map Config.channelBytes).sum / 512

/-- Bytes of the own flash copies. -/
def State.ledgerBytes (s : State) : Nat := (s.flash.map fun x => (x.2.recs.map Rec.bytes).sum).sum

/-- The own half of the Ledger area has passed 15/16 of its size (R315). -/
def State.ledgerFull (s : State) : Bool := decide (s.ledgerHalf * 15 < s.ledgerBytes * 16)

/-- The own half is full: a group more could not be written (R315). -/
def State.ledgerSpent (s : State) : Bool := decide (s.ledgerHalf ≤ s.ledgerBytes)

/-- Refuse an append or open that would form a group when the Ledger area is full: QUOTA and LEDGER_FULL (R315). -/
def State.refuseLedgerFull (s : State) : State × Reply := (s.raise 0 0x0704 0 0, rStatus .quota)

end Sys2Proof.Machine
end

