-- ==== Sys2Proof/Machine/Sketch.lean ====
section
/-!
DEFINITION. Sketches, distances and top() (08_sketch_search R191 to R193).
-/
namespace Sys2Proof.Machine

/-- The digest that holds P(t, 256·b) to P(t, 256·b + 255) (R192). -/
def projectionDigest (seed t b : Nat) : List Byte := sha256 (natToBytes 8 seed ++ natToBytes 2 t ++ natToBytes 2 b)

/-- Row t of the projection for `n` elements: true for +1 (R192). -/
def projectionRow (seed t n : Nat) : List Bool :=
  ((List.range (ceilDiv n 256)).flatMap fun b =>
    (projectionDigest seed t b).flatMap fun d => (List.range 8).map fun k => bitOf d.toNat k).take n

/-- Bit t of the sketch of a vector: whether the canonical sum of P(t, i) × x_i is above 0 (R191, R193). -/
def sketchBit (seed t : Nat) (x : List F32) : Bool :=
  f32Lt 0 (canonicalSum (List.zipWith (fun s v => f32Mul (if s then 0x3F800000 else 0xBF800000) v)
    (projectionRow seed t x.length) x))

/-- Bits `first .. first + n − 1` of the sketch of a vector, as a number with bit t in place t. -/
def sketchBits (seed first n : Nat) (x : List F32) : Nat :=
  ((List.range n).map fun i => if sketchBit seed (first + i) x then 2 ^ (first + i) else 0).sum

/-- Key groups of a layout (R191). -/
def Layout.groups (l : Layout) : Nat :=
  if l.latent then 1 else if 8 ≤ l.kvHeads then 8 else if 4 ≤ l.kvHeads then 4 else if 2 ≤ l.kvHeads then 2 else 1

/-- The group of a KV head (R191). -/
def Layout.groupOf (l : Layout) (g : Nat) : Nat := if l.latent then 0 else g * l.groups / l.kvHeads

/-- KV heads whose keys a sketch takes: one for a LATENT layout. -/
def Layout.keyHeads (l : Layout) : Nat := if l.latent then 1 else l.kvHeads

/-- The key width (R171). -/
def Layout.keyWidth (l : Layout) : Nat := if l.latent then l.latentWidth + l.ropeWidth else l.headWidth

/-- The mean key of group j (R191): positions ascending, heads ascending within a position. -/
def meanKey (l : Layout) (pos : List (List F32)) (j : Nat) : List F32 :=
  let keys := pos.flatMap fun r => ((List.range l.keyHeads).filter fun g => l.groupOf g == j).map fun g => l.keyOf g r
  (List.range l.keyWidth).map fun i =>
    f32Div (canonicalSum (keys.map fun k => k.getD i 0)) (f32OfNat keys.length)

/-- A sheaf's sketch (R191). -/
def sheafSketch (l : Layout) (pos : List (List F32)) : BitVec 256 :=
  let b := 256 / l.groups
  BitVec.ofNat 256 ((List.range l.groups).map fun j =>
    sketchBits l.projectionSeed.toNat (j * b) b (meanKey l pos j)).sum

/-- The bits of a row's own group (R193). -/
def rowSketch (l : Layout) (kvHead : Nat) (q : List F32) : Nat :=
  let b := 256 / l.groups
  sketchBits l.projectionSeed.toNat (l.groupOf kvHead * b) b q

/-- The bits a row compares: those of its group (R193). -/
def rowMask (l : Layout) (kvHead : Nat) : Nat :=
  let b := 256 / l.groups
  (2 ^ b - 1) * 2 ^ (l.groupOf kvHead * b)

/-- The number of set bits among the low `w`. -/
def popcount : Nat → Nat → Nat
  | 0, _ => 0
  | w + 1, n => n % 2 + popcount w (n / 2)

/-- The Hamming distance over the compared bits (R193). -/
def hamming (w a b : Nat) : Nat := popcount w (a ^^^ b)

/-- top() of R193: pairs (key, id), the least `n` by key and then by id. -/
def top {κ : Type} (lt : κ → κ → Bool) (l : List (κ × Nat)) (n : Nat) : List (κ × Nat) :=
  (sortBy (fun a b => lt a.1 b.1 || (!lt b.1 a.1 && decide (a.2 ≤ b.2))) l).take n

/-- top() with keys that are numbers. -/
def topNat (l : List (Nat × Nat)) (n : Nat) : List (Nat × Nat) := top (fun a b => decide (a < b)) l n

end Sys2Proof.Machine
end

