-- ==== Sys2Proof/Machine/Sheaves.lean ====
section
/-!
DEFINITION. Sheaves: sealing (02 R45), references (R49), and freeing what a closed session leaves behind (R52).
-/
namespace Sys2Proof.Machine

/-- Seal an open sheaf (R45); its sketch is set apart. -/
def Sheaf.seal (f : Sheaf) : Sheaf := { f with isSealed := true, version := f.version + 1 }

/-- A sheaf sealed with its sketch, of its values as stored (R45, 06 R149, 08 R194). -/
def Sheaf.sealSketched (f : Sheaf) (l : Layout) : Sheaf :=
  { f.seal with sketch := sheafSketch l (f.positions l), sketchValid := true }

/-- Change the sheaf that a session owns at (layer, ordinal). -/
def Session.modSheaf (x : Session) (owner : Handle) (layer ordinal : Nat) (g : Sheaf → Sheaf) : Session :=
  { x with map := x.map.map fun f =>
      if f.owner == owner && !f.shared && f.layer == layer && f.ordinal == ordinal then g f else f }

/-- Take one more reference on a sheaf, at its owner (R49). -/
def State.addRef (s : State) (owner : Handle) (layer ordinal : Nat) : State :=
  s.modSess owner fun x => x.modSheaf owner layer ordinal fun f => { f with refcount := f.refcount + 1 }

/-- The index of a closed session whose map is freed is free for reissue, or EXHAUSTED after generation 0xFFFF (R32,
R52). -/
def State.freeIndex (s : State) (h : Handle) : State :=
  match s.sliceOf (handleNode h) with
  | none => s
  | some sl =>
    if handleGen h = 0xFFFF then
      s.setSlice (handleNode h)
        { sl with entries := assocMod (handleIndex h) (fun e => { e with life := .exhausted }) sl.entries }
    else if sl.reissue.contains (handleIndex h) then s
    else s.setSlice (handleNode h) { sl with reissue := sl.reissue ++ [handleIndex h] }

/-- The registry entry retired: LIFE CLOSED, any offer cleared (R52, Table 11.8). -/
def State.retire (s : State) (h : Handle) : State :=
  if s.regIsHere h then (s.regHere h 0x25 [] (.registry h)).1
  else s.regAway h 0x25 (s.registryBody h) (.registry h)

/-- The map of a closed session is freed (R52). A registry elsewhere learns it by a second REG_RETIRE (DESIGN CHOICE); one
here frees the index once the entry is CLOSED (R290). -/
def State.freeMap (s : State) (h : Handle) : State :=
  let s1 := { s with sessions := assocDel h s.sessions }
  if s.regIsHere h then
    (match s.entry? h with | some e => if e.life = .closed then s1.freeIndex h else s1 | none => s1)
  else s1.regAway h 0x25 (s.registryBody h) (.registry h)

/-- Free the closed session `h` when nothing it owns remains (R52). -/
def State.reap (s : State) (h : Handle) : State :=
  match s.sess? h with
  | none => s
  | some x => if x.state = .closed && x.map.isEmpty then s.freeMap h else s

/-- Release one reference on a sheaf; it is freed at 0 (R49, R52). -/
def State.dropRef (s : State) (owner : Handle) (layer ordinal : Nat) : State :=
  let s1 := s.modSess owner fun x =>
    let x1 := x.modSheaf owner layer ordinal fun f => { f with refcount := f.refcount - 1 }
    { x1 with map := x1.map.filter fun f => !(f.owner == owner && !f.shared && f.refcount == 0) }
  s1.reap owner

end Sys2Proof.Machine
end

