-- ==== Sys2Proof/Machine/Output.lean ====
section
/-!
DEFINITION. Posted output buffers (09_weaver_text R236 to R239).
-/
namespace Sys2Proof.Machine

/-- The next output token at or after history position `pos`: its position and id. -/
def nextOutput (hist : List (Nat × Bool × Bool)) (pos : Nat) : Option (Nat × Nat) :=
  match ((hist.drop pos).zip (List.range (hist.length - pos))).find? (fun t => t.1.2.1) with
  | some t => some (pos + t.2, t.1.1)
  | none => none

/-- Fill one buffer from a position: the bytes added, and the position after them (R237, R238). -/
def fillFrom (l : Layout) (hist : List (Nat × Bool × Bool)) (room : Nat) : Nat → Nat → List Byte × Nat
  | 0, pos => ([], pos)
  | fuel + 1, pos =>
    match nextOutput hist pos with
    | none => ([], pos)
    | some (p, id) =>
      let bs := outputOf l id
      if room < bs.length then ([], pos)
      else
        let r := fillFrom l hist (room - bs.length) fuel (p + 1)
        (bs ++ r.1, r.2)

/-- The position from which buffer filling continues: after the last buffer, or the output cursor. -/
def fillPos (x : Session) (done : List OutBuf) : Nat :=
  match done.getLast? with | some b => b.pos | none => x.region.outputPos

/-- A buffer takes no more: full, or the next record does not fit (R238). -/
def bufferFull (l : Layout) (hist : List (Nat × Bool × Bool)) (b : OutBuf) : Bool :=
  b.filled == b.length || match nextOutput hist b.pos with
    | none => false
    | some (_, id) => decide (b.length < b.filled + (outputOf l id).length)

/-- Fill the posted buffers in order with what is readable (R238): the buffers after it and the host writes. -/
def fillBuffers (l : Layout) (hist : List (Nat × Bool × Bool)) :
    Nat → List OutBuf → List OutBuf × List (Nat × List Byte)
  | _, [] => ([], [])
  | pos, b :: bs =>
    let start := max pos b.pos
    let r := fillFrom l hist (b.length - b.filled) (hist.length + 1) start
    let b1 := { b with filled := b.filled + r.1.length, pos := r.2 }
    let w := if r.1.isEmpty then [] else [(b.addr + b.filled, r.1)]
    if bufferFull l hist b1 then
      let q := fillBuffers l hist b1.pos bs
      (b1 :: q.1, w ++ q.2)
    else (b1 :: bs, w)

/-- DETAIL of an OUTPUT_POST completion (Table 9.7). -/
def outputDetail (more : Bool) (x : Session) (closed moved : Bool) : Nat :=
  packNat [(1, bitNat (more && !closed)), (1, bitNat (x.state == .parked && !closed)), (1, bitNat closed),
    (1, bitNat moved), (4, if x.state = .parked && !closed then (match x.parkCause with | some c => parkCode c | none => 0)
      else 0)]

/-- Complete the first posted buffer of a session: the cursor advances in a header-only commit (R239, R308). -/
def State.completeBuffer (s : State) (h : Handle) : State :=
  match s.sess? h with
  | none => s
  | some x =>
    match x.buffers with
    | [] => s
    | b :: bs =>
      let pos := max b.pos x.region.outputPos
      let more := (nextOutput x.region.hist pos).isSome
      let s1 := s.modSess h fun x => { x with buffers := bs, region := { x.region.keep with outputPos := pos } }
      (s1.bumpPen (handlePen h) .outputBytes b.filled).formGroup h []
        (.header b.cmd b.filled (outputDetail more x false false))

/-- Complete the posted buffers at the front while `p` holds of the front one. -/
def State.completeWhile (p : Session → OutBuf → Bool) : Nat → State → Handle → State
  | 0, s, _ => s
  | n + 1, s, h =>
    match s.sess? h with
    | none => s
    | some x =>
      match x.buffers with
      | [] => s
      | b :: _ => if p x b then State.completeWhile p n (s.completeBuffer h) h else s

/-- Fill the posted buffers with the output that is readable (R238), under the layout, and go on from there. -/
def State.fillOutput (s : State) (h : Handle) (go : State → Layout → Nat → State) : State :=
  match s.sess? h with
  | none => s
  | some x =>
    match s.layout? x.layout with
    | none => s
    | some l =>
      let r := fillBuffers l x.region.hist x.region.outputPos x.buffers
      let s1 := r.2.foldl (fun t w => t.hostOut (.hostWrite w.1 w.2)) s
      go (s1.modSess h fun x => { x with buffers := r.1 }) l r.1.length

/-- The record has gone to a new home with the cursor after what the posted buffers hold: nothing is read here until the
registry has decided (R239: no byte is delivered twice). -/
def Session.leaving (x : Session) : Bool := match x.handover with | some hd => hd.final | none => false

/-- Fill the posted buffers and complete those that R238 completes: `boundary` at the end of a step in which the session
ran, `park` when the session has just parked. -/
def State.settleOutput (s : State) (h : Handle) (boundary park : Bool) : State :=
  if (s.sess? h).any fun x => x.leaving then s else
  s.fillOutput h fun t l n =>
    let ready (x : Session) (b : OutBuf) : Bool :=
      bufferFull l x.region.hist b || park || (boundary && decide (0 < b.filled))
        || (x.state != .running && ((decide (0 < b.filled) && (nextOutput x.region.hist b.pos).isNone)
          || x.state == .parked))
    State.completeWhile ready n t h

/-- The same as a session closes: full buffers complete, and the close completes the others (R238, R239). -/
def State.closeOutput (s : State) (h : Handle) : State :=
  s.fillOutput h fun t l n => State.completeWhile (fun x b => bufferFull l x.region.hist b) n t h

end Sys2Proof.Machine
end

