-- ==== Sys2Proof/Machine/Sessions.lean ====
section
/-!
DEFINITION. The session commands executed by the Reeve and the Shepherd, and SESSION_CONFIG (02_sessions R33 to R52,
03 R78 and R453, 12 R310).
-/
namespace Sys2Proof.Machine

/-! ### The sampler block (Table 3.8, R78) -/

/-- The sampler block at the start of the operand area. -/
def samplerOf (d : Desc) : Sampler :=
  { seed := BitVec.ofNat 64 (operand d 0 8), temperature := BitVec.ofNat 32 (operand d 8 4),
    topP := BitVec.ofNat 16 (operand d 12 2), topK := operand d 14 2, constraintSet := operand d 16 2,
    deadEndStop := operand d 18 1 == 1, utf8Replace := operand d 19 1 == 1, substituteId := operand d 20 4 }

/-- The layout the sampler block names. -/
def samplerLayout (d : Desc) : Nat := operand d 24 1

/-- The checks of R78 on the fields that `sel` names, by descriptor byte; SELECT bits in the order of R78. Without a layout
SUBSTITUTE_ID has no bound to break. -/
def samplerChecks (q : Pen) (l : Option Layout) (sel : Nat → Bool) (d : Desc) : List (Nat × Bool) :=
  let t := BitVec.ofNat 32 (operand d 8 4)
  let p := operand d 12 2
  let cs := operand d 16 2
  [(24, sel 1 && (f32NotFinite t || (bitOf t.toNat 31 && bitsOf t.toNat 0 31 != 0))),
   (28, sel 2 && (decide (0x3C00 < bitsOf p 0 15) || (bitOf p 15 && bitsOf p 0 15 != 0))),
   (30, sel 3 && decide (256 < operand d 14 2)),
   (32, sel 4 && cs != 0xFFFF && !assocHas cs q.constraints),
   (34, sel 5 && decide (1 < operand d 18 1)), (35, sel 6 && decide (1 < operand d 19 1)),
   (36, sel 7 && (match l with | some l => decide (l.vocabSize ≤ operand d 20 4) | none => false))]

/-- The sampler block's bytes, as the Ledger records them (R307). -/
def Sampler.bytes (x : Sampler) (layout : Nat) : List Byte :=
  packBytes 32 [(64, x.seed.toNat), (32, x.temperature.toNat), (16, x.topP.toNat), (16, x.topK), (16, x.constraintSet),
    (8, bitNat x.deadEndStop), (8, bitNat x.utf8Replace), (32, x.substituteId), (8, layout), (56, 0)]

/-! ### New sessions (R33, R50, R310) -/

/-- Take an index: the lowest never issued, then those free for reissue (R33); with its generation (R32). -/
def Slice.take (sl : Slice) : Option (Nat × Nat × Slice) :=
  if sl.next < 16777216 then some (sl.next, 1, { sl with next := sl.next + 1 })
  else match sl.reissue with
    | [] => none
    | i :: rest => some (i, (match assocGet i sl.entries with | some e => handleGen e.handle + 1 | none => 1),
        { sl with reissue := rest })

/-- Issue a handle for pen `p`: the entry is LIVE, with this device as registry node and home (R33, Table 2.2). -/
def State.issue (s : State) (p : Nat) (isPrefix : Bool) : Option (Handle × State) :=
  match s.slice.take with
  | none => none
  | some (i, g, sl) =>
    let h := mkHandle s.node p i g
    let e : RegEntry := { handle := h, home := s.ident.nodeNumber, isPrefix := isPrefix }
    some (h, { s with slice := { sl with entries := assocSet i e sl.entries } })

/-- The pen or the slice has no room for one more session (R33). -/
def State.sessionQuota (s : State) (p : Nat) : Bool :=
  decide (((s.pen? p).map (·.cfg.sessionsMax)).getD 0 ≤ s.sessionCount p) || s.slice.take.isNone

/-- The tails of a session sealed at the count they hold (R45, R50), in T1 with their sketches (R47, 06 R149). -/
def Session.sealTails (x : Session) (l : Option Layout) : Session :=
  let close (f : Sheaf) : Sheaf := match l with
    | some l => if f.tier = .t1 && !f.missing then f.sealSketched l else f.seal
    | none => f.seal
  if x.tailFill = 0 then x
  else { x with tailFill := 0, map := x.map.map fun f => if f.isSealed then f else close f }

/-- The child's entry for a parent's entry (R50). -/
def childEntry (f : Sheaf) : Sheaf :=
  if f.shared then f
  else { f with shared := true, tier := .t1, node := 0, location := 0, refcount := 0, payload := [] }

/-- Whether sealing would need a sheaf beyond the last ordinal (R43). -/
def Session.sealTooFar (x : Session) : Bool :=
  decide (0 < x.tailFill) && x.map.any fun f => !f.isSealed && decide (1048575 ≤ f.ordinal)

/-- Whether a fork would take a REFCOUNT above its range (R49). -/
def State.refOverflow (s : State) (x : Session) : Bool :=
  x.map.any fun f =>
    match (s.sess? f.owner).bind fun o => o.map.find? fun g =>
        !g.shared && g.layer == f.layer && g.ordinal == f.ordinal && g.owner == f.owner with
    | some g => decide (0xFFFFFFFF ≤ g.refcount)
    | none => false

/-- The records a child's region begins with: copies of the parent's positioned records (R310). -/
def inheritedRecs (r : Region) : List Rec :=
  let un := r.unplaced
  (r.recs.filter fun c => (c.kind == kTokens && !un.contains c.step) || c.kind == kPlace).map fun c =>
    { c with inherited := true }

/-- The OPEN record of a session's first group (R310). -/
def openingRec (x : Session) : Rec :=
  { step := 0, kind := kOpen, isPrefix := x.isPrefix, latencyCritical := x.latencyCritical,
    body := x.sampler.bytes x.layout ++ natToBytes 8 x.parent.toNat }

/-- T1 bytes a new session needs (Table 6.3): its map entries, and a region of the inherited records and the OPEN record,
whose size no field changes. -/
def newSessionBytes (entries : Nat) (recs : List Rec) : Nat :=
  256 + 64 * entries
    + ({ recs := recs ++ [openingRec { latencyCritical := false, isPrefix := false, layout := 0, sampler := {} }] } : Region).bytes

/-- Make the session `h` with its first group, an OPEN record (R310); the command completes at its commit. -/
def State.openSession (s : State) (h : Handle) (x : Session) (inherited : List Rec) (c : RingCmd) : State :=
  let s1 := { s with sessions := assocSet h x s.sessions }
  (s1.mirrorEntry h).formGroup h (inherited ++ [openingRec x]) (.opened c h)

/-- The child of `parent` (R50, R310): its record, with the sampler it is opened under. -/
def childOf (s : State) (ph : Handle) (parent : Session) (h : Handle) (smp : Sampler) (lc isPrefix : Bool) : Session :=
  let set := (s.pen? (handlePen h)).bind fun q => assocGet smp.constraintSet q.constraints
  { state := if parent.positions = 0 then .opened else .parked,
    parkCause := if parent.positions = 0 then none else some .host, parkedSince := s.clock.now,
    latencyCritical := lc, isPrefix := isPrefix, layout := parent.layout, sampler := smp,
    inThink := parent.inThink, inToolCall := parent.inToolCall, positions := parent.positions,
    kvPositions := parent.kvPositions, ledgerStep := 0, parent := ph, sharedPositions := parent.positions,
    inputEnd := parent.inputEnd, inputPending := decide (parent.kvPositions < parent.inputEnd),
    automaton := if smp.constraintSet = parent.sampler.constraintSet then parent.automaton
      else rebuildAutomaton set parent.region.hist,
    map := parent.map.map childEntry,
    region := { localStep := parent.ledgerStep, outputPos := parent.positions, hist := parent.region.hist } }

/-- fork(parent, child) of R50: tails sealed, references taken, the child opened. -/
def State.fork (s : State) (ph : Handle) (h : Handle) (smp : Sampler) (lc isPrefix : Bool) (c : RingCmd) : State :=
  match s.sess? ph with
  | none => s
  | some p0 =>
    let parent := { p0.sealTails (s.layout? p0.layout) with childRefs := p0.childRefs + 1 }
    let s1 := s.modSess ph fun _ => parent
    let s2 := parent.map.foldl (fun t f => t.addRef f.owner f.layer f.ordinal) s1
    s2.openSession h (childOf s2 ph parent h smp lc isPrefix) (inheritedRecs parent.region) c

/-- The refusal of a fork of `x`, if any (R43, R49, R33, R140, R315). -/
def forkRefusal (s : State) (p : Nat) (x : Session) : Option (State × Reply) :=
  if x.sealTooFar then some (s, rStatus .badLength)
  else if s.refOverflow x || s.sessionQuota p then some (s, rStatus .quota)
  else if s.ledgerFull then some s.refuseLedgerFull
  else refuseT1 s p (newSessionBytes x.map.length (inheritedRecs x.region))

/-- Harvest has not yet loaded the registry of a restore: SESSION_OPEN waits (R326). -/
def State.restoring (s : State) : Bool :=
  match s.harvest.restore with | some r => decide (r.step ≤ 3) | none => false

/-- The tail is in handover: SESSION_FORK waits (R44). -/
def Session.inHandover (x : Session) : Bool := match x.handover with | some h => h.offered | none => false

/-- SESSION_OPEN's own checks of its operands (R51, R58, R78): the sampler block and its layout, then the parent. -/
def openOffence (s : State) (q : Pen) (d : Desc) : Option Nat :=
  let lid := samplerLayout d
  let parent := s.sess? (descHandle d)
  badFirst (samplerChecks q (s.layout? lid) (fun _ => true) d ++
      [(40, (s.layout? lid).isNone || (match parent with | some x => x.layout != lid | none => false))])
    [(8, descHandle d != nullHandle && !((parent.map (·.isPrefix)).getD false))]

/-- Put off a command to the session's boundary (R41). -/
def State.deferCmd (s : State) (c : RingCmd) : State :=
  { s with nextTicket := s.nextTicket + 1 }.modSess (descHandle c.desc) fun x =>
    { x with deferred := x.deferred ++ [{ c with arrival := s.nextTicket }] }

/-- The command waits for the end of the tail handover (R44). -/
def State.awaitHandover (s : State) (c : RingCmd) : State :=
  s.modSess (descHandle c.desc) fun x =>
    { x with handover := x.handover.map fun hd => { hd with waiting := hd.waiting ++ [c] } }

/-- A new session from a fork of `x` (R50): refused, or opened under `smp`. -/
def State.openFork (s : State) (c : RingCmd) (x : Session) (smp : Sampler) (lc isPrefix : Bool) : RingDone :=
  match forkRefusal s c.pen x with
  | some (s1, r) => .now s1 r
  | none =>
    match s.issue c.pen isPrefix with
    | none => .now s (rStatus .quota)
    | some (h, s1) => .later (s1.fork (descHandle c.desc) h smp lc isPrefix c)

/-- A fork of `x` in its turn (R44, R50, R51, Table 2.5): refused in FAULTED, at the boundary in RUNNING, after a tail
handover, and behind the groups whose commits the child must hold (R41); else `now`. -/
def State.forkInTurn (s : State) (c : RingCmd) (x : Session) (reached : Bool) (now : RingDone) : RingDone :=
  if x.state = .faulted then (let r := retryLater s; .now r.1 r.2)
  else if x.state = .running then .later (s.deferCmd c)
  else if x.inHandover then .later (s.awaitHandover c)
  else if reached || x.region.waiting.isEmpty then now
  else .later (s.queueBehind (descHandle c.desc) c)

/-- SESSION_OPEN under a prefix session taking effect (R51). -/
def State.openPrefix (s : State) (c : RingCmd) : RingDone :=
  let d := c.desc
  match s.pen? c.pen, s.sess? (descHandle d) with
  | some q, some x =>
    match openOffence s q d with
    | some k => .now s (rBad k)
    | none => s.openFork c x (samplerOf d) (descFlag d 25) (descFlag d 24)
  | _, _ => .now s (rBad 8)

/-- SESSION_OPEN of a session with no history (R33, R140, R315). -/
def State.openEmpty (s : State) (c : RingCmd) : RingDone :=
  let d := c.desc
  if s.sessionQuota c.pen then .now s (rStatus .quota)
  else if s.ledgerFull then (let r := s.refuseLedgerFull; .now r.1 r.2)
  else match refuseT1 s c.pen (newSessionBytes 0 []) with
    | some (s1, r) => .now s1 r
    | none =>
      match s.issue c.pen (descFlag d 24) with
      | none => .now s (rStatus .quota)
      | some (h, s1) =>
        .later (s1.openSession h { latencyCritical := descFlag d 25, isPrefix := descFlag d 24, layout := samplerLayout d,
                                   sampler := samplerOf d } [] c)

/-- SESSION_OPEN (R33, R51, R58, R78): a new session, or the fork of a prefix session. -/
def execSessionOpen (pen ring : Nat) (s : State) : Out :=
  ringRun s pen ring 0x0100 fun s c =>
    match s.pen? pen with
    | none => .now s (rStatus .denied)
    | some q =>
      if s.restoring then (let r := retryLater s; .now r.1 r.2)
      else
        match openOffence s q c.desc with
        | some k => .now s (rBad k)
        | none =>
          match s.sess? (descHandle c.desc) with
          | some x => s.forkInTurn c x false (s.openPrefix c)
          | none => s.openEmpty c

/-- SESSION_FORK taking effect (R50). The child has the parent's CLASS and PREFIX, which the spec does not state (DESIGN
CHOICE). -/
def State.forkNow (s : State) (c : RingCmd) : RingDone :=
  match s.sess? (descHandle c.desc) with
  | none => .now s (rStatus .badHandle)
  | some x =>
    let seed := if descFlag c.desc 26 then x.sampler.seed else BitVec.ofNat 64 (operand c.desc 0 8)
    s.openFork c x { x.sampler with seed := seed } x.latencyCritical x.isPrefix

/-- SESSION_FORK (R50, Table 2.5). -/
def execSessionFork (pen ring : Nat) (s : State) : Out :=
  ringRun s pen ring 0x0101 fun s c =>
    match s.sess? (descHandle c.desc) with
    | none => .now s (rStatus .badHandle)
    | some x => s.forkInTurn c x false (s.forkNow c)

/-! ### Close (R52, R452) -/

/-- Drop the waiting group's command completions of a session that goes away: BAD_HANDLE for what waits (R452). -/
def State.badHandleAll (s : State) (cs : List RingCmd) : State :=
  cs.foldl (fun t c => t.complete c (rStatus .badHandle)) s

/-- Complete the buffers still posted at a close (R239). -/
def State.closeBuffers (s : State) (h : Handle) : State :=
  match s.sess? h with
  | none => s
  | some x => x.buffers.foldl (fun t b =>
      (t.bumpPen (handlePen h) .outputBytes b.filled).complete b.cmd
        { result := b.filled, detail := outputDetail false x true false }) s

/-- Moves of a session or of its sheaves are abandoned (R44). -/
def State.abandonMovesOf (s : State) (h : Handle) : State :=
  let mine := s.moves.filter fun m => m.subject.owner == h && m.state != MoveState.freeing
  (mine.foldl (fun t m => t.removeMove m) s).bumpPen (s.penOf h) .movesAbandoned mine.length

/-- The close of session `h` (R52), with nothing of it waiting to commit: the command `c`, if any, completes with OK. -/
def State.closeSession (s : State) (h : Handle) (c : Option RingCmd) : State :=
  match s.sess? h with
  | none => s
  | some x =>
    let s1 := (s.closeBuffers h).badHandleAll (x.configs ++ x.deferred)
    let s2 := (s1.abandonMovesOf h).endLeases h
    let s3 := s2.modSess h fun x =>
      { x with state := .closed, parkCause := none, faultCause := none, buffers := [], configs := [], deferred := [],
               region := {}, moving := false, handover := none, flock := none, anchored := false, anchorFlock := none,
               regrowing := false, tailFill := 0,
               map := (x.map.filter fun f => f.owner == h && !f.shared && f.isSealed && decide (1 < f.refcount)).map
                 fun f => { f with refcount := f.refcount - 1 } }
    let s4 := (x.map.filter fun f => f.shared).foldl (fun t f => t.dropRef f.owner f.layer f.ordinal) s3
    let s5 := (s4.modSess x.parent fun p => { p with childRefs := p.childRefs - 1 }).retire h
    let s6 := { s5 with flash := assocDel h s5.flash }
    let s7 := match s6.mirroredTo with
      | some d => s6.request d 0x30 0 (mirrorHeader 3 1 0 ++ natToBytes 8 h.toNat) .dropReq
      | none => s6
    let s8 := (s7.reap h).raise (handlePen h) 0x0302 h.toNat 0
    match c with
    | some c => s8.complete c rOk
    | none => s8

/-- SESSION_CLOSE applied to a session that is in no step: behind the groups formed before it, which reach their final
updates (R452). -/
def State.closeNow (s : State) (c : RingCmd) : State :=
  let h := descHandle c.desc
  let s1 := s.closeOutput h
  match s1.sess? h with
  | none => s1.complete c (rStatus .badHandle)
  | some x =>
    if x.state = .closed then s1.complete c (rStatus .badHandle)
    else if x.region.waiting.isEmpty then s1.closeSession h (some c)
    else s1.queueBehind h c

/-- SESSION_CLOSE (R52, Table 2.5): at once, or at the boundary while RUNNING. -/
def execSessionClose (pen ring : Nat) (s : State) : Out :=
  ringRunHome s pen ring 0x0102 fun s c =>
    match s.sess? (descHandle c.desc) with
    | none => .now s (rStatus .badHandle)
    | some x =>
      if x.state = .running then .later (s.deferCmd c) else .later (s.closeNow c)

/-! ### Park and resume (R40, R43, R51) -/

/-- SESSION_PARK applied to a session that is in no step, after what the home has applied before (R41). -/
def State.parkNow (s : State) (c : RingCmd) : RingDone :=
  let h := descHandle c.desc
  match s.sess? h with
  | none => .now s (rStatus .badHandle)
  | some x =>
    match x.applied.state with
    | .runnable | .faulted => .later (s.formGroup h [{ step := 0, kind := kHostPark }] (.host c))
    | _ => .now s rOk

/-- SESSION_PARK (Table 2.5). -/
def execSessionPark (pen ring : Nat) (s : State) : Out :=
  ringRunHome s pen ring 0x0103 fun s c =>
    match s.sess? (descHandle c.desc) with
    | none => .now s (rStatus .badHandle)
    | some x => if x.state = .running then .later (s.deferCmd c) else s.parkNow c

/-- SESSION_RESUME (Table 2.5, R41, R43, R51). -/
def execSessionResume (pen ring : Nat) (s : State) : Out :=
  ringRunHome s pen ring 0x0104 fun s c =>
    let h := descHandle c.desc
    match s.sess? h with
    | none => .now s (rStatus .badHandle)
    | some x0 =>
      let x := x0.applied
      if x.isPrefix then .now s (rBad 8)
      else match x.state with
        | .opened | .closed => .now s (rBad 8)
        | .runnable | .running => .now s rOk
        | .parked => if x.parkCause = some .host
            then .later (s.formGroup h [{ step := 0, kind := kHostResume }] (.host c)) else .now s (rBad 8)
        | .faulted => if x.parkRecorded
            then .later (s.formGroup h [{ step := 0, kind := kHostResume }] (.host c)) else .now s rOk

/-! ### Commands in their turn (R41) -/

/-- A command that waited for its turn: for a boundary, or, where `reached`, behind groups that are committed now. A session
closed meanwhile answers BAD_HANDLE (R452). -/
def State.takeTurn (s : State) (c : RingCmd) (reached : Bool) : State :=
  let done (d : RingDone) : State := match d with | .now t r => t.complete c r | .later t => t
  match s.sess? (descHandle c.desc) with
  | none => s.complete c (rStatus .badHandle)
  | some x =>
    if x.state = .closed then s.complete c (rStatus .badHandle)
    else match descOpcode c.desc with
      | 0x0100 => done (s.forkInTurn c x reached (s.openPrefix c))
      | 0x0101 => done (s.forkInTurn c x reached (s.forkNow c))
      | 0x0102 => if x.state = .running then s.deferCmd c else s.closeNow c
      | 0x0103 => done (s.parkNow c)
      | _ => s.complete c (rStatus .badHandle)

/-- Groups formed from number `n` on take the number of the command that formed them. -/
def State.renumber (s : State) (n id : Nat) : State :=
  let label (g : Group) : Group := if n ≤ g.id then { g with id := id } else g
  let all (x : Session) : Session := { x with region := { x.region with waiting := x.region.waiting.map label } }
  { s with sessions := mapVals all s.sessions }

/-- What stands first among a session's waiting groups takes its effect: a group commits, a command has its turn (R308,
R41). -/
def State.settleGroup (s : State) (h : Handle) : State :=
  match (s.sess? h).bind (·.region.waiting.head?) with
  | none => s
  | some g =>
    match g.effect with
    | .command c =>
      ((s.modSess h fun x => { x with region := { x.region with waiting := x.region.waiting.drop 1 } }).takeTurn c
        true).renumber s.nextTicket g.id
    | _ =>
      let t := s.commitGroup h
      let parked (u : State) : Bool := (u.sess? h).any fun x => x.state == .parked
      -- posted buffers complete as a session parks (09 R238)
      if !parked s && parked t then t.settleOutput h false true else t

/-- What may commit of a session commits, oldest first. -/
def State.commitReady (s : State) (h : Handle) : State :=
  let n := match s.sess? h with | some x => x.region.waiting.length | none => 0
  (List.range n).foldl (fun t _ => if t.mayCommit h then t.settleGroup h else t) s

/-! ### Query (R37) -/

/-- AUTOMATON_STATE as the record shows it: 0 at the start, and under no constraint set (Table 2.3, R228). -/
def Session.automatonNumber (x : Session) : Nat :=
  if x.sampler.constraintSet = 0xFFFF || x.automaton = {} then 0
  else (Config.automatonState x.sampler.constraintSet x.automaton.forced x.automaton.recent).toNat

/-- The session record of Table 2.3. -/
def Session.bytes (x : Session) (h : Handle) : List Byte :=
  packBytes 256 [(64, h.toNat), (4, sessStateCode x.state), (1, bitNat x.moving), (1, bitNat x.anchored),
    (1, bitNat x.latencyCritical), (1, bitNat x.isPrefix), (6, x.layout), (1, bitNat x.sampler.deadEndStop),
    (1, bitNat x.sampler.utf8Replace), (1, bitNat x.inThink), (1, bitNat x.inToolCall), (1, bitNat x.inputPending),
    (1, 0), (4, match x.parkCause with | some c => parkCode c | none => 0),
    (4, match x.faultCause with | some c => faultCode c | none => 0), (4, 0), (28, x.positions), (4, 0),
    (28, x.kvPositions), (4, 0), (7, x.tailFill), (25, 0), (64, x.ledgerStep), (64, x.parent.toNat),
    (28, x.sharedPositions), (4, 0), (32, x.childRefs), (64, (Config.locator 0 (2 * h.toNat)).toNat),
    (64, (Config.locator 0 (2 * h.toNat + 1)).toNat), (64, x.sampler.seed.toNat), (32, x.sampler.temperature.toNat),
    (16, x.sampler.topP.toNat), (9, x.sampler.topK), (7, 0), (16, x.sampler.constraintSet), (14, x.automatonNumber),
    (2, 0), (18, x.sampler.substituteId), (14, 0), (32, x.sitOuts), (32, x.preemptions), (64, x.lastStep)]

/-- SESSION_QUERY (R37): a copy of the record, or of the registry entry, at DEST. -/
def execSessionQuery (pen ring : Nat) (s : State) : Out :=
  ringRun s pen ring 0x0105 fun s c =>
    let h := descHandle c.desc
    let dest := operand c.desc 0 8
    if descFlag c.desc 24 then
      match s.entry? h with
      | some e => .now (s.hostOut (.hostWrite dest e.bytes)) rOk
      | none => .now s { status := .redirect, detail := handleNode h }
    else match s.sess? h with
      | some x => .now (s.hostOut (.hostWrite dest (x.bytes h))) rOk
      | none => .now s (rStatus .badHandle)

/-! ### Configuration (R78, R453) -/

/-- SELECT names field `i` of the sampler block (R78). -/
def configSelects (d : Desc) (i : Nat) : Bool := bitOf (operand d 32 2) i

/-- SESSION_CONFIG's own checks of its operands (R78), for a session under layout `l`. -/
def configOffence (q : Pen) (l : Layout) (d : Desc) : Option Nat :=
  badAmong (samplerChecks q (some l) (configSelects d) d ++ [(48, configSelects d 8)])

/-- SESSION_CONFIG (R78): checked, then in effect at a boundary. -/
def execSessionConfig (pen ring : Nat) (s : State) : Out :=
  ringRunHome s pen ring 0x0106 fun s c =>
    let h := descHandle c.desc
    match s.sess? h, s.pen? pen with
    | some x, some q =>
      match s.layout? x.layout with
      | none => .now s (rStatus .badHandle)
      | some l =>
        match configOffence q l c.desc with
        | some k => .now s (rBad k)
        | none => .later (s.modSess h fun x => { x with configs := x.configs ++ [c] })
    | _, _ => .now s (rStatus .badHandle)

/-- The selected fields of a SESSION_CONFIG on a sampler. -/
def Sampler.update (x : Sampler) (d : Desc) : Sampler :=
  let n := samplerOf d
  let sel (i : Nat) : Bool := bitOf (operand d 32 2) i
  { seed := if sel 0 then n.seed else x.seed, temperature := if sel 1 then n.temperature else x.temperature,
    topP := if sel 2 then n.topP else x.topP, topK := if sel 3 then n.topK else x.topK,
    constraintSet := if sel 4 then n.constraintSet else x.constraintSet,
    deadEndStop := if sel 5 then n.deadEndStop else x.deadEndStop,
    utf8Replace := if sel 6 then n.utf8Replace else x.utf8Replace,
    substituteId := if sel 7 then n.substituteId else x.substituteId }

/-- An accepted SESSION_CONFIG takes effect (R453): the fields change together, the automaton is rebuilt when
CONSTRAINT_SET changes (R229), and the CONFIG group's commit completes the command. -/
def State.applyConfig (s : State) (h : Handle) (c : RingCmd) : State :=
  match s.sess? h with
  | none => s
  | some x =>
    let smp := x.sampler.update c.desc
    let set := (s.pen? (handlePen h)).bind fun q => assocGet smp.constraintSet q.constraints
    let x1 := { x with sampler := smp, automaton := if bitOf (operand c.desc 32 2) 4
      then rebuildAutomaton set x.region.hist else x.automaton }
    (s.modSess h fun _ => x1).formGroup h
      [{ step := 0, kind := kConfig, body := (natToBytes 32 (operand c.desc 0 32)) ++ natToBytes 2 (operand c.desc 32 2) }]
      (.header c 0 0)

/-- Every accepted SESSION_CONFIG of a session, in order (R453). -/
def State.applyConfigs (s : State) (h : Handle) : State :=
  match s.sess? h with
  | none => s
  | some x => x.configs.foldl (fun t c => t.applyConfig h c) (s.modSess h fun x => { x with configs := [] })

end Sys2Proof.Machine
end

