-- ==== Sys2Proof/Machine/Weaver.lean ====
section
/-!
DEFINITION. The ring commands the Weaver executes on text: APPEND_TEXT, APPEND_TOKENS and OUTPUT_POST (09_weaver_text).
-/
namespace Sys2Proof.Machine

/-- `n` bytes of control-node memory, as the command brings them. -/
def fitTo (n : Nat) (bs : List Byte) : List Byte := bs.take n ++ List.replicate (n - bs.length) 0

/-- The tokenizer's counters added to a pen (Table 9.8). -/
def State.countText (s : State) (p : Nat) (t : TextCounts) : State :=
  (((s.bumpPen p .looseBytes t.loose).bumpPen p .replacements t.replacements).bumpPen p .escapedIntro t.escaped).bumpPen
    p .introBad t.introBad

/-- The open stream of a session. -/
def Session.stream? (x : Session) (k : Nat) : Option Stream := assocGet k x.region.streams

/-- APPEND_TEXT's own checks of its descriptor (R218, R219, R222, R223). -/
def textRefusal (l : Layout) (d : Desc) : Option Reply :=
  match badFirst [(28, segmentBad l (operand d 12 1)), (29, (authorOf (operand d 13 1)).isNone), (30, decide (3 < operand d 14 1))]
      [(8, l.vocab)] with
  | some b => some (rBad b)
  | none => if 1048576 < operand d 8 4 then some (rStatus .badLength) else none

/-- APPEND_TEXT (R218 to R224): `text` is what stands at ADDR. -/
def execAppendText (pen ring : Nat) (text : List Byte) (s : State) : Out :=
  ringRunHome s pen ring 0x0110 fun s c =>
    let d := c.desc
    let h := descHandle d
    let len := operand d 8 4
    let seg := operand d 12 1
    let k := operand d 14 1
    let fin := descFlag d 24
    match s.sess? h with
    | none => .now s (rStatus .badHandle)
    | some x =>
      match s.layout? x.layout with
      | none => .now s (rStatus .badHandle)
      | some l =>
        match textRefusal l d with
        | some r => .now s r
        | none =>
            let author := (authorOf (operand d 13 1)).getD .user
            let st := x.stream? k
            if len = 0 && (!fin || st.isNone) then .now s rOk
            else if (match st with | some t => t.segment != seg | none => false) then .now s (rBad 28)
            else if (match st with | some t => t.author != author | none => false) then .now s (rBad 29)
            else
              let old := st.getD { segment := seg, author := author }
              let t := tokenize seg x.sampler.utf8Replace st.isNone old.carry old.introPending (fitTo len text) fin
              let staged := old.staged ++ t.staged
              if 4194304 < staged.length || (fin && decide (2 ^ 27 < x.region.heldTokens x.positions + staged.length))
              then .now s (rStatus .badLength)
              else if s.ledgerFull then (let r := s.refuseLedgerFull; .now r.1 r.2)
              else
                let s1 := s.countText pen t.counts
                let ns : Stream := { segment := seg, author := author, carry := t.seq.map (BitVec.ofNat 8),
                                     introPending := t.intro, staged := staged }
                let streams := if fin then assocDel k x.region.streams else assocSet k ns x.region.streams
                let s2 := s1.modSess h fun x => { x with region := { x.region.keep with streams := streams } }
                let s3 := if !fin then s2.formGroup h [] (.header c t.staged.length 0)
                  else if staged.isEmpty then s2.formGroup h [] (.header c 0 0)
                  else s2.formGroup h (tokensGroup author false staged)
                    (.append c (t.staged.length + 2 ^ 32 * staged.length))
                match refuseGrowth s s3 pen h with
                | some (s4, r) => .now s4 r
                | none => .later s3

/-- The fields of APPEND_TOKENS that its own checks look at, by descriptor byte (R218, R219). -/
def tokensChecks (l : Layout) (d : Desc) : List (Nat × Bool) :=
  [(28, segmentBad l (operand d 12 1)), (29, (authorOf (operand d 13 1)).isNone)]

/-- APPEND_TOKENS (R215, R218, R225): `ids` is what stands at ADDR. -/
def execAppendTokens (pen ring : Nat) (ids : List Byte) (s : State) : Out :=
  ringRunHome s pen ring 0x0111 fun s c =>
    let d := c.desc
    let h := descHandle d
    let n := operand d 8 4
    let seg := operand d 12 1
    match s.sess? h with
    | none => .now s (rStatus .badHandle)
    | some x =>
      match s.layout? x.layout with
      | none => .now s (rStatus .badHandle)
      | some l =>
        if 262144 < n then .now s (rStatus .badLength)
        else
          let src := fitTo (4 * n) ids
          let given := (List.range n).map fun i => bytesAt src (4 * i) 4
          match badFirst (tokensChecks l d)
              [(16, given.any fun i => !l.hasId i)] with
          | some b => .now s (rBad b)
          | none =>
            if n = 0 then .now s rOk
            else
              let t := translateIds l seg x.sampler.substituteId given
              if 2 ^ 27 < x.region.heldTokens x.positions + t.1.length then .now s (rStatus .badLength)
              else if s.ledgerFull then (let r := s.refuseLedgerFull; .now r.1 r.2)
              else
                let s1 := (s.bumpPen pen .substituted t.2.1).bumpPen pen .controlDropped t.2.2
                let s2 := s1.formGroup h (tokensGroup ((authorOf (operand d 13 1)).getD .user) false t.1)
                  (.append c (2 ^ 32 * t.1.length))
                if t.1.isEmpty then .now s1 rOk
                else match refuseGrowth s s2 pen h with
                  | some (s3, r) => .now s3 r
                  | none => .later s2

/-- OUTPUT_POST has a LENGTH that it refuses (R238). -/
def outputBadLength (l : Layout) (len : Nat) : Bool :=
  decide (1048576 < len) || (if l.vocab then len % 4 != 0 else len == 1)

/-- OUTPUT_POST (R238, R239). -/
def execOutputPost (pen ring : Nat) (s : State) : Out :=
  ringRun s pen ring 0x0112 fun s c =>
    let d := c.desc
    let h := descHandle d
    let len := operand d 8 4
    match s.sess? h with
    | none => .now s (rStatus .badHandle)
    | some x =>
      match s.layout? x.layout with
      | none => .now s (rStatus .badHandle)
      | some l =>
        if outputBadLength l len then .now s (rStatus .badLength)
        else if len = 0 then .now s rOk
        else
          if x.leaving then .later (s.awaitHandover c) else
          let b : OutBuf := { cmd := c, addr := operand d 0 8, length := len, pos := fillPos x x.buffers }
          .later ((s.modSess h fun x => { x with buffers := x.buffers ++ [b] }).settleOutput h false false)

end Sys2Proof.Machine
end

