-- ==== Sys2Proof/Machine/StepOps.lean ====
section
/-!
DEFINITION. Sending on Step Link (10_step_link R255, R256), and the operations on a step in progress that several meanings
share: its entries and sit-outs (05_shepherd_planning R121).
-/
namespace Sys2Proof.Machine

/-! ### Ports and messages -/

/-- A Step Link port, at reset values where never touched. -/
def State.stepPort (s : State) (p : Nat) : Port := (assocGet p s.stepPorts).getD {}

/-- Change a Step Link port. -/
def State.modStepPort (s : State) (p : Nat) (f : Port → Port) : State :=
  { s with stepPorts := assocSet p (f (s.stepPort p)) s.stepPorts }

/-- Add to a counter of a port. -/
def Port.bump (p : Port) (c : PortCtr) : Port := { p with ctrs := tallyAdd p.ctrs c 1 (portCtrWidth c) }

/-- A port carries messages: LINKED, UP, or in a RETRAIN of either (R251). -/
def Port.carries (p : Port) : Bool := p.state == .linked || p.state == .up || p.state == .retrain

/-- Send a message on a port that carries messages; on any other it is lost (R254). -/
def State.slSend (s : State) (p vc cls op step : Nat) (body : List Byte) : State :=
  if (s.stepPort p).carries then
    (s.emit (.stepLink p vc cls op step body.length body)).modStepPort p fun q => q.queueFlits vc (16 + body.length)
  else s

/-- Send one message to each port of a list. -/
def State.slSendAll (s : State) (ports : List Nat) (vc cls op step : Nat) (body : List Byte) : State :=
  ports.foldl (fun t p => t.slSend p vc cls op step body) s

/-- The flock that a port belongs to. -/
def State.flockOf (s : State) (p : Nat) : Option (Nat × Flock) := s.flocks.find? fun f => f.2.ports.contains p

/-! ### The step in progress -/

/-- Change the step in progress of flock `f`. -/
def State.modRun (s : State) (f : Nat) (g : StepRun → StepRun) : State :=
  s.modFlock f fun k => { k with run := k.run.map g }

/-- Change entry `i` of the step in progress of flock `f`. -/
def State.modPlanEntry (s : State) (f i : Nat) (g : PlanEntry → PlanEntry) : State :=
  s.modRun f fun r => { r with plan := { r.plan with entries := modAt g i r.plan.entries } }

/-- The step in progress of a flock. -/
def State.run? (s : State) (f : Nat) : Option StepRun := (assocGet f s.flocks).bind (·.run)

/-- Entry `i` of the step in progress of a flock. -/
def State.planEntry? (s : State) (f i : Nat) : Option PlanEntry := (s.run? f).bind fun r => r.plan.entries[i]?

/-- The code of a sit-out cause (Table 10.9). -/
def sitCode : SitCause → Nat
  | .streamLate => 1 | .promoteLate => 2 | .t3Late => 3 | .fallbackFull => 4 | .anchorTimeout => 5 | .fault => 6
  | .logitsMissing => 7

/-- Count in the Shepherd record of a pen and class (Table 5.8). -/
def State.bumpShep (s : State) (p : Nat) (lc : Bool) (c : ShepCtr) (n : Nat) : State := s.bumpPen p (.shep lc c) n

/-- Entry `i` of flock `f` sits out at `layer` (R121): it leaves the step, its appends are discarded, and the
accelerators receive SIT_OUT. -/
def State.sitOut (s : State) (f i layer : Nat) (c : SitCause) : State :=
  match assocGet f s.flocks with
  | none => s
  | some k =>
    match k.run, s.planEntry? f i with
    | some r, some e =>
      if e.sitOut.isSome || r.phase != .running then s
      else
        let s1 := s.modPlanEntry f i fun e => { e with sitOut := some c, appends := [], verdict := none }
        let p := handlePen e.handle
        let s2 := if c = .logitsMissing then s1.bumpPen p .logitsMissing 1 else s1.bumpShep p e.latencyCritical (.sit c) 1
        s2.slSendAll k.ports 1 4 3 r.plan.step
          (packBytes 16 [(12, i), (4, 0), (10, layer), (6, 0), (8, sitCode c), (88, 0)])
    | _, _ => s

/-- The entry of a session in the step in progress of its flock: flock and index. -/
def State.entryOf (s : State) (h : Handle) : Option (Nat × Nat) :=
  s.flocks.findSome? fun f => (f.2.run.bind fun r => (r.plan.entries.findIdx? fun e => e.handle == h)).map fun i => (f.1, i)

/-- The first layer of an entry for which some row's partial is still owed, in place of which a notice comes; 0x3FF where none
is owed, as for LOGITS_MISSING (DEDUCED, Table 10.9). -/
def PlanEntry.nextLayer (e : PlanEntry) (layers : Nat) : Nat :=
  ((List.range layers).find? fun l => !e.delivered.any fun d => d.1 == l).getD 0x3FF

/-- A session's entry in the step in progress, if any, sits out (R121). -/
def State.sitOutSession (s : State) (h : Handle) (c : SitCause) : State :=
  match s.entryOf h with
  | none => s
  | some (f, i) =>
    match s.run? f, s.planEntry? f i with
    | some r, some e => s.sitOut f i (e.nextLayer r.plan.layers.length) c
    | _, _ => s

end Sys2Proof.Machine
end

