-- ==== Sys2Proof/Machine/Keys.lean ====
section
/-!
DEFINITION. Derived keys and initialisation vectors (16_security R394 to R397, R400): what each key is derived from, and from
what the IV of a granule, a page and a chunk of a convergent object is made.
-/
namespace Sys2Proof.Machine

/-- An ASCII label. -/
def label (s : String) : List Byte := s.toList.map fun c => BitVec.ofNat 8 c.toNat

/-! ### Keys (Table 16.3) -/

/-- The info string of K_PEN: label, pen, generation. -/
def penInfo (pen gen : Nat) : List Byte := label "LYTHA-PEN" ++ natToBytes 2 pen ++ natToBytes 4 gen

/-- The info string of K_LINK from node `src` in incarnation `inc` to `dst`: label, lower node, higher node, sender. -/
def linkInfo (src dst inc : Nat) : List Byte :=
  label "LYTHA-LINK" ++ natToBytes 2 (min src dst) ++ natToBytes 2 (max src dst) ++ natToBytes 2 src ++ natToBytes 4 inc

/-- K_DEV: 96 bytes. -/
def devKey : List Byte := hkdf Config.deviceRoot [] (label "LYTHA-DEV") 96

/-- K_PEN of a pen in a generation: 96 bytes. -/
def penKey (pen gen : Nat) : List Byte := hkdf Config.deviceRoot [] (penInfo pen gen) 96

/-- K_LINK. -/
def linkKey (src dst inc : Nat) : List Byte := hkdf Config.groupKey [] (linkInfo src dst inc) 32

/-- K_CKPT of a pen. -/
def ckptKey (pen : Nat) : List Byte := hkdf Config.groupKey [] (label "LYTHA-CKPT" ++ natToBytes 2 pen) 32

/-- What the salt of N_CONV is the digest of: pen, FORMAT, COUNT, payload. -/
def nameInput (pen format count : Nat) (payload : List Byte) : List Byte :=
  natToBytes 2 pen ++ natToBytes 1 format ++ natToBytes 1 count ++ payload

/-- The convergent name N_CONV of a sheaf or strip of a pen. -/
def convName (pen format count : Nat) (payload : List Byte) : List Byte :=
  hkdf Config.groupKey (sha256 (nameInput pen format count payload)) (label "LYTHA-NAME") 32

/-- The convergent key K_CONV of a name. -/
def convKey (name : List Byte) : List Byte := hkdf Config.groupKey name (label "LYTHA-CONV") 32

/-- An output of 96 bytes: the AES-256-XTS key pair, then the tag key (R394). -/
def xtsKeys (k : List Byte) : List Byte := k.take 64
def tagKey (k : List Byte) : List Byte := k.drop 64

/-- The keys under which a pen's bytes lie (R388, R395): those of its present generation; none once entry to level 2 has erased
them and the engines derive none (R412). -/
def State.keyOf (s : State) (pen : Nat) : Option (List Byte) :=
  if s.debugPort.keysErased then none else some (penKey pen ((assocGet pen s.penGens).getD 0))

/-! ### Initialisation vectors (R396, R397, R400) -/

/-- The IV of a granule's tag in HBM: its address and four zero bytes. -/
def granuleIv (addr : Nat) : List Byte := natToBytes 8 addr ++ List.replicate 4 0

/-- The IV of a page's tag in flash: its logical address and the low four bytes of its version. -/
def pageIv (addr version : Nat) : List Byte := natToBytes 8 addr ++ natToBytes 4 version

/-- The version of a sheaf's pages, and of the pages of another run (R397). -/
def Sheaf.pageVersion (f : Sheaf) : Nat := f.version
def PageRun.pageVersion (r : PageRun) : Nat := r.seq

/-- The nonce of chunk `i` of a convergent object. -/
def chunkNonce (i : Nat) : List Byte := natToBytes 4 i ++ List.replicate 8 0

end Sys2Proof.Machine
end

