-- ==== Sys2Proof/Machine/Numerics.lean ====
section
/-!
DEFINITION. The numerics of split attention (07_split_attention R174 to R181): unit partials, the merge and the fold, and
the records that carry partials.
-/
namespace Sys2Proof.Machine

/-- A partial (o, m, l) with its flags (R176). -/
structure Partial where
  m : F32 := 0xFF800000
  l : F32 := 0
  empty : Bool := true
  nonfinite : Bool := false
  out : List F32 := []
  deriving DecidableEq, Repr

/-- The NONFINITE partial (R175). -/
def nonfinitePartial : Partial := { m := f32Nan, l := f32Nan, empty := false, nonfinite := true }

/-- What attention needs to know beside queries and sheaves: a layout's fields, or a request's (Table 7.6). -/
structure AttnParams where
  latent : Bool
  causal : Bool
  queryHeads : Nat
  kvHeads : Nat
  headWidth : Nat
  latentWidth : Nat
  ropeWidth : Nat
  scoreScale : F32
  softcap : F32
  /-- The window of the layer, 0 for none, and the position below which positions are exempt from it (R169). -/
  window : Nat
  sinkEnd : Nat
  deriving DecidableEq, Repr

/-- A layout with the shape that the parameters give. -/
def AttnParams.shape (a : AttnParams) : Layout :=
  { id := 0, vocab := false, latent := a.latent, causal := a.causal, layers := 1, vocabSize := 768, kvHeads := a.kvHeads,
    headWidth := a.headWidth, queryHeads := a.queryHeads, latentWidth := a.latentWidth, ropeWidth := a.ropeWidth,
    nativeFormat := 0, sinkSheaves := 0, window := a.window, scoreScale := a.scoreScale, softcap := a.softcap,
    projectionSeed := 0, windowLayers := 0, raw := [] }

/-- The masks of a row at position `q` (R169). -/
def AttnParams.masked (a : AttnParams) (q x : Nat) : Bool :=
  (a.causal && decide (q < x)) || (decide (0 < a.window) && decide (x + a.window ≤ q) && decide (a.sinkEnd ≤ x))

/-- A row: its position, its query head and its query elements (R165, R181). -/
structure QRow where
  pos : Nat
  head : Nat
  query : List F32
  deriving DecidableEq, Repr

/-- A sheaf of a unit: start position and decoded position records. -/
abbrev UnitSheaf := Nat × List (List F32)

/-- The score of one key (R174). -/
def AttnParams.score (a : AttnParams) (r : QRow) (key : List F32) : F32 :=
  let s := f32Mul (dot r.query key) a.scoreScale
  if f32Lt 0 a.softcap then f32Mul a.softcap (f32Tanh (f32Div s a.softcap)) else s

/-- The KV head of a row (R181). -/
def AttnParams.kvHead (a : AttnParams) (r : QRow) : Nat := r.head * a.kvHeads / a.queryHeads

/-- The scores of one sheaf: none at masked slots. -/
def AttnParams.sheafScores (a : AttnParams) (home : Nat → Bool) (r : QRow) (f : UnitSheaf) : List (Option F32) :=
  (f.2.zip (List.range f.2.length)).map fun t =>
    let x := f.1 + t.2
    if a.masked r.pos x || home x then none else some (a.score r (a.shape.keyOf (a.kvHead r) t.1))

/-- The tile sum (R174): canonical sums of 128 slots, then left to right. -/
def tileSum (sheaves : List (List F32)) : F32 :=
  match sheaves.map fun f => canonicalSum (f ++ List.replicate (128 - f.length) 0) with
  | [] => 0
  | t :: ts => ts.foldl f32Add t

/-- The largest score of a list that is not NaN anywhere; NaN if one is. -/
def maxScore (l : List F32) : F32 :=
  if l.any f32IsNan then f32Nan else l.foldl f32Max 0xFF800000

/-- A unit's row partial (R174, R175). `home` marks step positions whose KV is already at home (R169). -/
def AttnParams.unitPartial (a : AttnParams) (home : Nat → Bool) (r : QRow) (sheaves : List UnitSheaf) : Partial :=
  let sc := sheaves.map (a.sheafScores home r)
  let live := sc.flatMap fun l => l.filterMap id
  if live.isEmpty then {}
  else if live.any (fun s => !f32IsFinite s) then nonfinitePartial
  else
    let m := maxScore live
    let p := sc.map fun l => l.map fun s => s.map fun s => f32ToBf16 (f32Exp (f32Sub s m))
    let l := tileSum (p.map fun q => q.map fun s => s.getD 0)
    let vals := sheaves.map fun f => f.2.map (a.shape.valueOf (a.kvHead r))
    let w := if a.latent then a.latentWidth else a.headWidth
    let acc := (List.range w).map fun i =>
      tileSum (List.zipWith (fun ps (vs : List (List F32)) =>
        List.zipWith (fun p v => match p with | some p => f32Mul p (v.getD i 0) | none => (0 : F32)) ps vs) p vals)
    if acc.any (fun s => !f32IsFinite s) then nonfinitePartial
    else { m := m, l := l, empty := false, out := acc.map fun x => f32Div x l }

/-- The merge of R177. -/
def Partial.merge (a b : Partial) : Partial :=
  if a.nonfinite || b.nonfinite then nonfinitePartial
  else if a.empty then b
  else if b.empty then a
  else
    let m := f32Max a.m b.m
    let wa := f32Mul a.l (f32Exp (f32Sub a.m m))
    let wb := f32Mul b.l (f32Exp (f32Sub b.m m))
    let l := f32Add wa wb
    { m := m, l := l, empty := false,
      out := List.zipWith (fun x y => f32Div (f32Add (f32Mul x wa) (f32Mul y wb)) l) a.out b.out }

/-- The fold of R178: units in order, left to right. -/
def foldPartials : List Partial → Partial
  | [] => {}
  | u :: us => us.foldl Partial.merge u

/-- The largest unmasked score of a sheaf for a row, −∞ when there is none; NaN counts as −∞ (R173, R196). -/
def AttnParams.sheafMax (a : AttnParams) (home : Nat → Bool) (r : QRow) (f : UnitSheaf) : F32 :=
  ((a.sheafScores home r f).filterMap id).foldl (fun m s => if f32IsNan s then m else f32Max m s) 0xFF800000

/-- An FP32 result as stored: a NaN carries free sign and payload bits. -/
def f32Stored (x : F32) : Nat :=
  if f32IsNan x then (0x7FC00000 ||| ((Config.nanBits x.toNat) &&& 0x803FFFFF)).toNat else x.toNat

/-- The partial row record of Table 7.3 with its output elements. -/
def Partial.record (p : Partial) : List Byte :=
  packBytes 16 [(32, p.m.toNat), (32, p.l.toNat), (1, bitNat p.empty), (1, bitNat p.nonfinite),
    (1, bitNat (p.empty || p.nonfinite)), (61, 0)]
  ++ (if p.empty || p.nonfinite then [] else p.out.flatMap fun x => natToBytes 4 (f32Stored x))

/-- A partial group (Table 7.2): KIND 0 DEVICE, 1 LEASE, 2 TILE. -/
def partialGroup (entry layer kind first tile : Nat) (ps : List Partial) : List Byte :=
  packBytes 16 [(12, entry), (4, 0), (10, layer), (2, kind), (4, 0), (26, first), (6, 0), (13, ps.length), (3, 0),
    (11, tile), (37, 0)] ++ ps.flatMap Partial.record

/-- The records of a partial group as a pool sends it (R187): rows of `w` output elements; the bytes that follow. -/
def readPartials (w : Nat) : Nat → List Byte → List Partial × List Byte
  | 0, bs => ([], bs)
  | n + 1, bs =>
    let flags := bytesAt bs 8 1
    let p : Partial := { m := BitVec.ofNat 32 (bytesAt bs 0 4), l := BitVec.ofNat 32 (bytesAt bs 4 4),
                         empty := bitOf flags 0, nonfinite := bitOf flags 1,
                         out := if bitOf flags 2 then [] else (List.range w).map fun i =>
                           BitVec.ofNat 32 (bytesAt bs (16 + 4 * i) 4) }
    let r := readPartials w n (bs.drop (16 + (if bitOf flags 2 then 0 else 4 * w)))
    (p :: r.1, r.2)

end Sys2Proof.Machine
end

