-- ==== Sys2Proof/Machine/Index.lean ====
section
/-!
DEFINITION. Vector indexes and search (08_sketch_search R201 to R212), with their mailbox and ring commands.
-/
namespace Sys2Proof.Machine

/-! ### PARAMS (Table 8.4) -/

/-- Sketch bits of an index. -/
def indexSketchBits (params : BitVec 64) : Nat := 256 * 2 ^ bitsOf params.toNat 16 2
/-- The number of strips. -/
def indexStrips (params : BitVec 64) : Nat := 2 ^ bitsOf params.toNat 20 5
/-- Candidates per result. -/
def indexCandFactor (params : BitVec 64) : Nat := let c := bitsOf params.toNat 28 4; if c = 0 then 4 else c
/-- Strips per probe round. -/
def indexProbes (params : BitVec 64) : Nat := bitsOf params.toNat 32 8 + 1

/-- Change index `id` of pen `p`. -/
def State.modIndex (s : State) (p id : Nat) (g : Index → Index) : State :=
  s.modPen p fun q => { q with indexes := assocMod id g q.indexes }

/-- The index of a pen, one being destroyed included. -/
def State.rawIndex? (s : State) (p id : Nat) : Option Index := (s.pen? p).bind fun q => assocGet id q.indexes

/-- The checks of R201, by descriptor byte. -/
def indexChecks (params : BitVec 64) : List (Nat × Bool) :=
  let v := params.toNat
  let f := indexFormat params
  -- a relation of DIM and ELEM_FORMAT is placed at the field that lies last (R449)
  [(25, !(f == 0 || f == 1 || f == 2 || f == 8) || (f == 8 && indexDim params % 32 != 0)),
   (26, bitsOf v 16 2 == 3 || bitsOf v 18 2 == 3 || decide (16 < bitsOf v 20 5))]

/-- INDEX_CREATE (R201). -/
def execIndexCreate (mb : Mb) (s : State) : Out :=
  mbRun s mb 0x0072 fun s c =>
    withPen s mb c.desc 4 fun p q =>
      let id := operand c.desc 0 4
      let params := BitVec.ofNat 64 (operand c.desc 8 8)
      unlessBad s ((16, assocHas id q.indexes) :: indexChecks params) <|
        if decide (64 ≤ q.indexes.length) || decide (4096 ≤ (s.pens.map fun r => r.2.indexes.length).sum) then
          .now s (rStatus .quota)
        else .now (s.modPen p fun q => { q with indexes := assocSet id { params := params } q.indexes }) rOk

/-! ### Snapshots outstanding -/

/-- The searches of an index admitted at the Tollgate and not yet at the gleaners: snapshot and generation. -/
def State.queuedSearches (s : State) (p id : Nat) : List (Nat × Nat) :=
  let ofCmd (c : RingCmd) : Option (Nat × Nat) :=
    if c.pen = p && descOpcode c.desc == 0x0123 && operand c.desc 0 4 == id then c.snapshot.map fun t => (t.1, t.2.1) else none
  s.dispatched.filterMap ofCmd ++ (match s.pen? p with
    | none => []
    | some q => q.rings.flatMap fun g => g.2.admitted.filterMap ofCmd)

/-- Snapshots and generations of every search admitted and not complete. -/
def State.openSearches (s : State) (p id : Nat) : List (Nat × Nat) :=
  (match s.rawIndex? p id with
    | none => []
    | some x => x.searches.map fun q => (q.snapshot, q.generation)) ++ s.queuedSearches p id

/-- INDEX_DESTROY ends once the searches admitted have: the index's space is freed (R207). -/
def State.tryDestroyIndex (s : State) (p id : Nat) : State :=
  match s.rawIndex? p id with
  | none => s
  | some x =>
    match x.destroying with
    | none => s
    | some ref =>
      if (s.openSearches p id).isEmpty then
        (s.modPen p fun q => { q with indexes := assocDel id q.indexes }).mbFinish ref rOk
      else s

/-- INDEX_DESTROY (R207). -/
def execIndexDestroy (mb : Mb) (s : State) : Out :=
  mbRun s mb 0x0073 fun s c =>
    withPen s mb c.desc 4 fun p _ =>
      let id := operand c.desc 0 4
      unlessBad s [(16, (s.index? p id).isNone)] <|
        .later ((s.modIndex p id fun x => { x with destroying := some ⟨mb, c⟩, destroyAt := s.clock.now }).tryDestroyIndex p id)

/-! ### Inserts, deletes and commits -/

/-- The index a ring command acts on: none once its INDEX_DESTROY was accepted before the command's admission (R207). -/
def State.indexFor (s : State) (c : RingCmd) : Option Index :=
  (s.rawIndex? c.pen (operand c.desc 0 4)).bind fun x =>
    -- in the cycle of the acceptance, what the admission found decides
    if x.destroying.isSome && (decide (x.destroyAt < c.admitted) || c.snapshot.isNone) then none else some x

/-- Records of `n` bytes: those of an insert or delete batch (Table 8.5). -/
def batchRecords (n count : Nat) (bs : List Byte) : List (List Byte) :=
  (List.range count).map fun i => (bs.drop (i * n)).take n ++ List.replicate (n - ((bs.drop (i * n)).take n).length) 0

/-- Compaction is due by the sizes of R206. -/
def Index.mustCompact (x : Index) : Bool :=
  decide (2 ^ 23 < (x.versions.filter fun v => v.gen.isNone).length)
    || decide (x.versions.length < 16 * x.tombstones)

/-- Start the compaction where R206 asks for it. -/
def Index.checkCompact (x : Index) : Index := if x.mustCompact then { x with compacting := true } else x

/-- Inserts among pending operations. -/
def pendingInserts (ops : List IndexOp) : Nat :=
  (ops.filter fun o => match o with | .insert .. => true | .delete _ => false).length

/-- Versions of every index of the device, pending ones included (R212). -/
def State.versionCount (s : State) : Nat :=
  (s.pens.map fun q => (q.2.indexes.map fun x => x.2.versions.length + pendingInserts x.2.pending).sum).sum

/-- INDEX_INSERT (R202, R203, R212). `records` is what stands at ADDR in control-node memory. -/
def execIndexInsert (pen ring : Nat) (records : List Byte) (s : State) : Out :=
  ringRun s pen ring 0x0120 fun s c =>
    let id := operand c.desc 0 4
    let count := operand c.desc 16 4
    match s.indexFor c with
    | none => .now s (rBad 16)
    | some x =>
      let v := indexVectorBytes x.params
      let recs := batchRecords (16 + v) count records
      if 65536 < count then .now s (rStatus .badLength)
      else if recs.any fun r => bytesAt r 8 8 != 0 then .now s (rBad 24)
      else if 0 < count && decide (2 ^ 24 < x.sideCount + count) then
        let r := retryLater (s.modIndex pen id fun x => { x with compacting := true })
        .now r.1 r.2
      else if count = 0 then .now s rOk
      else if decide (s.quota pen .t1 < s.used pen .t1 + count * Config.sideEntryBytes x.params.toNat)
          || decide (2 ^ 36 < s.versionCount + count) then .now (s.bumpPen pen .quotaRefusals 1) (rStatus .quota)
      else
        .now (s.modIndex pen id fun x =>
          { x with pending := x.pending ++ recs.map fun r => IndexOp.insert (bytesAt r 0 6) (bytesAt r 6 2) (r.drop 16) }) rOk

/-- INDEX_DELETE (R202, R203). -/
def execIndexDelete (pen ring : Nat) (records : List Byte) (s : State) : Out :=
  ringRun s pen ring 0x0121 fun s c =>
    let id := operand c.desc 0 4
    let count := operand c.desc 16 4
    match s.indexFor c with
    | none => .now s (rBad 16)
    | some x =>
      let recs := batchRecords (16 + indexVectorBytes x.params) count records
      if 65536 < count then .now s (rStatus .badLength)
      else if recs.any fun r => (r.drop 6).any (· != 0) then .now s (rBad 24)
      else .now (s.modIndex pen id fun x =>
        { x with pending := x.pending ++ recs.map fun r => IndexOp.delete (bytesAt r 0 6) }) rOk

/-- The sketch of a stored vector: the index's seed is INDEX_ID + PEN × 2^32 (R192, R194). -/
def indexSketch (p id : Nat) (params : BitVec 64) (x : List F32) : BitVec 1024 :=
  BitVec.ofNat 1024 (sketchBits (id + p * 2 ^ 32) 0 (indexSketchBits params) x)

/-- Mark the live version of an item deleted at `n` (R203). -/
def deleteItem (n item : Nat) (vs : List IndexVersion) : List IndexVersion :=
  vs.map fun v => if v.item = item && v.delSeq.isNone then { v with delSeq := some n } else v

/-- One committed operation at sequence `n` (R203). -/
def Index.apply (x : Index) (p id n : Nat) (vs : List IndexVersion) : IndexOp → List IndexVersion
  | .delete item => deleteItem n item vs
  | .insert item label vec =>
    let sk := indexSketch p id x.params (decodeElems (indexFormat x.params) (indexDim x.params) vec)
    deleteItem n item vs ++ [{ item := item, label := label, vector := vec, insSeq := some n, sketch := sk }]

/-- INDEX_COMMIT (R203). -/
def execIndexCommit (pen ring : Nat) (s : State) : Out :=
  ringRun s pen ring 0x0122 fun s c =>
    let id := operand c.desc 0 4
    match s.indexFor c with
    | none => .now s (rBad 16)
    | some x =>
      if x.pending.isEmpty then .now s { result := x.commitSeq }
      else if 0xFFFFFFFFFFFF ≤ x.commitSeq + 1 then .now s (rStatus .quota)
      else
        let n := x.commitSeq + 1
        .now (s.modIndex pen id fun x =>
          ({ x with commitSeq := n, versions := x.pending.foldl (x.apply pen id n) x.versions, pending := [],
                    waiting := some (x.waiting.getD s.clock.now) }).checkCompact) { result := n }

/-! ### Compaction (R205, R206) -/

/-- The strip of a version: the low bits of its sketch (R205). -/
def Index.stripOf (x : Index) (v : IndexVersion) : Nat := v.sketch.toNat % indexStrips x.params

/-- Bytes of one flash sketch entry (Table 8.6). -/
def sketchEntryBytes (params : BitVec 64) : Nat := 24 + indexSketchBits params / 8

/-- Sketch pages of `n` entries: no entry spans two pages (R205). -/
def sketchPages (params : BitVec 64) (n : Nat) : Nat := ceilDiv n (4096 / sketchEntryBytes params)

/-- Vector pages of `n` records: whole records to a page; a record larger than a page takes whole pages. -/
def vectorPages (params : BitVec 64) (n : Nat) : Nat :=
  let v := indexVectorBytes params
  if v ≤ 4096 then ceilDiv n (4096 / v) else n * ceilDiv v 4096

/-- Bytes of the strip pages that hold the versions `vs`. -/
def Index.pageBytes (x : Index) (vs : List IndexVersion) : Nat :=
  4096 * (((vs.map x.stripOf).eraseDups).map fun t =>
    let n := (vs.filter fun v => x.stripOf v == t).length
    sketchPages x.params n + vectorPages x.params n).sum

/-- Replaced generations that no search of an earlier generation reads any more are freed (R206). -/
def State.freeGenerations (s : State) (p id : Nat) : State :=
  let live := (s.openSearches p id).map (·.2)
  s.modIndex p id fun x => { x with old := x.old.filter fun o => live.any fun g => decide (g ≤ o.1) }

/-- The next generation made current in one update (R206): it waits while the pen's T2 quota cannot take it (R212). -/
def State.compact (s : State) (p id : Nat) : State :=
  match s.rawIndex? p id with
  | none => s
  | some x =>
    if !x.compacting then s
    else
      let horizon := ((s.openSearches p id).map (·.1)).foldl min x.commitSeq
      let kept := x.versions.filter fun v => match v.delSeq with | some d => decide (horizon < d) | none => true
      let bytes := x.pageBytes kept
      if s.quota p .t2 < s.used p .t2 + bytes then s
      else
        let g := x.generation + 1
        let s1 := s.modIndex p id fun x =>
          { x with generation := g, genSeq := x.commitSeq, stripBytes := bytes, waiting := none, compacting := false,
                   versions := kept.map fun v => { v with gen := some (v.gen.getD g) },
                   old := x.old ++ [(x.generation, x.stripBytes,
                     (x.versions.filter fun v => v.gen.isNone).length, x.tombstones)] }
        (s1.freeGenerations p id).bumpPen p .compactions 1

/-- COMPACTION_TIMER: a commit has waited 2^26 cycles uncompacted (R206). -/
def execCompactionTimer (p id : Nat) (s : State) : Out :=
  match s.rawIndex? p id with
  | none => stutter s
  | some x =>
    match x.waiting with
    | none => stutter s
    | some t => if x.compacting then stutter s
      else .next ((s.at_ (t + 2 ^ 26)).modIndex p id fun x => { x with compacting := true })

/-! ### Search (R208 to R211) -/

/-- Visible at a snapshot (R204). -/
def IndexVersion.visible (v : IndexVersion) (snap : Nat) : Bool :=
  (match v.insSeq with | some i => decide (i ≤ snap) | none => false)
    && (match v.delSeq with | some d => decide (snap < d) | none => true)

/-- FILTER (R208): mask in bits 31:16, value in bits 15:0. -/
def filterMatches (filter label : Nat) : Bool := label &&& (filter / 65536) == filter % 65536

/-- A FILTER with a value bit outside its mask. -/
def filterBad (filter : Nat) : Bool := (filter % 65536) &&& (filter / 65536) != filter % 65536

/-- The probe order of a query prefix (R205). -/
def probeOrder (strips prefix_ : Nat) : List Nat :=
  (top (fun a b => decide (a < b)) ((List.range strips).map fun t => (hamming 16 t prefix_, t)) strips).map (·.2)

/-- The strip of a version in generation `g`; none when `g` has it in the side list. -/
def Index.stripIn (x : Index) (g : Nat) (v : IndexVersion) : Option Nat :=
  match v.gen with | some k => if k ≤ g then some (x.stripOf v) else none | none => none

/-- Entries of generation `g`'s side list and of the strips `ts`. -/
def Index.scanned (x : Index) (g : Nat) (ts : List Nat) : List IndexVersion :=
  x.versions.filter fun v => match x.stripIn g v with | some t => ts.contains t | none => true

/-- The strips a search ends up probing: `n` grows by rounds while WIDEN finds too few (R208). -/
def widenTo (matched : Nat → Nat) (k probes limit : Nat) : Nat → Nat → Nat
  | 0, n => n
  | fuel + 1, n => if decide (matched n < k) && decide (n < limit)
      then widenTo matched k probes limit fuel (min (n + probes) limit) else n

/-- The exact score of a stored vector (R209). -/
def exactScore (metric : Nat) (q v : List F32) : F32 :=
  match metric with
  | 0 => dot q v
  | 1 =>
    let a := f32Sqrt (dot q q)
    let b := f32Sqrt (dot v v)
    if bitsOf a.toNat 0 31 = 0 ∨ bitsOf b.toNat 0 31 = 0 then f32Nan else f32Div (dot q v) (f32Mul a b)
  | _ => let d := List.zipWith f32Sub q v
    f32Neg (dot d d)

/-- Score descending, NaN below every other, then the lower item id (R208, R209). -/
def rankLe (a b : F32 × IndexVersion) : Bool :=
  if f32IsNan a.1 && !f32IsNan b.1 then false
  else if !f32IsNan a.1 && f32IsNan b.1 then true
  else f32Lt b.1 a.1 || (!f32Lt a.1 b.1 && decide (a.2.item ≤ b.2.item))

/-- The BF16 elements of a query vector (R201). -/
def decodeQuery (n : Nat) (bs : List Byte) : List F32 := (List.range n).map fun i => bf16ToF32 (bytesAt bs (2 * i) 2)

/-- What a search returns: result records, SHORT, WIDENED, strips probed, entries compared. -/
structure SearchResult where
  records : List (List Byte)
  short : Bool
  widened : Bool
  probed : Nat
  compared : Nat
  deriving DecidableEq, Repr

/-- A search's result, a fixed function of its snapshot, generation, query and operands (R208, R210). -/
def Index.search (x : Index) (p id : Nat) (q : Search) : SearchResult :=
  let dim := indexDim x.params
  let query := decodeQuery dim q.query
  let sk := (indexSketch p id x.params query).toNat
  let strips := indexStrips x.params
  let order := probeOrder strips (sk % strips)
  let limit := min q.stripLimit strips
  let n0 := min (indexProbes x.params) limit
  let found (n : Nat) : List IndexVersion :=
    (x.scanned q.generation (order.take n)).filter fun v => v.visible q.snapshot && filterMatches q.filter v.label
  let n := if q.widen then widenTo (fun n => (found n).length) q.k (indexProbes x.params) limit limit n0 else n0
  let m := found n
  let cand := topNat (m.map fun v => (hamming (indexSketchBits x.params) v.sketch.toNat sk, v.item))
    (indexCandFactor x.params * q.k)
  let scored := cand.filterMap fun c => (m.find? fun v => v.item == c.2).map fun v =>
    (exactScore (bitsOf x.params.toNat 18 2) query
      (decodeElems (indexFormat x.params) dim v.vector), v)
  let best := (sortBy rankLe scored).take q.k
  { records := best.map fun r => packBytes 16 [(48, r.2.item), (16, r.2.label), (32, f32Stored r.1),
      (11, hamming (indexSketchBits x.params) r.2.sketch.toNat sk), (21, 0)],
    short := decide (m.length < q.k), widened := decide (n0 < n), probed := n,
    compared := (x.scanned q.generation (order.take n)).length }

/-- DETAIL of a search (R208). -/
def SearchResult.detail (r : SearchResult) : Nat := bitNat r.short + 2 * bitNat r.widened + 4 * r.probed

/-- The service steps a search is bounded by (R211), over the gleaners of the census at its admission. -/
def searchSteps (gleaners : Nat) (x : Index) (p id : Nat) (q : Search) : Nat :=
  let strips := indexStrips x.params
  let sk := (indexSketch p id x.params (decodeQuery (indexDim x.params) q.query)).toNat
  let limit := min q.stripLimit strips
  let n := if q.widen then limit else min (indexProbes x.params) limit
  let z := 4096 * (((probeOrder strips (sk % strips)).take n).map fun t =>
    sketchPages x.params (x.versions.filter fun v => x.stripIn q.generation v == some t).length).sum
  ceilDiv z (max 1 gleaners * 4423680) + 2

/-- Count a completed search (Table 8.9). -/
def State.countSearch (s : State) (p : Nat) (r : SearchResult) : State :=
  (((s.bumpPen p .searches 1).bumpPen p .entriesScanned r.compared).bumpPen p .shortResults
    (bitNat r.short)).bumpPen p .widened (bitNat r.widened)

/-- A search's scans end: its results are written and it completes (R208); a remote one is answered (11 R303). -/
def State.finishSearch (s : State) (p id : Nat) (q : Search) : State :=
  match s.rawIndex? p id with
  | none => s
  | some x =>
    let r := x.search p id q
    let s1 := ((s.modIndex p id fun x => { x with searches := x.searches.filter (· != q) }).countSearch p r)
    let s2 := match q.cmd, q.remote with
      | some c, _ =>
        (if r.records.isEmpty then s1 else s1.hostOut (.hostWrite q.resultsAddr r.records.flatten)).complete c
          { result := r.records.length, detail := r.detail }
      | none, some h => s1.respond h rsOk 0 (packNat [(32, r.records.length), (16, r.detail)]) r.records.flatten
      | none, none => s1
    ((s2.freeGenerations p id).tryDestroyIndex p id)

/-- The checks of R208, by descriptor byte, on SEARCH operands in their descriptor positions. -/
def searchChecks (noIndex : Bool) (d : Desc) : List (Nat × Bool) :=
  [(16, noIndex), (40, decide (1024 < operand d 24 2)), (42, decide (256 < operand d 26 2)),
   (44, filterBad (operand d 28 4))]

/-- A search of the operands `d` at a snapshot and generation. -/
def searchOf (d : Desc) (cmd : Option RingCmd) (remote : Option (BitVec 512)) (snap gen : Nat) (query : List Byte)
    (now : Nat) : Search :=
  { cmd := cmd, remote := remote, snapshot := snap, generation := gen, query := query, resultsAddr := operand d 16 8,
    k := operand d 24 2, stripLimit := operand d 26 2, filter := operand d 28 4, widen := descFlag d 24, stepsLeft := 0,
    admittedAt := now }

/-- SEARCH (R204, R208, R211): `query` is what stands at QUERY in control-node memory. -/
def execSearch (pen ring : Nat) (query : List Byte) (s : State) : Out :=
  ringRun s pen ring 0x0123 fun s c =>
    let id := operand c.desc 0 4
    match badAmong (searchChecks ((s.rawIndex? pen id).isNone || c.snapshot.isNone) c.desc) with
    | some k => .now s (rBad k)
    | none =>
      match s.rawIndex? pen id, c.snapshot with
      | some x, some (snap, gen, gleaners) =>
        let q := searchOf c.desc (some c) none snap gen (query.take (2 * indexDim x.params)) c.admitted
        if q.k = 0 || q.stripLimit = 0 then .now ((s.bumpPen pen .searches 1).tryDestroyIndex pen id) rOk
        else .later (s.modIndex pen id fun x =>
          { x with searches := x.searches ++ [{ q with stepsLeft := searchSteps gleaners x pen id q }] })
      | _, _ => .now s (rBad 16)

/-- Search work of one service step (R128, R211): every scan moves on by one step of its bound, unless promotions of
plans take its channels' time; those at their end complete. -/
def State.searchStep (s : State) (p id : Nat) : State :=
  match s.rawIndex? p id with
  | none => s
  | some x =>
    let busy := decide (0 < x.stripBytes) && s.moves.any fun m => m.forPlan.isSome && m.src == .t2 && m.state == .copying
    if busy then s.bumpPen p .scanYields x.searches.length
    else
      let s1 := s.modIndex p id fun x => { x with searches := x.searches.map fun q => { q with stepsLeft := q.stepsLeft - 1 } }
      match s1.rawIndex? p id with
      | none => s1
      | some y => (y.searches.filter fun q => q.stepsLeft == 0).foldl (fun t q => t.finishSearch p id q) s1

end Sys2Proof.Machine
end

