-- ==== Sys2Proof/Machine/Regrow.lean ====
section
/-!
DEFINITION. Data faults and recovery (02_sessions R40, 06 R147, 12_ledger_and_harvest R317, R318).
-/
namespace Sys2Proof.Machine

/-! ### LIFE of a session's registry entry -/

/-- REG_LIFE (Table 11.8), asked for by the home: whether the entry reads so at once. LIVE raises LOC_VERSION (R36). -/
def State.regLife (s : State) (h : Handle) (life : Life) : State × Bool :=
  let code := natToBytes 1 (lifeCode life)
  if s.regIsHere h then
    match s.entry? h with
    | some e =>
      if e.life = life then (s.modSess h fun x => { x with homeVersion := e.locVersion }, true)
      else match s.regHere h 0x24 code (.life h life) with
        | (s1, some e1) => (s1.modSess h fun x => { x with homeVersion := e1.locVersion }, true)
        | (s1, none) => (s1, false)
    | none => (s, false)
  else (s.regAway h 0x24 (s.registryBody h ++ code) (.life h life), false)

/-! ### The end of regrowth (R40) -/

/-- The sheaf that a map entry names, at its owner. -/
def State.sheafAt (s : State) (f : Sheaf) : Option Sheaf :=
  if !f.shared then some f
  else (s.sess? f.owner).bind fun o => o.map.find? fun g =>
    !g.shared && g.owner == f.owner && g.layer == f.layer && g.ordinal == f.ordinal

/-- A map entry whose content is missing, at its owner. -/
def State.isMissing (s : State) (f : Sheaf) : Bool :=
  match s.sheafAt f with | some g => g.missing | none => true

/-- The lowest position whose KV is missing in some layer, if any (R317). -/
def State.lowestMissing (s : State) (x : Session) : Option Nat :=
  (x.map.filter s.isMissing).foldl (fun m f =>
    let held := match s.sheafAt f with | some g => g.startPos + g.count | none => f.startPos
    let p := if f.shared then f.startPos else min held (f.startPos + f.count)
    some (match m with | none => p | some q => min p q)) none

/-- The park cause that the Ledger's last entry implies (R40). -/
def ledgerCause (l : Layout) (x : Session) : ParkCause :=
  match x.region.recs.getLast? with
  | some r =>
    if r.kind = kHostPark then .host
    else match x.region.hist.getLast? with
      | some (id, _, _) => (parkOf l id).getD
          (if x.isPrefix then .prefixDone else if 2 ^ 27 ≤ x.positions then .limit else .stop)
      | none => .stop
  | none => .stop

/-- The state in which a session leaves FAULTED (R40). -/
def Session.afterRegrowth (x : Session) (l : Layout) (now : Nat) : Session :=
  let y := { x with faultCause := none, regrowing := false, rehoming := false, parkRecorded := false }
  if x.parkRecorded then { y with state := .parked, parkCause := some .host, parkedSince := now }
  else if x.inputPending || (match x.region.hist.getLast? with
      | some (id, true, _) => (parkOf l id).isNone | _ => false) then
    { y with state := .runnable, parkCause := none, readyCycle := now, runLength := 0 }
  else if x.positions = 0 then { y with state := .opened, parkCause := none }
  else { y with state := .parked, parkCause := some (ledgerCause l x), parkedSince := now }

/-- The registry names this home LIVE again: the session leaves FAULTED (R40, 01 R23). -/
def State.finishRegrowth (s : State) (h : Handle) : State :=
  match s.sess? h with
  | none => s
  | some x =>
    match s.layout? x.layout with
    | none => s
    | some l =>
      let p := handlePen h
      let y := x.afterRegrowth l s.clock.now
      let s2 := ((s.modSess h fun _ => y).bumpPen p .regrows 1).bumpPen p .faultedCycles (s.clock.now - x.faultedSince)
      match y.state, y.parkCause with
      | .parked, some c => (s2.raiseParked h c).settleOutput h false true
      | _, _ => s2

/-- Regrowth is complete when KV_POSITIONS reaches POSITIONS and nothing is missing (R317): LIFE returns to LIVE, and with
it the session leaves FAULTED; until the registry has answered no step uses its data (01 R23). -/
def State.endRegrowth (s : State) (h : Handle) : State :=
  match s.sess? h with
  | none => s
  | some x =>
    if x.state = .faulted && x.regrowing && !x.rehoming && (s.lowestMissing x).isNone
        && decide (x.positions ≤ x.kvPositions) then
      match s.regLife h .live with
      | (s1, true) => s1.finishRegrowth h
      | (s1, false) => s1.modSess h fun x => { x with rehoming := true }
    else s

/-! ### Recovery (R317) -/

/-- A session object's key in the last committed checkpoint (Table 12.4). -/
def hexDigit (n : Nat) : Byte := BitVec.ofNat 8 (if n < 10 then 48 + n else 87 + n)

/-- `n` hex digits, most significant first. -/
def hexOf : Nat → Nat → List Byte
  | 0, _ => []
  | n + 1, v => hexOf n (v / 16) ++ [hexDigit (v % 16)]

/-- The checkpoint prefix P of R321. -/
def ckptPrefix (name : List Byte) (node seq : Nat) : List Byte := name ++ [47] ++ hexOf 4 node ++ [47] ++ hexOf 16 seq

/-- The key of a session object under a checkpoint prefix. -/
def sessionKey (stem : List Byte) (h : Handle) : List Byte := stem ++ [47, 115, 47] ++ hexOf 16 h.toNat

/-- A GET of up to 8 MiB of an object (Table 11.11). -/
def getBody (key : List Byte) (off len : Nat) : List Byte :=
  natToBytes 2 key.length ++ key ++ natToBytes 8 off ++ natToBytes 4 len

/-- Mark the owned sheaves that `lost` names as missing (R317). -/
def Session.loseSheaves (x : Session) (h : Handle) (lost : Sheaf → Bool) : Session :=
  { x with map := x.map.map fun f =>
      if f.owner == h && !f.shared && lost f then
        { f with missing := true, payload := [], tier := .t1, node := 0, location := 0, sketchValid := false } else f }

/-- Start regrowth of what is missing: KV_POSITIONS falls to the lowest missing position, and ends it at once when
nothing is missing (R317, R24). -/
def State.planRegrowth (s : State) (h : Handle) : State :=
  match s.sess? h with
  | none => s
  | some x =>
    let kv := min x.positions (match s.lowestMissing x with | some p => min p x.kvPositions | none => x.kvPositions)
    (s.modSess h fun x => { x with regrowing := true, kvPositions := kv }).endRegrowth h

/-- The part of recover(h) of R317 that rests on the Ledger alone: every sheaf is missing. -/
def State.recoverFromLedger (s : State) (h : Handle) : State :=
  match s.sess? h with
  | none => s
  | some x =>
    if x.region.recs.any (fun r => r.kind == kOpen) || !x.region.waiting.isEmpty then
      (s.modSess h fun x => x.loseSheaves h fun _ => true).planRegrowth h
    else (s.bumpPen (handlePen h) .regrowBlocked 1).raise (handlePen h) 0x0306 h.toNat 0

/-- recover(h) of R317 for a session in FAULTED, whose committed groups are those of its region. In a restore the
checkpoint is the one being restored, whatever the groups held here (R326). -/
def State.recover (s : State) (h : Handle) (lost : Sheaf → Bool) : State :=
  match s.sess? h with
  | none => s
  | some x =>
    if x.tier = .t2 then
      (s.modSess h fun x => x.loseSheaves h fun f => lost f || f.tier == .t1).planRegrowth h
    else match s.harvest.last, assocGet h s.harvest.captured with
      | some (stem, gw), some c =>
        if decide (c.ledgerStep ≤ x.ledgerStep) || s.harvest.restore.isSome then
          (s.modSess h fun x => { x.loseSheaves h (fun _ => true) with faultCause := some .restore }).request gw.toNat
            0x42 0 (getBody (sessionKey stem h) 0 8388608) (.storeGet (.session h))
        else s.recoverFromLedger h
      | _, _ => s.recoverFromLedger h

/-- The counter of a fault cause. -/
def faultCtr : FaultCause → PenCtr
  | .tagFail => .faultTagFail | .homeLost => .faultHomeLost | .restore => .faultRestore

/-- A session enters FAULTED (R40): the event, the counters, LIFE REGROW, and recovery. -/
def State.enterFaulted (s : State) (h : Handle) (c : FaultCause) (lost : Sheaf → Bool) : State :=
  let p := handlePen h
  let s1 := s.modSess h fun x =>
    { x with state := .faulted, faultCause := some c, parkCause := none, faultedSince := s.clock.now, flock := none,
             runLength := 0, regrowing := false, rehoming := false, parkRecorded := false }
  let s2 := ((((s1.endLeases h).bumpPen p .sessionFaults 1).bumpPen p (faultCtr c) 1).raise p 0x0303 h.toNat
    (faultCode c)).regLife h .regrow
  s2.1.recover h lost

/-- A data fault of session `h` (R40, R44, R294): its moves are abandoned and an open offer is withdrawn; a session in a
step sits out and faults at the boundary; one already FAULTED sits out too (R185) and regrows anew. -/
def State.faultSession (s : State) (h : Handle) (c : FaultCause) (lost : Sheaf → Bool) : State :=
  match s.sess? h with
  | none => s
  | some x =>
    let s1 := (s.abandonMovesOf h).setMoving
    let s2 := match x.handover with
      | some hd => if hd.offered then s1.withdrawOffer h else s1
      | none => s1
    match x.state with
    | .closed => s2.modSess h fun x => x.loseSheaves h lost
    | .running =>
      (s2.modSess h fun x => { x.loseSheaves h lost with faultCause := some c }).sitOutSession h .fault
    | .faulted =>
      let s3 := if x.rehoming then ((s2.modSess h fun x => { x with rehoming := false }).regLife h .regrow).1 else s2
      (s3.sitOutSession h .fault).recover h lost
    | _ => s2.enterFaulted h c lost

/-- Every session whose map names the sheaf faults with TAG_FAIL (R147). -/
def State.faultSheaf (s : State) (owner : Handle) (layer ordinal : Nat) : State :=
  let hit (f : Sheaf) : Bool := f.owner == owner && f.layer == layer && f.ordinal == ordinal
  let hs := (s.sessions.filter fun x => x.2.map.any hit).map (·.1)
  hs.foldl (fun t h => t.faultSession h .tagFail hit) s

end Sys2Proof.Machine
end

