-- ==== Sys2Proof/Machine/Structures.lean ====
section
/-!
DEFINITION. The stored and carried structures as bytes, both ways: sheaf entries (02 Table 2.6), leases (Table 2.7),
Ledger regions and records (12 Tables 12.1 and 12.2), session records (02 Table 2.3) and registry entries (Table 2.2).
-/
namespace Sys2Proof.Machine

/-! ### Sheaf entries -/

/-- The code of a tier (Table 2.6). -/
def tierCode : Tier → Nat
  | .t1 => 0 | .t2 => 1 | .t3 => 2

/-- The tier of a code. -/
def tierOf (n : Nat) : Tier := if n = 1 then .t2 else if n = 2 then .t3 else .t1

/-- A sheaf entry (Table 2.6); TIER, NODE, LOCATION and REFCOUNT as 0 when `plain`, and in a SHARED entry. -/
def Sheaf.entryBytes (f : Sheaf) (plain : Bool) : List Byte :=
  let z := plain || f.shared
  packBytes 64 [(64, f.owner.toNat), (20, f.ordinal), (10, f.layer), (1, bitNat f.isSealed), (1, bitNat f.shared),
    (27, f.startPos), (1, bitNat f.sketchValid), (4, f.format), (8, f.count), (2, if z then 0 else tierCode f.tier),
    (13, if z then 0 else f.node.toNat), (1, 0), (40, if z then 0 else f.location), (32, if z then 0 else f.refcount),
    (32, f.version), (256, f.sketch.toNat)]

/-- The sheaf entry in 64 bytes. -/
def parseEntry (bs : List Byte) : Sheaf :=
  let v := bytesToNat (bs.take 64)
  { owner := BitVec.ofNat 64 (bitsOf v 0 64), ordinal := bitsOf v 64 20, layer := bitsOf v 84 10, isSealed := bitOf v 94,
    shared := bitOf v 95, startPos := bitsOf v 96 27, sketchValid := bitOf v 123, format := bitsOf v 124 4,
    count := bitsOf v 128 8, tier := tierOf (bitsOf v 136 2), node := BitVec.ofNat 13 (bitsOf v 138 13),
    location := bitsOf v 152 40, refcount := bitsOf v 192 32, version := bitsOf v 224 32,
    sketch := BitVec.ofNat 256 (bitsOf v 256 256) }

/-- IDENT of an ALLOC that holds a sheaf (11 R283): bits 255:0 of its entry. -/
def Sheaf.ident (f : Sheaf) : List Byte := (f.entryBytes true).take 32

/-! ### Leases -/

/-- A lease descriptor (Table 2.7) with the slots to name. -/
def Lease.bytes (l : Lease) (flock base count : Nat) : List Byte :=
  packBytes 64 [(32, l.id), (2, bitNat l.speculative), (1, bitNat l.tail), (5, 0), (3, flock), (5, 0),
    (8, l.accelMask.toNat), (8, 0), (64, l.handle.toNat), (10, l.layerFirst), (11, l.layerCount), (11, 0),
    (20, l.firstOrdinal), (21, l.sheafCount), (7, 0), (4, l.format), (12, 0), (32, base), (32, count), (32, 0),
    (64, l.issueStep), (128, 0)]

/-! ### Ledger regions and records -/

/-- The author of a code. -/
def authorFrom (n : Nat) : Author := (authorOf n).getD .system

/-- Ids in 7-bit groups (R307): at most `n` of them. -/
def idsDecode : Nat → Nat → List Byte → List Nat
  | 0, _, _ => []
  | fuel + 1, acc, bs =>
    match bs with
    | [] => []
    | b :: rest =>
      -- `acc` packs the value so far and its scale
      let scale := acc % 2 ^ 36
      let v := acc / 2 ^ 36 + b.toNat % 128 * (if scale = 0 then 1 else scale)
      if b.toNat < 128 then v :: idsDecode fuel 0 rest
      else idsDecode fuel (v * 2 ^ 36 + (if scale = 0 then 1 else scale) * 128) rest

/-- One record at the start of a string, with its LAST bit and its length; none when it does not verify. -/
def parseRec (bs : List Byte) : Option (Rec × Bool × Nat) :=
  let v := bytesToNat (bs.take 32)
  let n := bitsOf v 160 32
  let body := (bs.drop 32).take n
  let kind := bitsOf v 64 4
  if bs.length < 32 + n then none
  else if crc32 (bs.take 28 ++ body) != bitsOf v 224 32 then none
  else
    let deferred := bitOf v 72
    let r : Rec := { step := bitsOf v 0 64, kind := kind, author := authorFrom (bitsOf v 68 2), sampled := bitOf v 70,
                     inherited := bitOf v 71, deferred := deferred,
                     firstPos := if deferred || bitsOf v 80 28 == 0xFFFFFFF then none else some (bitsOf v 80 28),
                     ids := if kind = kTokens then (idsDecode body.length 0 body).take (bitsOf v 112 17) else [],
                     body := if kind = kTokens then [] else body, isPrefix := bitOf v 208,
                     latencyCritical := bitOf v 209 }
    some (r, bitOf v 73, 32 + ceilDiv n 8 * 8)

/-- The records of a string, as far as they verify. -/
def parseRecs : Nat → List Byte → List Rec
  | 0, _ => []
  | fuel + 1, bs =>
    match parseRec bs with
    | none => []
    | some (r, _, n) => r :: parseRecs fuel (bs.drop n)

/-- The stream of a stream word, its staged ids taken from the front of a list. -/
def parseStream (v : Nat) (staged : List Nat) : Option Stream :=
  if bitOf v 0 then
    some { staged := staged.take (bitsOf v 38 23), segment := bitsOf v 1 8, author := authorFrom (bitsOf v 9 2),
           carry := natToBytes (bitsOf v 11 2) (bitsOf v 14 24), introPending := bitOf v 13 }
  else none

/-- The streams of a region header with the staged ids that follow one another (Table 12.1). -/
def parseStreams (hv : Nat) : List Nat → List Nat → List (Nat × Stream)
  | [], _ => []
  | k :: ks, staged =>
    match parseStream (bitsOf hv (320 + 64 * k) 64) staged with
    | some t => (k, t) :: parseStreams hv ks (staged.drop t.staged.length)
    | none => parseStreams hv ks staged

/-- 4-byte ids. -/
def idsOf (bs : List Byte) : List Nat := (List.range (bs.length / 4)).map fun i => bytesAt bs (4 * i) 4

/-! ### Session records -/

/-- STATE of a code (Table 2.4). -/
def sessStateOf (n : Nat) : SessState :=
  match n with
  | 1 => .opened | 2 => .runnable | 3 => .running | 5 => .closed | 6 => .faulted | _ => .parked

/-- PARK_CAUSE of a code. -/
def parkCauseOf (n : Nat) : Option ParkCause :=
  match n with
  | 1 => some .turnEnd | 2 => some .toolCall | 3 => some .deadEnd | 4 => some .stop | 5 => some .endOfSession
  | 6 => some .host | 7 => some .limit | 8 => some .prefixDone | _ => none

/-- The session record in 256 bytes (Table 2.3), with its handle. -/
def parseSession (bs : List Byte) : Handle × Session :=
  let v := bytesToNat (bs.take 256)
  let smp : Sampler :=
    { seed := BitVec.ofNat 64 (bitsOf v 512 64), temperature := BitVec.ofNat 32 (bitsOf v 576 32),
      topP := BitVec.ofNat 16 (bitsOf v 608 16), topK := bitsOf v 624 9, constraintSet := bitsOf v 640 16,
      deadEndStop := bitOf v 78, utf8Replace := bitOf v 79, substituteId := bitsOf v 672 18 }
  (BitVec.ofNat 64 (bitsOf v 0 64),
   { state := sessStateOf (bitsOf v 64 4), anchored := bitOf v 69, latencyCritical := bitOf v 70, isPrefix := bitOf v 71,
     layout := bitsOf v 72 6, sampler := smp, inThink := bitOf v 80, inToolCall := bitOf v 81, inputPending := bitOf v 82,
     parkCause := parkCauseOf (bitsOf v 84 4), positions := bitsOf v 96 28, kvPositions := bitsOf v 128 28,
     tailFill := bitsOf v 160 7, ledgerStep := bitsOf v 192 64, parent := BitVec.ofNat 64 (bitsOf v 256 64),
     sharedPositions := bitsOf v 320 28, childRefs := bitsOf v 352 32, sitOuts := bitsOf v 704 32,
     preemptions := bitsOf v 736 32, lastStep := bitsOf v 768 64 })

/-! ### History from records (R226, R309) -/

/-- What a region's committed records make of history: each positioned record's ids, PLACE records in their place. -/
def historyOf (recs : List Rec) : List (Nat × Bool × Bool) :=
  recs.flatMap fun r =>
    if r.kind = kTokens && r.firstPos.isSome then r.ids.map fun i => (i, r.sampled, r.author == .model)
    else if r.kind = kPlace then
      (recs.filter fun c => c.kind == kTokens && c.deferred && c.step == bytesToNat r.body).flatMap fun c =>
        c.ids.map fun i => (i, c.sampled, c.author == .model)
    else []

/-- A session's history, POSITIONS, flags and automaton rebuilt from its region (R317). -/
def Session.rebuild (x : Session) (l : Layout) (set : Option ConstraintSet) : Session :=
  let hist := historyOf x.region.recs
  let f := hist.foldl (fun f t => flagsAfter l f t.1) (false, false)
  { x with positions := hist.length, inThink := f.1, inToolCall := f.2, automaton := replayAutomaton set hist,
           region := { x.region with hist := hist } }

/-! ### Registry entries -/

/-- LIFE of a code (Table 2.2). -/
def lifeOf (n : Nat) : Life :=
  match n with
  | 1 => .live | 2 => .regrow | 3 => .closed | 4 => .exhausted | _ => .free

/-- The registry entry in 32 bytes. -/
def parseRegEntry (bs : List Byte) : RegEntry :=
  let v := bytesToNat (bs.take 32)
  { handle := BitVec.ofNat 64 (bitsOf v 0 64), locVersion := bitsOf v 64 64, home := BitVec.ofNat 13 (bitsOf v 128 13),
    offerNode := BitVec.ofNat 13 (bitsOf v 144 13), offerValid := bitOf v 157, flash := bitsOf v 160 2 == 1,
    life := lifeOf (bitsOf v 164 3), moving := bitOf v 167, isPrefix := bitOf v 168 }

/-! ### A session as a handoff carries it (11 R291)

The spec gives the order in which a session's data goes over (06 R153, Table 6.7), not a layout. Here (DESIGN CHOICE): the
payloads of the sealed sheaves, lowest layer first and then lowest ordinal; the snapshot, which is the map and the payloads
that have not gone yet; zeros up to the bytes reserved; the appends held of step k + 1; the Ledger records, the staged ids and
their header; the session record; and a trailer of five numbers of 8 bytes: map entries, bytes before the map, the bound on
the ordinals whose payloads stand there, bytes of held appends, staged ids. -/

/-- Map entries in the order of R153. -/
def mapOrder (fs : List Sheaf) : List Sheaf :=
  sortBy (fun a b => decide (a.layer < b.layer) || (a.layer == b.layer && decide (a.ordinal ≤ b.ordinal))) fs

/-- A map entry's payload goes over with it: its owner's, in T1 or T2. -/
def Sheaf.carried (f : Sheaf) : Bool := !f.shared && f.tier != .t3

/-- The sealed sheaves of the Sealed phase: those below ordinal `b`. -/
def Session.frontSheaves (x : Session) (b : Nat) : List Sheaf :=
  (mapOrder x.map).filter fun f => f.isSealed && f.carried && decide (f.ordinal < b)

/-- An ordinal above every sealed sheaf. -/
def Session.sealedBelow (x : Session) : Nat := ((x.map.filter (·.isSealed)).map fun f => f.ordinal + 1).foldl max 0

/-- What the snapshot of boundary k copies besides the record: the map, and the payloads that have not gone. -/
def Session.snapshotBytes (x : Session) (b : Nat) : List Byte :=
  let m := mapOrder x.map
  m.flatMap (fun f => f.entryBytes false)
    ++ (m.filter fun f => f.carried && !(f.isSealed && decide (f.ordinal < b))).flatMap (·.payload)

/-- The end of the stream: held appends, the Ledger, the record and the trailer. -/
def Session.finalBytes (x : Session) (h : Handle) (count front below : Nat) (held : List Byte) : List Byte :=
  let staged := x.region.stagedIds
  held ++ encodeRecs x.region.recs ++ staged.flatMap (natToBytes 4) ++ x.region.header h x.ledgerStep ++ x.bytes h
    ++ natToBytes 8 count ++ natToBytes 8 front ++ natToBytes 8 below ++ natToBytes 8 held.length
    ++ natToBytes 8 staged.length

/-- The bytes of a whole session as it stands. -/
def Session.handoffBytes (x : Session) (h : Handle) : List Byte :=
  let b := x.sealedBelow
  let front := (x.frontSheaves b).flatMap (·.payload)
  front ++ x.snapshotBytes b ++ x.finalBytes h x.map.length front.length b []

/-- Payloads given back to the entries that carry one, in order. -/
def fillPayloads (l : Layout) (take : Sheaf → Bool) : List Sheaf → List Byte → List Sheaf
  | [], _ => []
  | f :: fs, bs =>
    if take f then
      let n := sheafBytes l f
      { f with payload := bs.take n } :: fillPayloads l take fs (bs.drop n)
    else f :: fillPayloads l take fs bs

/-- The session that handed bytes hold, with the appends held for it, given its layout and constraint set by look-up. -/
def parseHandoff (layout? : Nat → Option Layout) (set? : Nat → Option ConstraintSet) (bs : List Byte) :
    Option (Handle × Session × List Byte) :=
  let n := bs.length - 40
  let count := bytesAt bs n 8
  let off := bytesAt bs (n + 8) 8
  let below := bytesAt bs (n + 16) 8
  let held := bytesAt bs (n + 24) 8
  let staged := 4 * bytesAt bs (n + 32) 8
  let (h, x) := parseSession (bs.drop (n - 256))
  match layout? x.layout with
  | none => none
  | some l =>
    let hv := bytesToNat ((bs.drop (n - 512)).take 256)
    let rb := bitsOf hv 256 64
    let ids := idsOf ((bs.drop (n - 512 - staged)).take staged)
    let recs := parseRecs rb ((bs.drop (n - 512 - staged - rb)).take rb)
    let region : Region := { recs := recs, localStep := bitsOf hv 64 64, outputPos := bitsOf hv 192 28,
                             streams := parseStreams hv [0, 1, 2, 3] ids }
    let y := { x with region := region }.rebuild l (set? x.sampler.constraintSet)
    let m := (List.range count).map fun i => parseEntry (bs.drop (off + 64 * i))
    let early (f : Sheaf) : Bool := f.isSealed && f.carried && decide (f.ordinal < below)
    let m1 := fillPayloads l early m bs
    let m2 := fillPayloads l (fun f => f.carried && !early f) m1 (bs.drop (off + 64 * count))
    some (h, { y with map := m2, inputEnd := y.positions }, (bs.drop (n - 512 - staged - rb - held)).take held)

end Sys2Proof.Machine
end

