-- ==== Sys2Proof/Machine/Moves.lean ====
section
/-!
DEFINITION. The move engines (06_tiers_and_drovers R137, R140, R144, R147, R150 to R158): queueing, starting, committing
and freeing moves, and the placement rules.
-/
namespace Sys2Proof.Machine

/-! ### Moves that end and begin (R150) -/

/-- A move is abandoned (Table 6.6). -/
def State.abandonMove (s : State) (m : Move) : State :=
  ((s.removeMove m).bumpPen (s.movePen m.subject) .movesAbandoned 1).setMoving

/-- A move is abandoned and asked for again (R137, R147, Table 6.8): a new move, with what the old one knew. -/
def State.askAgain (s : State) (m : Move) (retries : Nat) (pool : Option Nat) : State :=
  let t := (s.abandonMove m).queueMove m.subject m.src m.dst m.forPlan
  t.modMove s.nextMove fun n => { n with retries := retries, pool := pool, waited := m.waited, placed := m.placed }

/-! ### Promotion (R155, R158) -/

/-- Ask for the promotion of a sheaf: a demotion that is not committed is abandoned (R155, 08 R200), and one move serves
every plan that asks. -/
def State.askPromotion (s : State) (owner : Handle) (layer ordinal : Nat) (forPlan : Option Nat) : State :=
  let q := MoveSubject.sheaf owner layer ordinal
  let s1 : State := match s.openMove? q with
    | some m => if m.dst != .t1 && m.state != .freeing then s.abandonMove m else s
    | none => s
  match s1.subjectSheaves q with
  | [] => s1
  | f :: _ =>
    if f.tier = .t1 || f.missing then s1
    else match s1.openMove? q with
      | some m => s1.modMove m.id fun m => { m with forPlan := m.forPlan.or forPlan }
      | none => s1.queueMove q f.tier .t1 forPlan

/-- The flock where a session is or would be eligible: bound, anchored, or the lowest enabled one of its layout
(R105, R126). -/
def State.flockFor (s : State) (x : Session) : Option Nat :=
  x.flock.or (x.anchorFlock.or
    (((s.flocks.filter fun f => f.2.params.enable && f.2.params.layout == x.layout && f.2.destroying.isNone).map
      (·.1)).min?))

/-- The latest `n` sealed sheaves of each layer in a session's map. -/
def Session.hotSheaves (x : Session) (n : Nat) : List Sheaf :=
  x.map.filter fun f => f.isSealed && decide ((x.map.filter fun g => g.layer == f.layer && g.isSealed
    && decide (f.startPos < g.startPos)).length < n)

/-- Record, map, tails and the `n` latest sealed sheaves of each layer are promoted; uncommitted demotions are abandoned
(R153, R158). -/
def State.promoteHot (s : State) (h : Handle) (n : Nat) : State :=
  match s.sess? h with
  | none => s
  | some x =>
    let s1 := (s.moves.filter fun m => m.subject.owner == h && m.dst != .t1 && m.state != .freeing).foldl State.abandonMove s
    let s2 := if x.tier = .t1 && !x.map.any (fun f => !f.isSealed && f.tier != .t1) then s1
      else s1.queueMove (.session h) (if x.tier = .t1 then .t2 else x.tier) .t1 none
    (x.hotSheaves n).foldl (fun t f => t.askPromotion f.owner f.layer f.ordinal none) s2

/-- A session becomes RUNNABLE: what R158 names is promoted, by the HOT_SHEAVES of its flock. -/
def State.promoteSession (s : State) (h : Handle) : State :=
  match (s.sess? h).bind fun x => (s.flockFor x).bind fun f => assocGet f s.flocks with
  | some k => s.promoteHot h k.params.hotSheaves
  | none => s.promoteHot h 0

/-- PARKED_DEMOTE: 2^28 cycles after a session parked, when its pen has a T2 quota (R156). -/
def execParkedDemote (h : Handle) (s : State) : Out :=
  match s.sess? h with
  | none => stutter s
  | some x =>
    if x.state = .parked && x.tier = .t1 && decide (0 < s.quota (chargedPen (h, x)) .t2) then
      let s1 := s.at_ (x.parkedSince + 2 ^ 28)
      .next (s1.queueChosen .t1 (((s1.sessionSubjects h x .t1).filter fun q => (s1.openMove? q).isNone).map fun q =>
        (q, Tier.t2)))
    else stutter s

/-! ### Passes (R144, R146, R150) -/

/-- A payload transcoded from one format to another (R145). -/
def transcodePayload (l : Layout) (f : Sheaf) (dst : Nat) : List Byte :=
  if f.format = dst then f.payload
  else (recordsOf l f.format f.count f.payload).flatMap (transcodeRecord l f.format dst)

/-- The sizes in bytes of what a subject takes at its destination, part by part: of a session, record and map, then each
tail (R134, R138). -/
def State.destSizes (s : State) (q : MoveSubject) (dst : Tier) : List Nat :=
  match s.sess? q.owner, (s.sess? q.owner).bind fun x => s.layout? x.layout with
  | some x, some l =>
    let size (f : Sheaf) : Nat := f.count * l.recordBytes ((s.entryFormat (s.movePen q) dst f.format).getD f.format)
    let sizes := (s.subjectSheaves q).map size
    (match q with
    | .session _ => (256 + 64 * x.map.length) :: sizes
    | .bale .. => [sizes.sum]
    | .sheaf .. => sizes)
  | _, _ => []

/-- READs of a T3 source, at most 8 MiB each (11 Table 11.5). -/
def State.readExtent (s : State) (m : Move) (node off n : Nat) : State :=
  (List.range (ceilDiv n 8388608)).foldl (fun t i =>
    t.request node 2 (t.movePen m.subject) (readBody (4096 * off + i * 8388608) (min 8388608 (n - i * 8388608)))
      (.poolRead m.id (i * 8388608))) s

/-- The first pool of the map after the one that refused (R137). -/
def State.nextPool (s : State) (after : Option Nat) : Option Nat :=
  match after with
  | none => s.pools.head?
  | some p => ((s.pools.dropWhile (· != p)).drop 1).head?

/-- A move starts at a pool: ALLOC under the sheaf's identity (R137, 11 R283). -/
def State.allocAtPool (s : State) (m : Move) (node n : Nat) : State :=
  match s.subjectSheaves m.subject with
  | [] => s
  | f :: _ =>
    let f1 := { f with format := m.format.getD f.format }
    (s.modMove m.id fun m => { m with dstNode := BitVec.ofNat 13 node }).request node 3 (s.movePen m.subject)
      (atomicBody aopAlloc 0 n 0 f1.ident) (.poolAlloc m.id)

/-- The pass of a move begins on a drover: the destination is charged (Table 6.6). -/
def State.beginPass (s : State) (m : Move) (drover : Nat) : State :=
  let fs := s.subjectSheaves m.subject
  let m1 := { m with state := .copying, drover := some drover, charge := (s.destSizes m.subject m.dst).sum,
                     srcCharge := s.subjectBytes m.subject, version := (fs.map (·.version)).sum, parts := [],
                     format := fs.head?.bind fun f => s.entryFormat (s.movePen m.subject) m.dst f.format }
  let s1 := s.modMove m.id fun _ => m1
  match m.src, fs with
  | .t3, f :: _ =>
    (s1.modMove m.id fun m => { m with dstNode := f.node, extent := some f.location }).readExtent m1 f.node.toNat
      f.location m1.srcCharge
  | _, _ => s1

/-- A queued move whose destination tier the quota refuses goes to T3 (Table 6.4); a bale goes there sheaf by sheaf. -/
def State.divert (s : State) (m : Move) : State :=
  match m.subject with
  | .bale .. =>
    (s.subjectSheaves m.subject).foldl (fun t f => t.queueMove (.sheaf f.owner f.layer f.ordinal) m.src .t3 m.forPlan)
      { s with moves := s.moves.filter fun q => q.id != m.id }
  | _ => s.modMove m.id fun m => { m with dst := .t3 }

/-- A move waits for an open group, which counts once (R135, Table 6.9). -/
def State.waitForGroup (s : State) (m : Move) : State :=
  if m.waited then s
  else (s.modMove m.id fun m => { m with waited := true }).bumpPen (s.movePen m.subject) .t2Waits 1

/-- What a queued move meets when a drover slot comes (R137, R140, Table 6.4). -/
def State.startMove (s : State) (m : Move) (drover : Nat) : State :=
  let p := s.movePen m.subject
  let sizes := s.destSizes m.subject m.dst
  let fits (t : Tier) : Bool := decide (s.used p t + sizes.sum ≤ s.quota p t)
  match m.dst with
  | .t1 => if fits .t1 then s.beginPass m drover else s.demoteFor p sizes.sum
  | .t2 =>
    if fits .t2 then
      (match s.newRuns sizes with
      | none => s.waitForGroup m
      | some r => (r.2.modMove m.id fun m => { m with runs := r.1 }).beginPass { m with runs := r.1 } drover)
    else if (s.demoteTo p .t2 m.subject.isSession).isSome then s.divert m
    else s.abandonMove m
  | .t3 =>
    match s.nextPool m.pool with
    | some n =>
      if fits .t3 then
        let s1 := s.beginPass m drover
        match s1.moves.find? fun q => q.id == m.id with
        | some m1 => s1.allocAtPool m1 n sizes.sum
        | none => s1
      else s.abandonMove m
    | none => s.abandonMove m

/-- The order of a session's demotion (R153): its sheaves leave a tier as they were queued, and the record last. -/
def State.mayStart (s : State) (m : Move) : Bool :=
  let others := s.moves.filter fun q => q.subject.owner == m.subject.owner && q.id != m.id
  m.dst == .t1
    || (if m.subject.isSession then !others.any fun q => q.state != .freeing
        else !others.any fun q => q.state == .queued && q.src == m.src && q.dst != .t1 && !q.subject.isSession
          && decide (q.id < m.id))

/-- A move has its slots (R159, 05 R128): its flock's plan asks for it or places it, or, where its session is bound to no
step, the service plan does. -/
def State.movePlanned (s : State) (m : Move) : Bool :=
  m.forPlan.isSome || match (s.sess? m.subject.owner).bind fun x => x.flock.bind fun f => (assocGet f s.flocks).bind (·.run) with
    | some r => r.plan.moves.contains m.id
    | none => m.placed

/-- MOVE_START: a drover takes a queued move (R150, R159). -/
def execMoveStart (mv drover : Nat) (s : State) : Out :=
  if 16 ≤ drover then .fault .noSuchUnit
  else match s.moves.find? fun m => m.id == mv with
    | none => stutter s
    | some m =>
      if m.state != .queued || !s.recovery.drovers.contains drover || !s.mayStart m || !s.movePlanned m
          || s.moves.any (fun q => q.state == .copying && q.drover == some drover)
          || (s.hearth.truncated && m.forPlan.isNone) then stutter s
      else if !s.domainRuns (13 + drover / 4) then .next (s.askWake 3 (13 + drover / 4))
      else .next (s.startMove m drover)

/-! ### Commit (R151) -/

/-- A lease views the sheaf, or a step in progress attends it (R151, 08 R200): from GO until the step ends, whatever entry
sits out. -/
def State.attended (s : State) (f : Sheaf) : Bool :=
  let in_ (e : PlanEntry) (g : Sheaf) : Bool := e.sources.any fun q =>
    q.layer == g.layer && (q.device.contains g.ordinal || q.pools.any fun p => p.2.2.contains g.ordinal)
  s.leased f || s.flocks.any fun k => match k.2.run with
    | none => false
    | some r => r.plan.entries.any fun e => match s.sess? e.handle with
      | some x => x.map.any fun g => g.owner == f.owner && g.layer == f.layer && g.ordinal == f.ordinal && in_ e g
      | none => false

/-- The bytes a pool returned, in order. -/
def Move.data (m : Move) : List Byte :=
  (List.range m.parts.length).flatMap fun i => (assocGet (i * 8388608) m.parts).getD []

/-- LOCATION of a sheaf that a move has brought to its place, the `i`-th of what it carries (R134, Table 2.6). -/
def Move.location (m : Move) (f : Sheaf) (run : Nat) : Nat :=
  match m.dst with
  | .t1 => (Config.locator 1 (m.id * 1073741824 + f.layer * 1048576 + f.ordinal)).toNat
  | .t2 => runLocation run
  | .t3 => m.extent.getD 0

/-- A sheaf after a committed move (R151, R194): address and format in one update, and the sketch with the format; a move that
does not transcode leaves the sketch. -/
def State.movedSheaf (s : State) (l : Layout) (m : Move) (run : Nat) (f : Sheaf) : Sheaf :=
  let f0 := if m.src = .t3 then { f with payload := m.data } else f
  let g : Sheaf := match m.format with
    | some t =>
      let h := { f0 with format := t, payload := transcodePayload l f0 t }
      if h.isSealed then { h with sketch := sheafSketch l (h.positions l), sketchValid := true } else h
    | none => f0
  { g with tier := m.dst, node := if m.dst = .t3 then m.dstNode else s.ident.nodeNumber,
           location := m.location f run, run := if m.dst = .t2 then run else 0,
           bale := match m.subject with | .bale .. => m.dst == .t2 | _ => false,
           payload := if m.dst = .t3 then [] else g.payload }

/-- Count a committed move that transcoded `n` sheaves (Table 6.9). -/
def State.countMove (s : State) (m : Move) (n : Nat) : State :=
  let p := s.movePen m.subject
  (s.bumpPen p (if m.dst = .t1 then .promotedBytes else .demotedBytes) m.srcCharge).bumpPen p .transcoded n

/-- The commit is recorded (Table 6.6); `n` sheaves changed format. -/
def State.moveDone (s : State) (m : Move) (n : Nat) : State :=
  ((s.modMove m.id fun m => { m with state := .freeing }).countMove m n).setMoving

/-- The one commit of a session's record, map and tails (R153, R38). -/
def State.commitSession (s : State) (m : Move) (h : Handle) (l : Layout) : State :=
  let tails := s.subjectSheaves m.subject
  let format (f : Sheaf) : Option Nat := s.entryFormat (s.movePen m.subject) m.dst f.format
  let run (f : Sheaf) : Nat := m.runs.getD (1 + tails.findIdx fun g => g.layer == f.layer) 0
  let moved (x : Session) (f : Sheaf) : Session :=
    x.modSheaf h f.layer f.ordinal (s.movedSheaf l { m with format := format f } (run f))
  ((s.modSess h fun x => { tails.foldl moved x with tier := m.dst, run := if m.dst = .t2 then m.runs.headD 0 else 0 }).modEntry h
    fun e => { e with flash := m.dst == .t2 }).moveDone m (tails.filter fun f => (format f).isSome).length

/-- commit() of R151 for the sheaves of a move. -/
def State.commitSheaves (s : State) (m : Move) (l : Layout) : State :=
  let fs := s.subjectSheaves m.subject
  let whole := match m.subject with | .bale .. => 32 | _ => 1
  if fs.length != whole || fs.any (fun f => f.refcount == 0 || f.missing)
      || (fs.all (·.isSealed) && (fs.map (·.version)).sum != m.version) then s.abandonMove m
  else if m.format.isSome && fs.any s.attended then s.modMove m.id fun m => { m with state := .committing }
  else
    (fs.foldl (fun t f => t.modSess f.owner fun x =>
      x.modSheaf f.owner f.layer f.ordinal (s.movedSheaf l m (m.runs.headD 0))) s).moveDone m (if m.format.isSome then whole else 0)

/-- A move commits (R151, R153). -/
def State.commitMove (s : State) (m : Move) : State :=
  match (s.sess? m.subject.owner).bind fun x => s.layout? x.layout with
  | none => s.abandonMove m
  | some l =>
    match m.subject with
    | .session h => s.commitSession m h l
    | _ => s.commitSheaves m l

/-- Moves waiting in COMMITTING try again (R151). -/
def State.retryCommits (s : State) : State :=
  (s.moves.filter fun m => m.state == .committing).foldl (fun t m => t.commitMove m) s

/-- One service step of the moves that wait in COMMITTING: 64 of them abandon the move (R151). -/
def State.ageCommits (s : State) : State :=
  (s.moves.filter fun m => m.state == .committing).foldl (fun t m =>
    if 63 ≤ m.waits then t.abandonMove m else t.modMove m.id fun m => { m with waits := m.waits + 1 }) s

/-- A drover pass reads what the move takes out of T2 (06 R136). -/
def State.readSubject (s : State) (m : Move) : State :=
  match (s.sess? m.subject.owner).bind fun x => (s.layout? x.layout).map fun l => (x, l) with
  | none => s
  | some (x, l) =>
    let s1 := match m.subject with
      | .session _ => if x.tier = .t2 then s.readPages x.run 0 (pagesOf (256 + 64 * x.map.length)) else s
      | _ => s
    (s.subjectSheaves m.subject).foldl (fun t f => t.readRun l f) s1

/-- A tag check of data in a tier has failed (13 Table 13.13). -/
def State.countTagFail (s : State) : Tier → State
  | .t1 => s.bumpDev .hbmTagFails 1
  | .t2 => s.bumpDev .flashTagFails 1
  | .t3 => s

/-- The source of a move fails its check (R147): the sheaf at a place of the move, or the tails, with the sessions they
belong to. -/
def State.sourceFails (s : State) (m : Move) (place : Nat) : State :=
  let s1 := ((s.bumpPen (s.movePen m.subject) .tagFails 1).countTagFail m.src).abandonMove m
  match m.subject with
  | .session h => s1.faultSession h .tagFail fun f => !f.isSealed
  | _ => match (s.subjectSheaves m.subject)[place]? with
    | some f => s1.faultSheaf f.owner f.layer f.ordinal
    | none => s1

/-- A write at the destination, or its read-back, fails (R147): the move is abandoned, and tried again at another free place
three times at most. -/
def State.writeFails (s : State) (m : Move) : State :=
  if 3 ≤ m.retries then s.abandonMove m else s.askAgain m (m.retries + 1) m.pool

/-- How a drover pass ended (R147), for a move in COPYING whose pool traffic, if any, has been answered (R287). -/
def State.passEnd (s : State) (m : Move) (how : PassEnd) : State :=
  match how with
  | .ok => (s.readSubject m).commitMove m
  | .sourceTagFail k => s.sourceFails m k
  | .writeFail => s.writeFails m
  | .readBackFail => ((s.bumpPen (s.movePen m.subject) .tagFails 1).countTagFail m.dst).writeFails m

/-- Nothing is outstanding at a pool for the move. -/
def State.poolQuiet (s : State) (m : Move) : Bool :=
  (m.dst != .t3 || m.extent.isSome) && !s.commons.requests.any fun r => match r.use with
    | .poolAlloc i => i == m.id
    | .poolWrite i => i == m.id
    | .poolRead i _ => i == m.id
    | _ => false

/-! ### Free (R152, R301) -/

/-- Something of this node remains at a pool: sheaves, or extents whose free is not yet answered. -/
def State.remainsAt (s : State) (node : Nat) : Bool :=
  s.sessions.any (fun x => x.2.map.any fun f => f.owner == x.1 && !f.shared && f.tier == .t3 && f.node.toNat == node)
    || s.moves.any (fun m => (m.src == .t3 || m.dst == .t3) && m.dstNode.toNat == node)
    || s.commons.requests.any fun r => match r.use with | .poolFree _ n _ => n == node | _ => false

/-- POOL_DRAINED when nothing of the node remains at a leaving pool (R301). -/
def State.checkDrained (s : State) (node : Nat) : State :=
  if s.leavingPools.contains node && !s.remainsAt node then s.raise 0 0x0607 node 0 else s

/-- Ox reads of the sheaf have begun that are not known to have ended (R152): a layer of a step in progress has rows of an
entry that attends it at this device, and not all of their partials have gone. -/
def State.oxReads (s : State) (f : Sheaf) : Bool :=
  let busy (e : PlanEntry) (g : Sheaf) : Bool := e.sitOut.isNone
    && (e.sources.any fun q => q.layer == g.layer && q.device.contains g.ordinal)
    && e.rows.any fun r => r.1 == g.layer && !e.delivered.contains (r.1, r.2.1)
  s.flocks.any fun k => match k.2.run with
    | none => false
    | some r => r.plan.entries.any fun e => match s.sess? e.handle with
      | some x => x.map.any fun g => g.owner == f.owner && g.layer == f.layer && g.ordinal == f.ordinal && busy e g
      | none => false

/-- The source of a committed move is freed and uncharged (R152); one at a pool, by an atomic free. -/
def State.freeSource (s : State) (m : Move) : State :=
  let s1 := { s with moves := s.moves.filter fun q => q.id != m.id }.setMoving
  match m.src, m.extent with
  | .t3, some off => s1.freeExtent (s.movePen m.subject) m.dstNode.toNat off m.srcCharge
  | _, _ => s1

/-- The promotions that plans and a RUNNABLE session still want of what a move carried (R158). -/
def State.wantAgain (s : State) (m : Move) : State :=
  if m.dst = .t1 then s
  else
    let wants (n : Plan) (f : Sheaf) : Bool := n.promotions.contains (f.owner, f.layer, f.ordinal)
    let s1 := (s.subjectSheaves m.subject).foldl (fun t f => t.flocks.foldl (fun u k =>
      if (match k.2.run with | some r => wants r.plan f | none => false)
          || (match k.2.next with | some n => wants n f | none => false) then
        u.askPromotion f.owner f.layer f.ordinal (some k.1) else u) t) s
    match s1.sess? m.subject.owner with
    | some x => if x.state = .runnable then s1.promoteSession m.subject.owner else s1
    | none => s1

/-- MOVE_FREE: the source is freed and uncharged, once the reads of it have ended (R152). -/
def execMoveFree (mv : Nat) (s : State) : Out :=
  match s.moves.find? fun m => m.id == mv with
  | none => stutter s
  | some m =>
    if m.state != .freeing || (m.src == .t1 && (s.subjectSheaves m.subject).any s.oxReads) then stutter s
    else .next (((s.freeSource m).wantAgain m).reap m.subject.owner)

end Sys2Proof.Machine
end

