-- ==== Sys2Proof/Machine/Leases.lean ====
section
/-!
DEFINITION. Leases (02_sessions R53 to R55, 10_step_link R260 to R263): cancelling and reclaiming, slots, granting,
extending and streaming.
-/
namespace Sys2Proof.Machine

/-- Change lease `id` of flock `f`. -/
def State.modLease (s : State) (f id : Nat) (g : Lease → Lease) : State :=
  s.modFlock f fun k => { k with leases := k.leases.map fun l => if l.id = id then g l else l }

/-- The ports of a mask. -/
def maskPorts (m : BitVec 8) : List Nat := (List.range 8).filter fun p => bitOf m.toNat p

/-- The leases of a flock. -/
def State.leasesOf (s : State) (f : Nat) : List Lease := ((assocGet f s.flocks).map (·.leases)).getD []

/-- A lease with this id. -/
def State.lease? (s : State) (f id : Nat) : Option Lease := (s.leasesOf f).find? fun l => l.id == id

/-- A lease whose every accelerator has reclaimed it goes, with the references it held (R19, R261). -/
def State.dropLease (s : State) (f : Nat) (l : Lease) : State :=
  l.refs.foldl (fun t r => t.dropRef r.1 r.2.1 r.2.2)
    (s.modFlock f fun k => { k with leases := k.leases.filter fun q => q.id != l.id })

/-- A port has reclaimed a cancelled lease. -/
def State.reclaimLease (s : State) (f id port : Nat) : State :=
  match s.lease? f id with
  | none => s
  | some l =>
    let l1 := { l with reclaim := l.reclaim.filter fun r => r.1 != port, acks := l.acks.filter (· != port) }
    let s1 := s.modLease f id fun _ => l1
    if l1.state = .cancelled && l1.reclaim.isEmpty then s1.dropLease f l1 else s1

/-- CANCEL of a lease (R54, R261): sent to its accelerators, each of which owes a RECLAIMED. -/
def State.cancelLease (s : State) (f id : Nat) : State :=
  match s.lease? f id with
  | none => s
  | some l =>
    if l.state = .cancelled then s
    else
      let ports := (maskPorts l.accelMask).filter fun p => (s.stepPort p).carries
      let l1 := { l with state := .cancelled, acks := [], extending := [],
                         reclaim := ports.map fun p => (p, s.clock.now) }
      let s1 := (s.modLease f id fun _ => l1).slSendAll ports 0 2 3 0 (packBytes 8 [(32, id), (32, 0)])
      if ports.isEmpty then s1.dropLease f l1 else s1

/-- Cancel the leases of a flock that `p` names. -/
def State.cancelLeases (s : State) (f : Nat) (p : Lease → Bool) : State :=
  ((s.leasesOf f).filter p).foldl (fun t l => t.cancelLease f l.id) s

/-- Every lease of a flock is gone at once: its slots are reclaimed by a reset, a RESYNC or the end of the flock (R254,
R259). -/
def State.clearLeases (s : State) (f : Nat) : State := (s.leasesOf f).foldl (fun t l => t.dropLease f l) s

/-- Cancel every lease of a session (R20). -/
def State.cancelSessionLeases (s : State) (h : Handle) : State :=
  s.flocks.foldl (fun t k => t.cancelLeases k.1 fun l => l.handle == h) s

/-- A session's live lease with TAIL, in any flock (R53). -/
def State.tailLease (s : State) (h : Handle) : Option (Nat × Lease) :=
  s.flocks.findSome? fun k => (k.2.leases.find? fun l => l.handle == h && l.tail && l.state != .cancelled).map
    fun l => (k.1, l)

/-! ### Slots and formats (R260) -/

/-- The flock's slot space: the least SLOT_COUNT of its ports. -/
def State.slotSpace (s : State) (k : Flock) : Nat :=
  match k.ports.map fun p => ((s.stepPort p).slots.map (·.1)).getD 0 with
  | [] => 0
  | n :: ns => ns.foldl min n

/-- DRAFT_MAX of a flock: the least of its ports (Table 10.9). -/
def State.flockDraftMax (s : State) (k : Flock) : Nat :=
  match k.ports.map fun p => ((s.stepPort p).slots.map (·.2.2.2)).getD 0 with
  | [] => 0
  | n :: ns => ns.foldl min n

/-- Every port accepts a format and holds a full sheaf of it in a slot (R260). -/
def State.formatFits (s : State) (k : Flock) (l : Layout) (format : Nat) : Bool :=
  k.ports.all fun p => match (s.stepPort p).slots with
    | some (_, n, formats, _) => bitOf formats.toNat format && decide (128 * l.recordBytes format ≤ n)
    | none => false

/-- The format of a lease (R260): the stored format where it fits, else one that R144 can produce from it. -/
def State.leaseFormat (s : State) (k : Flock) (l : Layout) (stored : Nat) : Option Nat :=
  (stored :: [1, 2, 3].filterMap fun m => transcodeTarget m stored).find? (s.formatFits k l)

/-- Slots of a flock that no live lease holds. -/
def State.freeSlots (s : State) (k : Flock) : Nat → List Nat := fun n =>
  let held := k.leases.flatMap fun l => l.slots.map (·.2.2)
  ((List.range (s.slotSpace k)).filter fun i => !held.contains i).take n

/-- The first `n` consecutive slots of a flock that none of these leases holds, if any. -/
def State.slotRunPast (s : State) (k : Flock) (ls : List Lease) (n : Nat) : Option Nat :=
  let held := ls.flatMap fun l => l.slots.map (·.2.2)
  (List.range (s.slotSpace k + 1 - n)).find? fun b => (List.range n).all fun i => !held.contains (b + i)

/-- The first `n` consecutive free slots of a flock, if any. -/
def State.slotRun (s : State) (k : Flock) (n : Nat) : Option Nat := s.slotRunPast k k.leases n

/-! ### Streams (R262, R263) -/

/-- Position records `first` to `first + n - 1` of a sheaf in a format. -/
def sheafRecords (l : Layout) (f : Sheaf) (format first n : Nat) : List Byte :=
  (((recordsOf l f.format f.count f.payload).drop first).take n).flatMap (transcodeRecord l f.format format)

/-- STREAM DATA of records `first` to `first + n - 1` of a sheaf into a slot, to one port (Table 10.10). -/
def State.streamTo (s : State) (f : Nat) (ls : Lease) (l : Layout) (x : Sheaf) (slot first n port : Nat) : State :=
  let q := s.stepPort port
  let head := packBytes 32 [(32, ls.id), (32, q.streamSeq), (10, x.layer), (20, x.ordinal), (1, bitNat (!x.isSealed)),
    (1, 0), (32, slot), (7, first), (8, n), (1, 0), (4, ls.format), (4, 0), (27, x.startPos), (77, 0)]
  let s1 := s.slSend port 2 3 1 0 (head ++ sheafRecords l x ls.format first n)
  (s1.modStepPort port fun q => { q with streamSeq := q.streamSeq + 1 }).modLease f ls.id fun ls =>
    { ls with streams := (ls.streams.filter fun t => !(t.1 == x.layer && t.2.1 == port)) ++ [(x.layer, port, q.streamSeq)] }

/-- STREAM DATA to every accelerator of a lease. -/
def State.stream (s : State) (f : Nat) (ls : Lease) (l : Layout) (x : Sheaf) (slot first n : Nat) : State :=
  if n = 0 then s
  else (maskPorts ls.accelMask).foldl (fun t p => t.streamTo f ls l x slot first n p) s

/-- The streams of a layer have all landed (R262). -/
def State.streamArrived (s : State) (ls : Lease) (layer : Nat) : Bool :=
  ls.streams.all fun t => t.1 != layer || decide (t.2.2 < (s.stepPort t.2.1).landedSeq)

/-! ### Granting (R54, R261) -/

/-- The sheaves of a layer that a hot-tail lease covers: the latest `n` sealed ones and the tail. -/
def Session.coverage (x : Session) (layer n : Nat) : List Sheaf :=
  let sealed_ := sortBy (fun a b => decide (a.startPos ≤ b.startPos)) (x.map.filter fun f => f.layer == layer && f.isSealed)
  sealed_.drop (sealed_.length - n) ++ x.map.filter fun f => f.layer == layer && !f.isSealed

/-- The sheaf behind a map entry, with its content, if it is homed in this device's T1. -/
def State.inT1 (s : State) (f : Sheaf) : Option Sheaf :=
  (s.sheafAt f).bind fun g => if g.tier = .t1 && !g.missing then some { g with startPos := f.startPos } else none

/-- Slots of a layer that such a lease needs. -/
def Session.coverageSlots (x : Session) (l : Layout) (n : Nat) : Nat :=
  ((List.range l.layers).map fun ly => (x.coverage ly n).length).foldl max 0

/-- A lease over the latest `n` sealed sheaves and the tail of every layer of a session (R126, R130): its slots, its
references, GRANT and its streams; none where slots or a format are lacking or a sheaf is not in T1. Layers share slots
modulo `wrap`: all layers have their own in SPLIT, PREFETCH_DEPTH + 1 of them in LAYER_ORDER, where the streams of the
later layers follow as the step goes on. -/
def State.grantLease (s : State) (f : Nat) (h : Handle) (n wrap : Nat) (speculative : Bool) (issue : Nat) : Option State :=
  match assocGet f s.flocks, s.sess? h with
  | some k, some x =>
    match s.layout? x.layout with
    | none => none
    | some l =>
      let cover := (List.range l.layers).flatMap fun ly => x.coverage ly n
      let per := x.coverageSlots l n
      let sealedPer := ((List.range l.layers).map fun ly => ((x.coverage ly n).filter (·.isSealed)).length).foldl max 0
      let stored := match cover with | g :: _ => g.format | [] => l.nativeFormat
      match s.leaseFormat k l stored, s.slotRun k (wrap * per) with
      | some fmt, some base =>
        if per = 0 || cover.any (fun g => (s.inT1 g).isNone) then none
        else
          let slots := (List.range l.layers).flatMap fun ly =>
            (x.coverage ly n).zipIdx.map fun t => (ly, t.1.ordinal, base + ly % wrap * per + t.2)
          let firstOrd := ((cover.filter (·.isSealed)).map (·.ordinal)).min?.getD ((cover.map (·.ordinal)).min?.getD 0)
          let ls : Lease :=
            { id := k.nextLease, speculative := speculative, tail := true,
              accelMask := BitVec.ofNat 8 ((k.ports.map fun p => 2 ^ p).sum), handle := h, layerFirst := 0,
              layerCount := l.layers, firstOrdinal := firstOrd, sheafCount := sealedPer, format := fmt, slotBase := base,
              slotCount := wrap * per, issueStep := issue,
              state := if speculative then .staged else .named, acks := k.ports, slots := slots,
              refs := (cover.filter (·.isSealed)).map fun g => (g.owner, g.layer, g.ordinal),
              streamedTo := x.kvPositions }
          let s1 := s.modFlock f fun k => { k with leases := k.leases ++ [ls], nextLease := k.nextLease + 1 }
          let s2 := ls.refs.foldl (fun t r => t.addRef r.1 r.2.1 r.2.2) s1
          let s3 := s2.slSendAll k.ports 0 2 1 0 (ls.bytes f base (wrap * per))
          some ((cover.zip slots).filter (fun c => decide (c.2.1 < wrap)) |>.foldl (fun t c => match s.inT1 c.1 with
            | some g => t.stream f ls l g c.2.2.2 0 g.count
            | none => t) s3)
      | _, _ => none
  | _, _ => none

end Sys2Proof.Machine
end

