-- ==== Sys2Proof/Machine/Attend.lean ====
section
/-!
DEFINITION. Split attention as functions of the state (07_split_attention R161 to R173, R178, R182) and sparse selection
(08_sketch_search R195, R196): which source holds each sheaf, and what a row's device partial is.
-/
namespace Sys2Proof.Machine

/-! ### Rows -/

/-- Positions an entry computes in the step (R165): one and its drafts for DECODE. -/
def PlanEntry.stepPositions (e : PlanEntry) : Nat :=
  if e.kind = .decode then 1 + e.drafts.getD 0 else e.tokens

/-- Rows of an entry in a layer (R167). -/
def PlanEntry.rowCount (e : PlanEntry) (l : Layout) : Nat := e.stepPositions * l.queryHeads

/-- Positions of the step, which are attended in the step source only (R161, R169). -/
def PlanEntry.inStep (e : PlanEntry) (x : Nat) : Bool :=
  decide (e.position ≤ x) && decide (x < e.position + e.stepPositions)

/-- Width of a query (R165). -/
def Layout.queryWidth (l : Layout) : Nat := if l.latent then l.latentWidth + l.ropeWidth else l.headWidth

/-- `n` BF16 elements as FP32. -/
def decodeBf16 (n : Nat) (bs : List Byte) : List F32 := (List.range n).map fun i => bf16ToF32 (bytesAt bs (2 * i) 2)

/-- A received row as attention takes it (R165, R181). -/
def PlanEntry.qrow (e : PlanEntry) (l : Layout) (r : Nat × List Byte) : QRow :=
  { pos := e.position + r.1 / l.queryHeads, head := r.1 % l.queryHeads, query := decodeBf16 l.queryWidth r.2 }

/-- The rows of a layer that an entry has received: index, port and elements. -/
def PlanEntry.rowsOf (e : PlanEntry) (ly : Nat) : List (Nat × Nat × List Byte) :=
  e.rows.filterMap fun r => if r.1 = ly then some r.2 else none

/-! ### Parameters and exclusion (R169) -/

/-- The window of a layer, 0 for none. -/
def Layout.windowOf (l : Layout) (ly : Nat) : Nat :=
  if decide (0 < l.window) && bitOf l.windowLayers.toNat ly then l.window else 0

/-- Ordinals below SINK_SHEAVES are sinks. -/
def Layout.isSink (l : Layout) (f : Sheaf) : Bool := decide (f.ordinal < l.sinkSheaves)

/-- The end of a session's sink positions in a layer. -/
def Session.sinkEnd (x : Session) (l : Layout) (ly : Nat) : Nat :=
  ((x.map.filter fun f => f.layer == ly && l.isSink f).map fun f => f.startPos + f.count).foldl max 0

/-- Attention's parameters for a layer of a session. -/
def Layout.attn (l : Layout) (x : Session) (ly : Nat) : AttnParams :=
  { latent := l.latent, causal := l.causal, queryHeads := l.queryHeads, kvHeads := l.kvHeads, headWidth := l.headWidth,
    latentWidth := l.latentWidth, ropeWidth := l.ropeWidth, scoreScale := l.scoreScale, softcap := l.softcap,
    window := l.windowOf ly, sinkEnd := x.sinkEnd l ly }

/-- Every position of the sheaf is masked for every row of an entry (R169). -/
def PlanEntry.excludes (e : PlanEntry) (a : AttnParams) (f : Sheaf) : Bool :=
  (List.range f.count).all fun i =>
    let p := f.startPos + i
    e.inStep p || (List.range e.stepPositions).all fun j => a.masked (e.position + j) p

/-! ### Sources (R161) -/

/-- The node that homes a session this device does not (02 R49): what its registry entry here says, else what its registry
node last told, else that node. -/
def State.ownerNode (s : State) (h : Handle) : Nat :=
  match s.entry? h with
  | some e => e.home.toNat
  | none => match assocGet h s.commons.homes with | some b => b.1.toNat | none => handleNode h

/-- The pool node that attends a sheaf for an entry, if one does (R161, R195). -/
def State.poolOf (s : State) (select : Bool) (f : Sheaf) : Option Nat :=
  match s.sheafAt f with
  | none => if (s.sess? f.owner).isSome then none else some (s.ownerNode f.owner)
  | some g => if g.tier = .t3 && !select then some g.node.toNat else none

/-- The lease an entry uses. -/
def State.entryLease (s : State) (f : Nat) (e : PlanEntry) : Option Lease := e.leaseId.bind fun i => s.lease? f i

/-- A lease covers a sheaf. -/
def Lease.covers (ls : Lease) (f : Sheaf) : Bool := ls.slots.any fun t => t.1 == f.layer && t.2.1 == f.ordinal

/-- The attended sheaves of a layer outside the lease, by ordinal. -/
def State.attendedSheaves (s : State) (f : Nat) (e : PlanEntry) (x : Session) (l : Layout) (ly : Nat) : List Sheaf :=
  let a := l.attn x ly
  let ls := s.entryLease f e
  sortBy (fun p q => decide (p.ordinal ≤ q.ordinal))
    (x.map.filter fun g => g.layer == ly && !(match ls with | some q => q.covers g | none => false) && !e.excludes a g)

/-- The device source of a layer before selection, as a plan made now has it: X and any open tail (R161, R195). -/
def State.plannedDevice (s : State) (f : Nat) (e : PlanEntry) (x : Session) (l : Layout) (ly : Nat) : List Sheaf :=
  (s.attendedSheaves f e x l ly).filter fun g => (s.poolOf e.select g).isNone

/-- The pool sources of a layer, as a plan made now has them: node, owner and sheaves (R161, R186). -/
def State.plannedPools (s : State) (f : Nat) (e : PlanEntry) (x : Session) (l : Layout) (ly : Nat) :
    List (Nat × Handle × List Sheaf) :=
  let gs := (s.attendedSheaves f e x l ly).filterMap fun g => (s.poolOf e.select g).map fun n => (n, g)
  ((gs.map fun t => (t.1, t.2.owner)).eraseDups).map fun k =>
    (k.1, k.2, (gs.filter fun t => t.1 == k.1 && t.2.owner == k.2).map (·.2))

/-- The pool sources of an entry as its plan fixes them (R161, R169). -/
def State.fixPools (s : State) (f : Nat) (l : Layout) (e : PlanEntry) : PlanEntry :=
  match s.sess? e.handle with
  | none => e
  | some x => { e with sources := (List.range l.layers).map fun ly =>
      { layer := ly, pools := (s.plannedPools f e x l ly).map fun k => (k.1, k.2.1, k.2.2.map (·.ordinal)) } }

/-- Selection always includes a sheaf: a sink, or one whose sketch is not valid (08 R195). -/
def State.isForced (s : State) (l : Layout) (f : Sheaf) : Bool :=
  l.isSink f || !((s.sheafAt f).map (·.sketchValid)).getD false

/-- The device source of a layer at GO: every attended sheaf that no pool source of the plan holds, and of it the forced (R161,
08 R195). -/
def State.fixLayer (s : State) (f : Nat) (l : Layout) (e : PlanEntry) (x : Session) (q : LayerSource) : LayerSource :=
  let gs := (s.attendedSheaves f e x l q.layer).filter fun g => !q.pools.any fun p => p.2.2.contains g.ordinal
  { q with device := gs.map (·.ordinal), forced := (gs.filter (s.isForced l)).map (·.ordinal) }

/-- The sources of an entry at GO. -/
def State.fixDevice (s : State) (f : Nat) (l : Layout) (e : PlanEntry) : PlanEntry :=
  match s.sess? e.handle with
  | none => e
  | some x => { e with sources := e.sources.map (s.fixLayer f l e x) }

/-- The sources of a layer. -/
def PlanEntry.source (e : PlanEntry) (ly : Nat) : LayerSource :=
  (e.sources.find? fun q => q.layer == ly).getD { layer := ly }

/-- The sheaves of a layer that a list of ordinals names, by ordinal. -/
def Session.named (x : Session) (ly : Nat) (os : List Nat) : List Sheaf :=
  sortBy (fun p q => decide (p.ordinal ≤ q.ordinal)) (x.map.filter fun g => g.layer == ly && os.contains g.ordinal)

/-- The device source of a layer before selection: X and any open tail (R161, R195). -/
def PlanEntry.deviceSource (e : PlanEntry) (x : Session) (ly : Nat) : List Sheaf := x.named ly (e.source ly).device

/-- The pool sources of a layer: node, owner and sheaves (R161, R186). -/
def PlanEntry.poolSources (e : PlanEntry) (x : Session) (ly : Nat) : List (Nat × Handle × List Sheaf) :=
  (e.source ly).pools.map fun k => (k.1, k.2.1, x.named ly k.2.2)

/-- A sheaf with its owner's content. -/
def State.content (s : State) (f : Sheaf) : Sheaf :=
  match s.sheafAt f with | some g => { g with startPos := f.startPos, ordinal := f.ordinal } | none => f

/-- A sheaf as an attention unit takes it. -/
def State.unitSheaf (s : State) (l : Layout) (f : Sheaf) : UnitSheaf := (f.startPos, (s.content f).positions l)

/-- The tiles of a list of sheaves in ascending index (R162). -/
def tilesOf (fs : List Sheaf) : List (Nat × List Sheaf) :=
  ((fs.map fun g => g.ordinal / 512).eraseDups).map fun t => (t, fs.filter fun g => g.ordinal / 512 == t)

/-! ### Selection (R195, R196) -/

/-- SELECT_MIN, BUDGET and CANDIDATES of Table 8.1. -/
def selectMin : Nat := 512
def budget : Nat := 256
def maxCandidates : Nat := 1024

/-- E: X without F, as at GO. -/
def PlanEntry.choosable (e : PlanEntry) (x : Session) (ly : Nat) : List Sheaf :=
  (e.deviceSource x ly).filter fun g => !(e.source ly).forced.contains g.ordinal

/-- Selection runs in a layer (R195). -/
def PlanEntry.selects (e : PlanEntry) (x : Session) (ly : Nat) : Bool :=
  e.select && decide (selectMin < (e.choosable x ly).length)

/-- C of R196: the candidates by sketch distance, from all rows of the entry and layer. -/
def State.candidates (s : State) (l : Layout) (e : PlanEntry) (x : Session) (ly : Nat) : List Sheaf :=
  let es := e.choosable x ly
  let rows := (e.rowsOf ly).map fun r =>
    let q := e.qrow l (r.1, r.2.2)
    let g := q.head * l.kvHeads / l.queryHeads
    (rowMask l g, rowSketch l g q.query)
  let d (f : Sheaf) : Nat :=
    match rows.map fun r => hamming 256 (r.2 &&& r.1) ((s.content f).sketch.toNat &&& r.1) with
    | [] => 0
    | n :: ns => ns.foldl min n
  let chosen := topNat (es.map fun f => (d f, f.ordinal)) maxCandidates
  es.filter fun f => chosen.any fun c => c.2 == f.ordinal

/-- A rank as a key: higher ranks come first. -/
def rankKey (x : F32) : Nat := (BitVec.ofNat 32 (if bitOf x.toNat 31 then x.toNat else 0x80000000 - 1 - x.toNat)).toNat

/-- K of R196: the chosen among the candidates, by rank. -/
def State.chosen (s : State) (l : Layout) (e : PlanEntry) (a : AttnParams) (ly : Nat) (cs : List Sheaf) : List Sheaf :=
  let rows := (e.rowsOf ly).map fun r => e.qrow l (r.1, r.2.2)
  let rank (f : Sheaf) : F32 :=
    (rows.map fun r => a.sheafMax e.inStep r (s.unitSheaf l f)).foldl f32Max 0xFF800000
  let k := top (fun p q : F32 => f32Lt q p) (cs.map fun f => (rank f, f.ordinal)) e.deviceSheaves
  cs.filter fun f => k.any fun c => c.2 == f.ordinal

/-- The forced sheaves of a layer with those of a list. -/
def PlanEntry.withForced (e : PlanEntry) (x : Session) (ly : Nat) (fs : List Sheaf) : List Sheaf :=
  (e.deviceSource x ly).filter fun g => (e.source ly).forced.contains g.ordinal || fs.any fun q => q.ordinal == g.ordinal

/-- The device source of a layer after selection: F and K where it runs, X where it does not. -/
def State.finalSource (s : State) (e : PlanEntry) (x : Session) (l : Layout) (ly : Nat) : List Sheaf :=
  if e.selects x ly then e.withForced x ly (s.chosen l e (l.attn x ly) ly (s.candidates l e x ly))
  else e.deviceSource x ly

/-- What the oxen score in a selecting layer: the candidates and the forced (R196). -/
def State.scoringSource (s : State) (e : PlanEntry) (x : Session) (l : Layout) (ly : Nat) : List Sheaf :=
  e.withForced x ly (s.candidates l e x ly)

/-! ### Passes (R170) -/

/-- MAXROWS of a tile of `n` sheaves. -/
def maxRows (n : Nat) : Nat := min 4096 (524288 / (128 * max 1 n))

/-- Chunks of rows that the passes over a tile take. -/
def chunkCount (rows n : Nat) : Nat := ceilDiv rows (maxRows n)

/-- The rows of chunk `c` of a tile: first index and count. -/
def chunkRows (rows n c : Nat) : Nat × Nat := (c * maxRows n, min (maxRows n) (rows - c * maxRows n))

/-! ### The device partial (R163, R178) -/

/-- The units of a pool reply for one row: tile and partial. -/
def poolUnits (w rows row : Nat) : Nat → List Byte → List (Nat × Partial)
  | 0, _ => []
  | n + 1, bs =>
    if bs.length < 16 then []
    else
      let tile := bytesAt bs 10 2 % 2048
      let r := readPartials w rows (bs.drop 16)
      (tile, r.1.getD row {}) :: poolUnits w rows row n r.2

/-- Width of an output (R166). -/
def Layout.valueWidth (l : Layout) : Nat := if l.latent then l.latentWidth else l.headWidth

/-- The device partial of one row: device and pool units folded in ascending tile, then by lowest position. -/
def State.devicePartial (s : State) (e : PlanEntry) (x : Session) (l : Layout) (ly row : Nat)
    (bytes : List Byte) : Partial :=
  let a := l.attn x ly
  let q := e.qrow l (row, bytes)
  let own := (tilesOf (s.finalSource e x l ly)).map fun t =>
    (t.1, ((t.2.map (·.startPos)).min?).getD 0, a.unitPartial e.inStep q (t.2.map (s.unitSheaf l)))
  let pools := (e.poolSources x ly).flatMap fun k =>
    match e.pool.find? fun p => p.1 == ly && p.2.1 == k.1 && p.2.2.1 == k.2.1 with
    | none => []
    | some p => (poolUnits l.valueWidth (e.rowCount l) row 2048 p.2.2.2).map fun u =>
      (u.1, (((k.2.2.filter fun g => g.ordinal / 512 == u.1).map (·.startPos)).min?).getD 0, u.2)
  let units := sortBy (fun u v => decide (u.1 < v.1) || (u.1 == v.1 && decide (u.2.1 ≤ v.2.1))) (own ++ pools)
  foldPartials (units.map (·.2.2))

/-- The partial over exactly the lease's positions, as the accelerator would form it (R120, R164). -/
def State.leasePartial (s : State) (ls : Lease) (e : PlanEntry) (x : Session) (l : Layout) (ly row : Nat)
    (bytes : List Byte) : Partial :=
  let a := l.attn x ly
  let fs := sortBy (fun p q => decide (p.ordinal ≤ q.ordinal))
    (x.map.filter fun g => g.layer == ly && ls.covers g && !e.excludes a g)
  let unit (g : Sheaf) : UnitSheaf :=
    let c := s.content g
    (g.startPos, ((recordsOf l c.format c.count c.payload).map (transcodeRecord l c.format ls.format)).map
      (decodeElems ls.format l.recordElems))
  a.unitPartial e.inStep (e.qrow l (row, bytes)) (fs.map unit)

/-! ### Readiness and delivery -/

/-- All rows of an entry and layer have arrived. -/
def PlanEntry.allRows (e : PlanEntry) (l : Layout) (ly : Nat) : Bool :=
  (e.drafts.isSome || e.kind != .decode) && decide (e.rowCount l ≤ (e.rowsOf ly).length)

/-- Ox passes that a list of tiles takes over `rows` rows. -/
def passCount (rows : Nat) (tiles : List (Nat × List Sheaf)) : Nat :=
  (tiles.map fun t => chunkCount rows t.2.length).sum

/-- The lofts still hold the scores of a layer's scoring passes (R198): those ran in one round, each on its own ox, within the
oxen that R119 leaves to planning, and no other pass has run on these oxen since. -/
def State.loftsKept (s : State) (step i ly : Nat) (e : PlanEntry) : Bool :=
  let oxen := (e.scoredOn.filter fun q => q.1 == ly).map (·.2)
  oxen.eraseDups.length == oxen.length && decide (oxen.length ≤ s.recovery.oxen.length * 15 / 16)
    && oxen.all fun o => s.recovery.oxen.contains o && assocGet o s.recovery.lofts == some (step, i, ly)

/-- The attending passes of a layer reuse the lofts, as decided when its selection was made. -/
def PlanEntry.reuses (e : PlanEntry) (ly : Nat) : Bool := e.selected.any fun q => q.1 == ly && q.2

/-- The attending passes of a layer: tile, its sheaves, and the sheaf count by which its rows are cut into passes; those
that reuse scores take their scoring pass's rows (R170, R198). -/
def State.attendTiles (s : State) (e : PlanEntry) (x : Session) (l : Layout) (ly : Nat) : List (Nat × List Sheaf × Nat) :=
  let own := tilesOf (s.finalSource e x l ly)
  let scoring := if e.reuses ly then tilesOf (s.scoringSource e x l ly) else []
  own.map fun t => (t.1, t.2, match assocGet t.1 scoring with | some g => g.length | none => t.2.length)

/-- The attending passes a row needs are done: one per tile of the source, over the chunk that holds the row. -/
def PlanEntry.passesDone (e : PlanEntry) (tiles : List (Nat × List Sheaf × Nat)) (ly row : Nat) : Bool :=
  tiles.all fun t => e.passes.contains (ly, t.1, row / maxRows t.2.2, false)

/-- Every pool source of a layer has answered OK. -/
def PlanEntry.poolsAnswered (e : PlanEntry) (x : Session) (ly : Nat) : Bool :=
  (e.poolSources x ly).all fun k => e.pool.any fun p => p.1 == ly && p.2.1 == k.1 && p.2.2.1 == k.2.1

/-- Whether the device source of a layer is known: selection, where it runs, has been made. -/
def PlanEntry.sourceKnown (e : PlanEntry) (x : Session) (ly : Nat) : Bool :=
  !e.selects x ly || e.selected.any fun q => q.1 == ly

/-- The bucket of an entry and layer by its attended positions (Table 7.5). -/
def bucketOf (n : Nat) : Nat :=
  if n ≤ 512 then 0 else if n ≤ 2048 then 1 else if n ≤ 8192 then 2 else if n ≤ 32768 then 3 else if n ≤ 131072 then 4
  else if n ≤ 524288 then 5 else if n ≤ 2097152 then 6 else 7

/-- Rows in runs of consecutive indices on one port, at most 4,096 each. -/
def runsOf : List (Nat × Nat × List Byte) → List (List (Nat × Nat × List Byte))
  | [] => []
  | r :: rs =>
    match runsOf rs with
    | (q :: g) :: gs => if q.1 = r.1 + 1 && q.2.1 = r.2.1 && decide (g.length + 1 < 4096) then (r :: q :: g) :: gs
        else [r] :: (q :: g) :: gs
    | gs => [r] :: gs

/-- A stall withholds the partials of its layer (R122). -/
def StepRun.withholds (r : StepRun) (ly : Nat) : Bool := match r.stall with | some t => t.1 == ly | none => false

/-- Send one group of rows' partials (R166) to the port that sent the rows. -/
def State.sendPartials (s : State) (step i ly kind : Nat) (ps : List Partial) (rows : List (Nat × Nat × List Byte)) : State :=
  match rows with
  | [] => s
  | r :: _ => s.slSend r.2.1 1 4 2 step (partialGroup i ly kind r.1 0 ps)

/-- The lease's partials for rows of a layer that the oxen attend in its place (R120), counted as the passes they are. -/
def State.countFallback (s : State) (ls : Lease) (x : Session) (h : Handle) (ly rows : Nat) : State :=
  let tiles := tilesOf (x.map.filter fun g => g.layer == ly && ls.covers g)
  (s.bumpPen (handlePen h) .passes (passCount rows tiles)).bumpPen (handlePen h) .scored
    (rows * ((tiles.flatMap (·.2)).map (·.count)).sum)

/-- Deliver what is ready of an entry and layer (R163, R168): rows whose passes are done and whose pools answered. -/
def State.deliver (s : State) (f i ly : Nat) : State :=
  match s.run? f, s.planEntry? f i with
  | some r, some e =>
    match s.sess? e.handle, s.layout? r.plan.layout with
    | some x, some l =>
      if e.sitOut.isSome || r.withholds ly || !e.sourceKnown x ly || !e.poolsAnswered x ly then s
      else
        let src := s.finalSource e x l ly
        let tiles := s.attendTiles e x l ly
        let rows := sortBy (fun a b => decide (a.1 ≤ b.1)) ((e.rowsOf ly).filter fun q =>
          !e.delivered.contains (ly, q.1) && e.passesDone tiles ly q.1)
        if rows.isEmpty then s
        else
          let p := handlePen e.handle
          let pools := e.poolSources x ly
          let dp (q : Nat × Nat × List Byte) : Partial := s.devicePartial e x l ly q.1 q.2.2
          let ps := rows.map dp
          let ls := if e.fallback.contains ly then s.entryLease f e else none
          let s1 := (runsOf rows).foldl (fun t g =>
            let t1 := t.sendPartials r.plan.step i ly 0 (g.map dp) g
            match ls with
            | some ls => t1.sendPartials r.plan.step i ly 1 (g.map fun q => s.leasePartial ls e x l ly q.1 q.2.2) g
            | none => t1) (match ls with | some q => s.countFallback q x e.handle ly rows.length | none => s)
          let s2 := s1.modPlanEntry f i fun e => { e with delivered := e.delivered ++ rows.map fun q => (ly, q.1) }
          let n := (src.map (·.count)).sum + (pools.map fun k => (k.2.2.map (·.count)).sum).sum
          let s3 := if n = 0 || e.delivered.any (fun d => d.1 == ly) then s2 else s2.bumpPen p (.bucket (bucketOf n)) 1
          ((s3.bumpPen p .rows rows.length).bumpPen p .emptyPartials (ps.filter (·.empty)).length).bumpPen p
            .nonfiniteRows (ps.filter (·.nonfinite)).length
    | _, _ => s
  | _, _ => s

/-- Deliver what is ready of a layer for every entry: a stall of the layer has ended (R122). -/
def State.deliverLayer (s : State) (f ly : Nat) : State :=
  match s.run? f with
  | none => s
  | some r => (List.range r.plan.entries.length).foldl (fun t i => t.deliver f i ly) s

end Sys2Proof.Machine
end

