-- ==== Sys2Proof/Machine/Timing.lean ====
section
/-!
DEFINITION. The ox time of a layer (05_shepherd_planning R119, R456; 07_split_attention R168, R170, R171; 08_sketch_search
R197): bounds of passes, what an entry places on the oxen, and the bounds to which a plan's layer table is held.
-/
namespace Sys2Proof.Machine

/-! ### The bound of a pass (R171, Table 7.8) -/

/-- MAC rate of a format per ox cycle. -/
def macRate (format : Nat) : Nat := if format = 0 then 1024 else if format = 7 ∨ format = 9 then 8192 else 4096

/-- KV heads that `n` rows from row `first` use. -/
def Layout.headsUsed (l : Layout) (first n : Nat) : Nat :=
  (((List.range (min n l.queryHeads)).map fun i =>
    (first + i) % l.queryHeads * l.kvHeads / l.queryHeads).eraseDups).length

/-- Widths of the score and of the value phase (W_k, W_v). -/
def Layout.scoreWidth (l : Layout) : Nat := if l.latent then l.latentWidth + l.ropeWidth else l.headWidth
def Layout.outWidth (l : Layout) : Nat := if l.latent then l.latentWidth else l.headWidth

/-- Bytes per position that a phase of width `w` reads for `heads` KV heads. -/
def Layout.phaseBytes (l : Layout) (format heads w : Nat) : Nat :=
  if l.latent then formatBytes format w else heads * formatBytes format w

/-- A compute phase over the positions of a tile, summed over its formats: the slower of arithmetic and reads. -/
def Layout.phaseCycles (l : Layout) (fs : List Sheaf) (first n w : Nat) : Nat :=
  let formats := (fs.map (·.format)).eraseDups
  let held (t : Nat) : Nat := ((fs.filter fun f => f.format == t).map (·.count)).sum
  -- the formats' rates divide 8,192, so the sum of the quotients is exact over it
  let work := (formats.map fun t => n * held t * w * (8192 / macRate t)).sum
  let read := (fs.map fun f => f.count * l.phaseBytes f.format (l.headsUsed first n) w).sum
  max (ceilDiv work 8192) (ceilDiv read 365)

/-- Load and Score of Table 7.4. -/
def Layout.scoreCycles (l : Layout) (fs : List Sheaf) (first n : Nat) : Nat := 256 + l.phaseCycles fs first n l.scoreWidth

/-- Normalise and Value of Table 7.4. -/
def Layout.valueCycles (l : Layout) (fs : List Sheaf) (first n : Nat) : Nat :=
  2 * ceilDiv (n * (fs.map (·.count)).sum) 256 + l.phaseCycles fs first n l.outWidth

/-- The bound of a whole pass in always-on cycles. -/
def Layout.passBound (l : Layout) (fs : List Sheaf) (first n : Nat) : Nat :=
  ceilDiv (l.scoreCycles fs first n + l.valueCycles fs first n) 28

/-- The bounds of the passes that `rows` rows take over some tiles. -/
def Layout.passBounds (l : Layout) (rows : Nat) (tiles : List (Nat × List Sheaf)) : List Nat :=
  tiles.flatMap fun t => (List.range (chunkCount rows t.2.length)).map fun c =>
    l.passBound t.2 (chunkRows rows t.2.length c).1 (chunkRows rows t.2.length c).2

/-! ### What an entry places on the oxen -/

/-- The ox work of an entry in a layer: its longest chain and its sum in always-on cycles, its passes, and whether the choice
that selection makes keeps them from being known. -/
structure LayerWork where
  chain : Nat := 0
  total : Nat := 0
  passes : Nat := 0
  selects : Bool := false
  /-- The planned end of Merge, counted from the arrival of the rows (08 R197). -/
  merged : Nat := 0
  deriving DecidableEq, Repr

/-- Members of E per Hamming chunk. -/
def hammingChunks (es : List Sheaf) : List Nat :=
  ((es.map fun g => g.ordinal / 4096).eraseDups).map fun h => (es.filter fun g => g.ordinal / 4096 == h).length

/-- The phases of Table 8.2 for a selecting entry of `rows` rows: E and F as they stand, C and K as many as they can be. -/
def Layout.selectWork (l : Layout) (rows : Nat) (es forced : List Sheaf) : LayerWork :=
  let sketch := ceilDiv (rows * 256 * l.scoreWidth) 1024
  let ham := (hammingChunks es).map fun n => 256 + max (ceilDiv (64 * n) 365) (ceilDiv (rows * n) 64)
  let merged := ceilDiv (sketch + ham.foldl max 0 + 1792) 28
  let score := l.passBounds rows (tilesOf (forced ++ es.take maxCandidates))
  let value := l.passBounds rows (tilesOf (forced ++ es.take budget))
  { chain := merged + score.foldl max 0 + ceilDiv 1792 28 + value.foldl max 0,
    total := merged + ceilDiv ham.sum 28 + score.sum + ceilDiv 1792 28 + value.sum,
    passes := score.length + value.length, selects := true, merged := merged }

/-- A session's map as it will stand with `kv` positions of KV (R168): each layer's open tail filled, and what follows in new
sheaves. -/
def Session.grownMap (x : Session) (h : Handle) (l : Layout) (kv : Nat) : List Sheaf :=
  (List.range l.layers).flatMap fun ly =>
    let own := x.map.filter fun g => g.layer == ly
    let have_ := (own.map fun g => g.startPos + g.count).foldl max 0
    let room := ((own.filter fun g => !g.isSealed && !g.shared).map fun g => 128 - g.count).sum
    let fill (g : Sheaf) : Sheaf :=
      if g.isSealed || g.shared then g else { g with count := g.count + min room (kv - have_) }
    let more := kv - have_ - room
    let next := (own.map (·.ordinal + 1)).foldl max 0
    own.map fill ++ (List.range (ceilDiv more 128)).map fun i =>
      { owner := h, ordinal := next + i, layer := ly, startPos := have_ + room + 128 * i, format := l.nativeFormat,
        count := min 128 (more - 128 * i), node := 0 }

/-- A session as the snapshot assumes it at its next step (R107, R168): the current step completes its appends. -/
def Session.assumed (x : Session) (h : Handle) (l : Layout) (current : Option PlanEntry) : Session :=
  match current with
  | some e =>
    let kv := max x.kvPositions (e.position + e.tokens)
    { x with kvPositions := kv, map := x.grownMap h l kv }
  | none => x

/-- The rows an entry may bring in a layer: DRAFTS is at most DRAFT_MAX. -/
def PlanEntry.mostRows (e : PlanEntry) (l : Layout) : Nat :=
  (if e.kind = .decode then 1 + e.draftMax else e.tokens) * l.queryHeads

/-- The device source of a layer of a session as it will stand: a sheaf still to come goes into the entry's lease, if it has
one (R54), or lies in T1. -/
def State.comingDevice (s : State) (f : Nat) (l : Layout) (x : Session) (e : PlanEntry) (ly : Nat) : List Sheaf :=
  (s.plannedDevice f e x l ly).filter fun g => e.leaseId.isNone || (s.sheafAt g).isSome

/-- The work of an entry in a layer. -/
def State.layerWork (s : State) (f : Nat) (l : Layout) (x : Session) (e : PlanEntry) (ly : Nat) : LayerWork :=
  let xs := s.comingDevice f l x e ly
  let rows := e.mostRows l
  let es := xs.filter fun g => !s.isForced l g
  if e.select && decide (selectMin < es.length) then l.selectWork rows es (xs.filter (s.isForced l))
  else
    let ps := l.passBounds rows (tilesOf xs)
    { chain := ps.foldl max 0, total := ps.sum, passes := ps.length }

/-- The positions that an entry's device and pool sources hold in a layer, and the sheaves whose promotion its price covers:
every one that is not in T1, and where selection runs as many of C as there can be, and all of F (08 R197). -/
def State.layerCost (s : State) (f : Nat) (l : Layout) (x : Session) (e : PlanEntry) (ly : Nat) : Nat × Nat :=
  let xs := s.comingDevice f l x e ly
  let es := xs.filter fun g => !s.isForced l g
  let away (fs : List Sheaf) : Nat := (fs.filter fun g => (s.sheafAt g).isSome && (s.inT1 g).isNone).length
  let pools := ((s.plannedPools f e x l ly).map fun k => (k.2.2.map (·.count)).sum).sum
  if e.select && decide (selectMin < es.length) then
    let fs := xs.filter (s.isForced l)
    (pools + (fs.map (·.count)).sum + 128 * budget, away fs + min maxCandidates (away es))
  else (pools + (xs.map (·.count)).sum, away xs)

/-! ### The bounds of R456 -/

/-- Offsets never fall from layer to layer. -/
def risingFrom (a b c : Nat) : List LayerTiming → Bool
  | [] => true
  | t :: ts => decide (a ≤ t.streamDue) && decide (b ≤ t.promoteDue) && decide (c ≤ t.partialDue)
      && risingFrom t.streamDue t.promoteDue t.partialDue ts

/-- The bounds of R456 on a layer table. -/
def tableOk (p : PlanParams) (l : Layout) (table : List LayerTiming) : Bool :=
  decide (table.length = l.layers) && risingFrom 0 0 0 table && table.all fun t =>
    decide (t.streamDue ≤ t.partialDue) && decide (t.promoteDue ≤ t.partialDue)
      && decide (t.partialDue ≤ p.period - 1024 * p.planLead) && decide (t.oxPasses < 65536)
      && decide (64 ≤ t.span) && decide (t.span ≤ t.partialDue)

/-- One layer's SPAN, OX_PASSES and PROMOTE_DUE hold what the plan places on `oxen` oxen (R119, R168, R456; 08 R197): `own` is
the work of its entries, `rest` that of the standby ones, and `time` the layer's time. -/
def layerOk (oxen time : Nat) (t : LayerTiming) (own rest : List LayerWork) : Bool :=
  let all := own ++ rest
  let chain := t.span - 64
  let total := (all.map (·.total)).sum
  decide ((all.map (·.chain)).foldl max 0 ≤ chain) && decide (ceilDiv total oxen ≤ chain)
    && (all.any (·.selects) || decide (chain ≤ total))
    && decide (16 * chain ≤ 15 * time)
    && (decide ((own.map (·.passes)).sum ≤ t.oxPasses) || all.any (·.selects))
    && decide (t.oxPasses ≤ (all.map (·.passes)).sum)
    && all.all fun w => !w.selects || decide (t.partialDue - t.span + w.merged ≤ t.promoteDue)

/-- The layers of a table, each with PARTIAL_DUE of the one before it. -/
def layerTimes (prev : Nat) : List LayerTiming → List (Nat × LayerTiming)
  | [] => []
  | t :: ts => (t.partialDue - prev, t) :: layerTimes t.partialDue ts

/-- The layer table of a built plan holds its work, entries and standby alike (R168, R456). In LAYER_ORDER the oxen run
fallback passes only (R130). -/
def State.timingOk (s : State) (f : Nat) (l : Layout) (assumed : PlanEntry → Option Session) (p : Plan) : Bool :=
  let works (es : List PlanEntry) (ly : Nat) : List LayerWork :=
    if p.layerOrder then []
    else es.filterMap fun e => (assumed e).map fun x => s.layerWork f l x e ly
  ((layerTimes 0 p.layers).zipIdx).all fun t =>
    layerOk (max 1 s.recovery.oxen.length) t.1.1 t.1.2 (works p.entries t.2) (works p.standby t.2)

/-! ### The fallback reserve (R119, R120, R183, R184) -/

/-- Ox cycles of the passes of a layer that an entry has not begun when it sits out (R183). -/
def State.freedOf (s : State) (l : Layout) (e : PlanEntry) (ly : Nat) : Nat :=
  match e.sitOut, s.sess? e.handle with
  | some _, some x =>
    if e.selects x ly then 0
    else
      let rows := e.rowCount l
      28 * ((tilesOf (e.deviceSource x ly)).map fun t => ((List.range (chunkCount rows t.2.length)).map fun c =>
        let q := chunkRows rows t.2.length c
        if e.passes.contains (ly, t.1, c, false) then 0 else l.passBound t.2 q.1 q.2).sum).sum
  | _, _ => 0

/-- Ox cycles that a layer of a plan reserves: 1/16 of its time on every ox of the census, and what sit-outs have freed
(R183). -/
def State.reserveOf (s : State) (l : Layout) (p : Plan) (ly : Nat) : Nat :=
  match (layerTimes 0 p.layers)[ly]? with
  | some t => s.recovery.oxen.length * t.1 * 28 / 16 + (p.entries.map fun e => s.freedOf l e ly).sum
  | none => 0

/-- Ox cycles that passes claim of it, in ox cycles. -/
def Layout.passCycles (l : Layout) (rows : Nat) (tiles : List (Nat × List Sheaf)) : Nat := 28 * (l.passBounds rows tiles).sum

/-- What fallbacks and reruns have claimed of a layer's reserve. -/
def StepRun.claimedOf (r : StepRun) (ly : Nat) : Nat := (assocGet ly r.claimed).getD 0

/-- Claim `n` ox cycles of a layer's reserve. -/
def State.claim (s : State) (f ly n : Nat) : State :=
  s.modRun f fun r => { r with claimed := assocSet ly (r.claimedOf ly + n) r.claimed }

/-- The tiles of an entry's lease in a layer, as a fallback attends them (R120). -/
def State.leaseTiles (s : State) (f : Nat) (e : PlanEntry) (x : Session) (ly : Nat) : List (Nat × List Sheaf) :=
  match s.entryLease f e with
  | some ls => tilesOf (sortBy (fun p q => decide (p.ordinal ≤ q.ordinal)) (x.map.filter fun g => g.layer == ly && ls.covers g))
  | none => []

end Sys2Proof.Machine
end

