-- ==== Sys2Proof/Machine/Plans.lean ====
section
/-!
DEFINITION. Building a plan (05_shepherd_planning R102, R103, R105, R109 to R114, R130, R142, R455, R456): parameters,
eligibility, entries, tiers, prices and the fit to the grant, with the layer table's bounds.
-/
namespace Sys2Proof.Machine

/-! ### PLAN_PARAMS (Table 5.1) -/

/-- PLAN_PARAMS of an operand. -/
def planParamsOf (v : Nat) : PlanParams :=
  { layout := bitsOf v 0 6, enable := bitOf v 6, layerOrder := bitOf v 7, stageAhead := bitOf v 8,
    period := bitsOf v 16 24, planLead := bitsOf v 40 8, maxSessions := bitsOf v 48 13, lcSlots := bitsOf v 64 13,
    prefillTokens := bitsOf v 80 17, hotSheaves := bitsOf v 104 8, beQuantum := bitsOf v 112 16,
    anchorStallMax := bitsOf v 128 24, prefetchDepth := bitsOf v 152 3, standby := bitsOf v 160 7 }

/-- The checks of R103, by descriptor byte; PLAN_PARAMS starts at byte 24. -/
def planParamsChecks (v : Nat) (installed : Bool) : List (Nat × Bool) :=
  let p := planParamsOf v
  [(24, p.enable && !installed), (26, decide (p.period < 32768)),
   (29, decide (p.planLead < 16) || decide (p.period < 2 * (p.planLead * 1024))),
   (30, decide (p.maxSessions = 0) || decide (4096 < p.maxSessions)),
   (32, decide (p.maxSessions < p.lcSlots)), (34, decide (65536 < p.prefillTokens)),
   (43, p.layerOrder && p.prefetchDepth == 0), (44, decide (64 < p.standby))]

/-! ### Eligibility (R105, R109, R25, R130, R142) -/

/-- The session could be planned by flock `f` but for the tiers: its state, its layout, its flock (R105, R109). A
FAULTED session is planned for its regrowth (12 R318), which is over while the registry is asked (01 R23). -/
def candidate (f : Nat) (k : Flock) (x : Session) : Bool :=
  let running := x.state == .running && x.flock == some f && x.faultCause.isNone
  (x.state == .runnable || running || (x.state == .faulted && x.regrowing && !x.rehoming)) && x.layout == k.params.layout
    && (match x.anchorFlock with | some a => a == f | none => (match x.flock with | some b => b == f | none => true))

/-- An unbound session that another flock's snapshot has admitted is that flock's (R105): the first admits it. -/
def State.claimedElsewhere (s : State) (f : Nat) (h : Handle) : Bool :=
  s.flocks.any fun k => k.1 != f && match k.2.next with | some p => p.entries.any fun e => e.handle == h | none => false

/-- R25: record, map and open tails in T1. -/
def Session.tailsHome (x : Session) : Bool := x.tier == .t1 && x.map.all fun g => g.isSealed || g.tier == .t1

/-- Every sheaf that a session attends is in this device's T1 (R130). -/
def State.allHome (s : State) (x : Session) : Bool := x.map.all fun g => (s.inT1 g).isSome

/-- R25, and in LAYER_ORDER R130. -/
def State.placed (s : State) (k : Flock) (x : Session) : Bool :=
  x.tailsHome && (!k.params.layerOrder || s.allHome x || x.state == .faulted)

/-! ### Entries (R113, R455) -/

/-- KV_POSITIONS and the positions to come, as the snapshot assumes them for a session in the step (R107). -/
def assumed (x : Session) (current : Option PlanEntry) : Nat × Nat :=
  match current with
  | some e =>
    let kv := max x.kvPositions (e.position + e.tokens)
    (kv, if x.isPrefix then x.positions - kv else max 1 (x.positions - kv))
  | none => (x.kvPositions, x.positions - x.kvPositions)

/-- The session's entry before leases and attention are known: kind, position and tokens. -/
def baseEntry (h : Handle) (f : Nat) (x : Session) (draftMax : Nat) (current : Option PlanEntry) : PlanEntry :=
  let t := assumed x current
  let kind : EntryKind := if x.state = .faulted then .regrow
    else if t.1 < x.inputEnd || t.2 != 1 || x.isPrefix then .prefill else .decode
  let one := t.2 == 0
  { handle := h, kind := kind, latencyCritical := x.latencyCritical, anchored := x.anchorFlock == some f,
    draftMax := if kind = .decode then min draftMax (2 ^ 27 - 1 - min (2 ^ 27 - 1) x.positions) else 0,
    position := if one then t.1 - 1 else t.1, tokens := if one then 1 else t.2, oneToken := one, price := 0 }

/-- The code of a kind (Table 5.4). -/
def kindCode : EntryKind → Nat
  | .decode => 0 | .prefill => 1 | .regrow => 2

/-- The entry's price under the flock's multiplier (R111, R381). -/
def State.entryPrice (s : State) (f : Nat) (e : PlanEntry) : Nat :=
  s.priced f (Config.price (kindCode e.kind) e.latencyCritical e.tokens e.select e.work e.t3Sources.length)

/-- The lease of this flock that a plan may name for a session: its live TAIL lease here (R126). -/
def State.usableLease (s : State) (f : Nat) (h : Handle) : Option Lease :=
  (s.leasesOf f).find? fun l => l.handle == h && l.tail && l.state != .cancelled && !l.ending

/-- DEVICE_SHEAVES, SELECT, T3_SOURCES and the price of an entry, given its lease and its session as its step will find it
(R195, Table 5.4). -/
def State.fillEntry (s : State) (f : Nat) (layerOrder : Bool) (l : Layout) (x : Session) (e : PlanEntry) : PlanEntry :=
  let e1 := { e with leaseId := (s.usableLease f e.handle).map (·.id) }
  let e2 : PlanEntry :=
    if layerOrder then e1
    else
      let lys := List.range l.layers
      let sel := e1.kind == .decode && lys.any fun ly =>
        decide (selectMin < ((s.comingDevice f l x { e1 with select := true } ly).filter fun g => !s.isForced l g).length)
      let e1 := { e1 with select := sel }
      { e1 with
        deviceSheaves := if sel then budget else (lys.map fun ly => (s.comingDevice f l x e1 ly).length).foldl max 0,
        t3Sources := ((lys.flatMap fun ly => s.plannedPools f e1 x l ly).map (·.1)).eraseDups,
        work := ((lys.map fun ly => s.layerCost f l x e1 ly).filter fun w => w.1 != 0).map fun w => (bucketOf w.1, w.2) }
  { e2 with price := s.entryPrice f e2 }

/-! ### Candidates in order (R110) -/

/-- A candidate: its group and place in the key of R110, and its entry. -/
structure Cand where
  group : Nat
  ord : Nat
  ran : Bool
  entry : PlanEntry
  deriving DecidableEq, Repr

/-- The key's order, ties to the lower handle. -/
def Cand.le (a b : Cand) : Bool :=
  decide (a.group < b.group) || (a.group == b.group && (decide (a.ord < b.ord)
    || (a.ord == b.ord && decide (a.entry.handle.toNat ≤ b.entry.handle.toNat))))

/-- The candidate of a session. -/
def State.candOf (s : State) (f : Nat) (k : Flock) (l : Layout) (h : Handle) (x : Session) : Cand :=
  let cur := match k.run with | some r => r.plan.entries.findIdx? (fun (e : PlanEntry) => e.handle == h) | none => none
  let curE := (s.entryOf h).bind fun t => s.planEntry? t.1 t.2
  let sat := match curE with | some e => e.sitOut.isSome | none => false
  let q := k.params.beQuantum
  let group := if sat then 1 else if cur.isNone then 3 else if q ≠ 0 && decide (q ≤ x.runLength) then 4 else 2
  { group := group, ord := if sat then 0 else cur.getD x.readyCycle, ran := cur.isSome,
    entry := s.fillEntry f k.params.layerOrder l (x.assumed h l (if sat then none else curE))
      (baseEntry h f x (s.flockDraftMax k) (if sat then none else curE)) }

/-- Candidates whose pens' T1 takes their reservations, in session-table order, and those left waiting on tiers
(R109, R142). -/
def State.reserveFor (s : State) (k : Flock) (l : Layout) :
    List (Handle × Session × Cand) → List (Nat × Nat) → List Cand × List Handle
  | [], _ => ([], [])
  | (h, x, c) :: rest, acc =>
    let p := handlePen h
    let need := entryReservation l (x.tailFormat l) (x.fillAt c.entry) { c.entry with tokens := min c.entry.tokens k.params.prefillTokens }
    let held := (assocGet p acc).getD 0
    if s.placed k x && decide (s.used p .t1 + held + need ≤ s.quota p .t1) then
      let r := s.reserveFor k l rest (assocSet p (held + need) acc)
      (c :: r.1, r.2)
    else
      let r := s.reserveFor k l rest acc
      (r.1, h :: r.2)

/-! ### PREFILL_TOKENS (R113) -/

/-- A tier's order with its REGROW entries before its PREFILL entries: those that stand behind a PREFILL come before the first
one. -/
def regrowFirst (cs : List Cand) : List Cand :=
  let head := cs.takeWhile fun c => c.entry.kind != .prefill
  let rest := cs.drop head.length
  head ++ rest.filter (fun c => c.entry.kind == .regrow) ++ rest.filter fun c => c.entry.kind != .regrow

/-- An entry shrunk to `n` positions of PREFILL_TOKENS. -/
def Cand.draw (c : Cand) (n : Nat) : Cand :=
  if c.entry.kind = .decode then c else { c with entry := { c.entry with tokens := min n c.entry.tokens } }

/-- Positions of PREFILL_TOKENS that an entry takes. -/
def Cand.takes (c : Cand) : Nat := if c.entry.kind = .decode then 0 else c.entry.tokens

/-- Entries in order, each with its draw on PREFILL_TOKENS; those left without any are dropped. -/
def allot : Nat → List Cand → List Cand
  | _, [] => []
  | n, c :: cs =>
    let d := c.draw n
    if d.entry.tokens = 0 then allot n cs else d :: allot (n - d.takes) cs

/-- Positions that entries draw. -/
def drawn (cs : List Cand) : Nat := (cs.map Cand.takes).sum

/-! ### Tier 1 (R110) -/

/-- A pen's reservation: floor(LC_SLOTS × ENERGY_FLOOR / S). -/
def State.penSlots (s : State) (k : Flock) (pens : List Nat) (p : Nat) : Nat :=
  let floor (q : Nat) : Nat := ((s.pen? q).map (·.cfg.energyFloor)).getD 0
  let sum := (pens.map floor).sum
  if sum = 0 then 0 else k.params.lcSlots * floor p / sum

/-- The leading candidates whose price stays within a floor. -/
def withinFloor : Nat → List Cand → List Cand
  | _, [] => []
  | n, c :: cs => if c.entry.price ≤ n then c :: withinFloor (n - c.entry.price) cs else []

/-- Candidates priced again after shrinking. -/
def State.reprice (s : State) (f : Nat) (cs : List Cand) : List Cand :=
  cs.map fun c => { c with entry := { c.entry with price := s.entryPrice f c.entry } }

/-- Put candidates into a tier. -/
def inTier (t : Nat) (cs : List Cand) : List Cand := cs.map fun c => { c with entry := { c.entry with tier := t } }

/-- The three tiers, each in order; tier 1 with its draw on PREFILL_TOKENS. `pens` are those with an eligible session. -/
def State.tiersOf (s : State) (f : Nat) (k : Flock) (pens : List Nat) (cs : List Cand) : List Cand × List Cand × List Cand :=
  let sorted := sortBy Cand.le cs
  let lc := sorted.filter fun c => c.entry.latencyCritical
  let head := pens.flatMap fun p => (lc.filter fun c => handlePen c.entry.handle == p).take (s.penSlots k pens p)
  let a := s.reprice f (allot k.params.prefillTokens (regrowFirst head))
  let one := pens.flatMap fun p =>
    withinFloor (s.penFloor p f k.params.period) (a.filter fun c => handlePen c.entry.handle == p)
  let rest := lc.filter fun c => !one.any fun o => o.entry.handle == c.entry.handle
  (inTier 1 one, regrowFirst (inTier 2 rest), regrowFirst (inTier 3 (sorted.filter fun c => !c.entry.latencyCritical)))

/-! ### The fit (R111, R112) -/

/-- The sum of the prices. -/
def priceOf (cs : List Cand) : Nat := (cs.map fun c => c.entry.price).sum

/-- The largest count below `n` whose price is at most `left`, with the shrunk candidate. -/
def State.shrinkTo (s : State) (f left : Nat) (c : Cand) : Option Cand :=
  ((List.range c.entry.tokens).reverse.filter fun t => decide (0 < t)).findSome? fun t =>
    let e := { c.entry with tokens := t }
    let e := { e with price := s.entryPrice f e }
    if e.price ≤ left then some { c with entry := e } else none

/-- What fitting a tier leaves: admitted, out with a cause, and the energy, places and PREFILL_TOKENS left. -/
structure Fit where
  admitted : List Cand := []
  out : List (Cand × PreCause) := []
  left : Nat
  slots : Nat
  tokens : Nat
  deriving DecidableEq, Repr

/-- A tier in order (R111). An entry draws on PREFILL_TOKENS as it is admitted (R113); one that finds none left is out with
cause CAPACITY. -/
def State.fitTier (s : State) (f : Nat) : Nat → Nat → Nat → List Cand → Fit
  | left, slots, n, [] => { left := left, slots := slots, tokens := n }
  | left, slots, n, c :: cs =>
    let w0 := (c.draw n).entry
    let w : Cand := { c with entry := { w0 with price := s.entryPrice f w0 } }
    if slots = 0 || w.entry.tokens = 0 then
      let r := s.fitTier f left slots n cs
      { r with out := (if w.entry.tokens = 0 then c else w, .capacity) :: r.out }
    else if w.entry.price ≤ left then
      let r := s.fitTier f (left - w.entry.price) (slots - 1) (n - w.takes) cs
      { r with admitted := w :: r.admitted }
    else match (if c.entry.kind = .decode then none else s.shrinkTo f left w) with
      | some d =>
        let r := s.fitTier f (left - d.entry.price) (slots - 1) (n - d.takes) cs
        { r with admitted := d :: r.admitted }
      | none =>
        let r := s.fitTier f left slots n cs
        { r with out := (w, .energy) :: r.out }

/-- Tiers 2 and 3 in order: admitted, and out with a cause. -/
def State.fitRest (s : State) (f left slots n : Nat) (two three : List Cand) : List Cand × List (Cand × PreCause) :=
  let r := s.fitTier f left slots n two
  let q := s.fitTier f r.left r.slots r.tokens three
  (r.admitted ++ q.admitted, r.out ++ q.out)

/-- The place of the entry that R112 drops next: the last of the pen with the largest reservation. -/
def State.dropOne (s : State) (k : Flock) (pens : List Nat) (one : List Cand) : Option Handle :=
  let held := (one.map fun c => handlePen c.entry.handle).eraseDups
  let best := held.foldl (fun (m : Option Nat) p => match m with
    | none => some p
    | some q =>
      let a := s.penSlots k pens p
      let b := s.penSlots k pens q
      if b < a ∨ (a = b ∧ p < q) then some p else some q) none
  best.bind fun p => ((one.filter fun c => handlePen c.entry.handle == p).getLast?).map fun c => c.entry.handle

/-- Tier 1 entries dropped until the rest costs at most `n` (R112): kept, and dropped. -/
def State.dropTier1 (s : State) (k : Flock) (pens : List Nat) (n : Nat) : Nat → List Cand → List Cand × List Cand
  | 0, one => (one, [])
  | fuel + 1, one =>
    if priceOf one ≤ n then (one, [])
    else match s.dropOne k pens one with
      | none => (one, [])
      | some h =>
        let r := s.dropTier1 k pens n fuel (one.filter fun c => c.entry.handle != h)
        (r.1, (one.filter fun c => c.entry.handle == h) ++ r.2)

/-- LAYER_ORDER admits while slots for PREFETCH_DEPTH + 1 layers last (R130): kept, and left out. -/
def State.slotFit (s : State) (k : Flock) (l : Layout) : Nat → List Cand → List Cand × List Cand
  | _, [] => ([], [])
  | slots, c :: cs =>
    let per := match s.sess? c.entry.handle with
      | some x => ((List.range l.layers).map fun ly => (x.map.filter fun g => g.layer == ly).length).foldl max 0
      | none => 0
    let need := per * (k.params.prefetchDepth + 1)
    let fmt := match s.sess? c.entry.handle with
      | some x => (s.leaseFormat k l (match x.map with | g :: _ => g.format | [] => l.nativeFormat)).isSome
      | none => false
    if fmt && decide (need ≤ slots) then
      let r := s.slotFit k l (slots - need) cs
      (c :: r.1, r.2)
    else
      let r := s.slotFit k l slots cs
      (r.1, c :: r.2)

/-- The cause of a session left out: QUANTUM where its run reached BE_QUANTUM and a waiting session of its tier took a
place (Table 5.6). -/
def outCause (admitted : List Cand) (c : Cand) (why : PreCause) : PreCause :=
  if c.group = 4 && admitted.any (fun a => a.group == 3 && a.entry.tier == c.entry.tier) then .quantum else why

/-- The flock in whose plans the background moves of a session have their slots; none for one bound to no step, whose moves the
service plan carries (R128, 06 R159). -/
def State.moveFlock (s : State) (m : Move) : Option Nat :=
  (s.sess? m.subject.owner).bind fun x => x.flock.bind fun f => if (assocGet f s.flocks).isSome then some f else none

/-- The moves that no plan asks for and that still take slots, of the sessions bound to `f`, or to none (R128). -/
def State.backgroundMoves (s : State) (f : Option Nat) : List Move :=
  s.moves.filter fun m => m.forPlan.isNone && (m.state == .queued || m.state == .copying) && s.moveFlock m == f

/-- Drover slots of 26,214,400 bytes that moves take (06 R159). -/
def State.slotsOf (s : State) (ms : List Move) : Nat := (ms.map fun m => ceilDiv (s.subjectBytes m.subject) 26214400).sum

/-- Domains that a plan names and that are not in RUN. -/
def State.wakesFor (s : State) (ds : List Nat) : Nat := (ds.filter fun d => !s.domainRuns d).length

/-- The sheaves that an entry's device source names where nothing selects: the plan promotes those not in T1 and holds them
there (R158, R141). -/
def State.promotionsFor (s : State) (f : Nat) (l : Layout) (e : PlanEntry) : List (Handle × Nat × Nat) :=
  match s.sess? e.handle with
  | none => []
  | some x =>
    (List.range l.layers).flatMap fun ly =>
      let xs := s.plannedDevice f e x l ly
      if e.select && decide (selectMin < (xs.filter fun g => !s.isForced l g).length) then []
      else (xs.filter fun g => !s.isMissing g).map fun g => (g.owner, g.layer, g.ordinal)

/-- The plan of flock `f` at its snapshot, with the state after pricing (R109 to R113); `n` is its step number. -/
def State.buildPlan (s : State) (f n : Nat) (k : Flock) (l : Layout) (table : List LayerTiming) : Plan × State :=
  -- with the own half of the Ledger area full no group could be written (12 R315)
  let base := s.sessions.filter fun x =>
    candidate f k x.2 && !s.claimedElsewhere f x.1 && (x.2.state == .faulted || !s.ledgerSpent)
  -- a prefix session whose last input the running step computes parks at its boundary (02 R51)
  let all := (base.map fun x => (x.1, x.2, s.candOf f k l x.1 x.2)).filter fun t =>
    !(t.2.1.isPrefix && t.2.1.state == .running && t.2.2.entry.oneToken)
  let r := s.reserveFor k l all []
  let eligible := r.1
  let counts := ((eligible.map fun c => handlePen c.entry.handle).eraseDups).map fun p =>
    (p, (eligible.filter fun c => c.entry.latencyCritical && handlePen c.entry.handle == p).length)
  let s1 := { s with hearth := { s.hearth with counts := assocSet f counts s.hearth.counts } }
  let fit := if k.params.layerOrder then s1.slotFit k l (s1.slotSpace k) (sortBy Cand.le eligible) else (eligible, [])
  let pens := ((eligible.map fun c => handlePen c.entry.handle).eraseDups)
  let t := s1.tiersOf f k pens fit.1
  -- scans go with the service plan (R128), which places none in a flock's
  let moves := s1.backgroundMoves (some f)
  let wakes := s1.wakesFor planDomains
  let fixed := Config.fixedPrice (s1.slotsOf moves) 0 wakes
  let fixed0 := Config.fixedPrice 0 0 wakes
  let slots := k.params.maxSessions - t.1.length
  -- no plan costs as much, so this is the price of tiers 2 and 3 up to the slots left
  let request := fixed + priceOf t.1
    + priceOf (s1.fitRest f (2 ^ 128) slots (k.params.prefillTokens - drawn t.1) t.2.1 t.2.2).1
  let g := s1.grant f k.params.period k.params.maxSessions request (fixed0 + priceOf t.1)
  let deferred := decide (g.1 < fixed + priceOf t.1)
  let fx := if deferred then min fixed0 g.1 else fixed
  let one := g.2.dropTier1 k pens (g.1 - fx) t.1.length t.1
  let left := g.1 - fx - priceOf one.1
  let fr := g.2.fitRest f left (k.params.maxSessions - one.1.length) (k.params.prefillTokens - drawn one.1) t.2.1 t.2.2
  let admitted := one.1 ++ fr.1
  let out := one.2.map (fun c => (c, PreCause.energy)) ++ fr.2
  let standby := (fr.2.map (·.1)).take k.params.standby
  let plan : Plan :=
    { step := n, entries := admitted.map (·.entry), layers := table, period := k.params.period, grant := g.1,
      price := fx + priceOf admitted, layerOrder := k.params.layerOrder, layout := l.id, depth := k.params.prefetchDepth,
      stallMax := k.params.anchorStallMax, moves := if deferred then [] else moves.map (·.id), standby := standby.map (·.entry),
      left := r.2.map (fun h => (h, PreCause.tier)) ++ fit.2.map (fun c => (c.entry.handle, PreCause.capacity))
        ++ out.map fun o => (o.1.entry.handle, outCause admitted o.1 o.2),
      promotions := (admitted.flatMap fun c => g.2.promotionsFor f l c.entry).eraseDups }
  (plan, { g.2 with ident := { g.2.ident with powerCapped := decide (g.1 < request) } })

/-! ### The plan as bytes (R108) -/

/-- The plan header (Table 5.3). -/
def Plan.header (p : Plan) (f : Nat) : List Byte :=
  packBytes 64 [(64, p.step), (3, f), (1, bitNat p.layerOrder), (6, p.layout), (6, 0), (13, p.entries.length), (3, 0),
    (11, p.layers.length), (21, 0), (24, p.period), (8, 0), (32, p.grant), (32, p.price), (288, 0)]

/-- A plan session entry (Table 5.4). -/
def PlanEntry.bytes (e : PlanEntry) : List Byte :=
  packBytes 32 [(64, e.handle.toNat), (2, kindCode e.kind), (1, bitNat e.latencyCritical), (1, bitNat e.anchored),
    (4, e.draftMax), (8, 0), (27, e.position), (5, 0), (17, e.tokens), (15, 0), (32, e.leaseId.getD 0xFFFFFFFF),
    (21, e.deviceSheaves), (1, bitNat e.select), (2, 0), (8, e.t3Sources.length), (48, 0)]

/-- A plan layer entry (Table 5.5). -/
def LayerTiming.bytes (t : LayerTiming) : List Byte :=
  packBytes 16 [(32, t.streamDue), (32, t.promoteDue), (32, t.partialDue), (16, t.oxPasses), (16, 0)]

/-- The plan of R108. -/
def Plan.bytes (p : Plan) (f : Nat) : List Byte :=
  p.header f ++ p.entries.flatMap PlanEntry.bytes ++ p.layers.flatMap LayerTiming.bytes

/-- The input ids of an entry (R258). -/
def State.inputIds (s : State) (e : PlanEntry) : List Byte :=
  match s.sess? e.handle with
  | none => []
  | some x => ((x.region.hist.drop e.position).take e.tokens).flatMap fun t => natToBytes 4 t.1

end Sys2Proof.Machine
end

