-- ==== Sys2Proof/Machine/Deliver.lean ====
section
/-!
DEFINITION. Delivering a plan (05_shepherd_planning R106, R115 to R117, R126, R127; 10_step_link R253, R258, R261, R263):
JOIN, leases at a boundary, the final plan, and pre-emptions.
-/
namespace Sys2Proof.Machine

/-! ### JOIN (R253) -/

/-- The body of JOIN (Table 10.9). -/
def State.joinBody (s : State) (f : Nat) (k : Flock) (l : Layout) : List Byte :=
  packBytes 16 [(3, f), (5, 0), (8, (k.ports.map fun p => 2 ^ p).sum), (32, s.slotSpace k), (4, s.flockDraftMax k),
    (76, 0)] ++ l.raw

/-- JOIN goes out to every port of an enabled flock that has not joined, once every port has told its slots. -/
def State.tryJoin (s : State) (f : Nat) : State :=
  match assocGet f s.flocks with
  | none => s
  | some k =>
    match s.layout? k.params.layout with
    | none => s
    | some l =>
      if k.params.enable && k.destroying.isNone && k.ports.all (fun p => (s.stepPort p).slots.isSome) then
        (k.ports.filter fun p => !(s.stepPort p).joined && !(s.stepPort p).joinSent
            && ((s.stepPort p).state == .linked || (s.stepPort p).state == .up)).foldl
          (fun t p => (t.slSend p 0 9 3 0 (t.joinBody f k l)).modStepPort p fun q =>
            { q with joinSent := true, since := t.clock.now }) s
      else s

/-- The bring-up of every port of the flock is complete (R100, R253). -/
def State.flockUp (s : State) (k : Flock) : Bool :=
  k.ports.all fun p => (s.stepPort p).state == .up && (s.stepPort p).joined

/-- JOIN is owed again to every port of a flock (R258). -/
def State.rejoin (s : State) (f : Nat) : State :=
  match assocGet f s.flocks with
  | none => s
  | some k => (k.ports.foldl (fun t p => t.modStepPort p fun q => { q with joined := false, joinSent := false }) s).tryJoin f

/-! ### Pre-emption (R117) -/

/-- A session suffers a pre-emption. -/
def State.preempt (s : State) (h : Handle) (c : PreCause) : State :=
  match s.sess? h with
  | none => s
  | some x =>
    (s.modSess h fun x => { x with preemptions := x.preemptions + 1, readyCycle := s.clock.now, runLength := 0 }).bumpShep
      (handlePen h) x.latencyCritical (.pre c) 1

/-- A session is bound to no flock. -/
def Session.unbind (x : Session) : Session := { x with flock := none }

/-- Every session bound to a flock becomes unbound (R104). -/
def State.unbindAll (s : State) (f : Nat) : State :=
  { s with sessions := s.sessions.map fun x => if x.2.flock = some f then (x.1, x.2.unbind) else x }

/-! ### Leases at a boundary -/

/-- Layers whose slots are apart: all, or PREFETCH_DEPTH + 1 in LAYER_ORDER (R130). -/
def Flock.wrap (k : Flock) (l : Layout) : Nat := if k.params.layerOrder then k.params.prefetchDepth + 1 else l.layers

/-- The ordinals that a live TAIL lease lacks in a layer: sheaves sealed or opened since, and the tail to come. -/
def Session.lacking (x : Session) (ls : Lease) (ly : Nat) : List Nat :=
  let own := x.map.filter fun g => g.layer == ly
  let first := ((ls.slots.filter fun t => t.1 == ly).map (·.2.1)).min?.getD 0
  let last := (own.map (·.ordinal)).foldl max 0
  let next := if own.isEmpty then [0] else if own.any (fun g => !g.isSealed) then [] else [last + 1]
  (((own.filter fun g => decide (first ≤ g.ordinal)).map (·.ordinal)) ++ next).filter fun o =>
    !ls.slots.any fun t => t.1 == ly && t.2.1 == o

/-- The references a lease takes on sheaves sealed under it (R54). -/
def State.leaseSealed (s : State) (f : Nat) (ls : Lease) (x : Session) : State :=
  let new := (x.map.filter fun g => g.isSealed && ls.covers g && !ls.refs.contains (g.owner, g.layer, g.ordinal)).map
    fun g => (g.owner, g.layer, g.ordinal)
  let count := ((List.range ls.layerCount).map fun ly =>
    (x.map.filter fun g => g.layer == ly && g.isSealed && ls.covers g).length).foldl max 0
  new.foldl (fun t r => t.addRef r.1 r.2.1 r.2.2)
    (s.modLease f ls.id fun q => { q with refs := q.refs ++ new, sheafCount := count })

/-- EXTEND of a NAMED lease where its coverage grew (R54, R261): slots per layer for what it lacks, or its end where no
slots are free. -/
def State.extendLease (s : State) (f : Nat) (k : Flock) (l : Layout) (ls : Lease) (x : Session) : State :=
  let per := ((List.range l.layers).map fun ly => (x.lacking ls ly).length).foldl max 0
  if per = 0 then s
  else
    let wrap := k.wrap l
    match s.slotRun k (wrap * per) with
    | none => s.cancelLease f ls.id
    | some base =>
      let new := (List.range l.layers).flatMap fun ly =>
        (x.lacking ls ly).zipIdx.map fun t => (ly, t.1, base + ly % wrap * per + t.2)
      let ports := maskPorts ls.accelMask
      let s1 := s.modLease f ls.id fun q =>
        { q with slots := q.slots ++ new, slotCount := q.slotCount + wrap * per, state := .extending, extending := ports }
      match s1.lease? f ls.id with
      | some q => s1.slSendAll ports 0 2 2 0 (q.bytes f base (wrap * per))
      | none => s1

/-- The positions a session gained go into the slots of its lease (R263); in LAYER_ORDER they go with the layers' streams of the
next step (R130). -/
def State.streamGained (s : State) (f : Nat) (k : Flock) (l : Layout) (ls : Lease) (x : Session) : State :=
  let s1 := (x.map.filter fun g => ls.covers g && !k.params.layerOrder
      && decide (ls.streamedTo < g.startPos + g.count)).foldl (fun t g =>
    match ls.slots.find? fun q => q.1 == g.layer && q.2.1 == g.ordinal, t.inT1 g with
    | some q, some c =>
      let first := ls.streamedTo - g.startPos
      t.stream f ls l c q.2.2 first (c.count - first)
    | _, _ => t) s
  s1.modLease f ls.id fun q => { q with streamedTo := x.kvPositions }

/-- A session's NAMED lease after the boundary at which it gained positions (R54, R261, R263). -/
def State.growLease (s : State) (f : Nat) (h : Handle) : State :=
  match assocGet f s.flocks, s.usableLease f h, s.sess? h with
  | some k, some ls, some x =>
    (match s.layout? x.layout with
    | none => s
    | some l =>
      if ls.state = .staged then s
      else
        let s1 := (s.leaseSealed f ls x).extendLease f k l ls x
        match s1.lease? f ls.id with
        | some q => if q.state = .cancelled then s1 else (s1.leaseSealed f q x).streamGained f k l q x
        | none => s1)
  | _, _, _ => s

/-- STAGE_CANCELLED for a lease cancelled unused (Table 5.8). -/
def State.cancelStaged (s : State) (f : Nat) (l : Lease) : State :=
  let s1 := s.cancelLease f l.id
  match s.sess? l.handle with
  | some x => s1.bumpShep (handlePen l.handle) x.latencyCritical .stageCancelled 1
  | none => s1

/-- STAGED leases that no plan named within 64 steps (R55). -/
def State.expireStaged (s : State) (f : Nat) : State :=
  match assocGet f s.flocks with
  | none => s
  | some k =>
    (k.leases.filter fun l => l.state == .staged && decide (l.issueStep / 8 + 64 ≤ k.stepCount)).foldl
      (fun t l => t.cancelStaged f l) s

/-- The oldest STAGED lease of a flock by ISSUE_STEP (R127). -/
def oldestStaged (ls : List Lease) : Option Lease :=
  (sortBy (fun a b : Lease => decide (a.issueStep ≤ b.issueStep)) (ls.filter fun l => l.state == .staged)).head?

/-- STAGED leases are cancelled, oldest first, until a run of `n` slots is free but for those being reclaimed (R127). -/
def State.makeRoom (s : State) (f n : Nat) : Nat → State
  | 0 => s
  | fuel + 1 =>
    match assocGet f s.flocks with
    | none => s
    | some k =>
      let live := k.leases.filter fun q => q.state != .cancelled
      if (s.slotRunPast k live n).isSome then s
      else match oldestStaged k.leases with
        | some q => (s.cancelStaged f q).makeRoom f n fuel
        | none => s

/-- A planned entry without a lease of its own: its hot-tail lease is granted for its next step (R126, R456), or where slots
alone are lacking and STAGED leases hold them, these are cancelled (R127). In LAYER_ORDER it is granted for this one (R130). -/
def State.grantPlanned (s : State) (f step : Nat) (h : Handle) : State :=
  match assocGet f s.flocks, s.sess? h, (s.sess? h).bind fun x => s.layout? x.layout with
  | some k, some x, some l =>
    if (s.tailLease h).isSome then s
    else
      let n := if k.params.layerOrder then 1048576 else k.params.hotSheaves
      match s.grantLease f h n (k.wrap l) false step with
      | some t => t
      | none =>
        let need := k.wrap l * x.coverageSlots l n
        let staying := k.leases.filter fun q => q.state != .cancelled && q.state != .staged
        if (s.slotRun k need).isNone && (s.slotRunPast k staying need).isSome then s.makeRoom f need k.leases.length else s
  | _, _, _ => s

/-- In LAYER_ORDER the streams of the first layers go out anew for each step: the layers after them took their slots (R130). -/
def State.restream (s : State) (f : Nat) (h : Handle) : State :=
  match assocGet f s.flocks, s.usableLease f h, s.sess? h, (s.sess? h).bind fun x => s.layout? x.layout with
  | some k, some ls, some x, some l =>
    (x.map.filter fun g => ls.covers g && decide (g.layer < k.wrap l)).foldl (fun t g =>
      match ls.slots.find? fun q => q.1 == g.layer && q.2.1 == g.ordinal, t.inT1 g with
      | some q, some c => t.stream f ls l c q.2.2 0 c.count
      | _, _ => t) (s.modLease f ls.id fun q => { q with streams := [] })
  | _, _, _, _ => s

/-! ### The final plan (R115, R116) -/

/-- A planned entry as its session stands at the boundary; none strikes it. -/
def State.freshEntry (s : State) (f : Nat) (k : Flock) (l : Layout) (e : PlanEntry) : Option PlanEntry :=
  match s.sess? e.handle with
  | none => none
  | some x =>
    -- a park that the home has applied strikes the entry as its commit would (R41); so does a record sent to a new home (R154)
    let leaves := x.applied.state == .parked || x.leaving
    if x.state != .running && candidate f k x && !s.claimedElsewhere f e.handle && s.placed k x && !leaves then
      let b := baseEntry e.handle f x e.draftMax none
      let b := { b with tokens := min b.tokens (if e.kind = .decode then 1 else e.tokens), tier := e.tier }
      if b.tokens = 0 then none else some { s.fillEntry f k.params.layerOrder l x b with price := e.price }
    else none

/-- The entries kept, the number struck and the price they freed. -/
def State.keepEntries (s : State) (f : Nat) (k : Flock) (l : Layout) : List PlanEntry → List PlanEntry × Nat × Nat
  | [] => ([], 0, 0)
  | e :: es =>
    let r := s.keepEntries f k l es
    match s.freshEntry f k l e with
    | some b => (b :: r.1, r.2)
    | none => (r.1, r.2.1 + 1, r.2.2 + e.price)

/-- Standby entries into the struck places (R116), within what is left of PREFILL_TOKENS (R113). -/
def State.fillStandby (s : State) (f : Nat) (k : Flock) (l : Layout) : Nat → Nat → Nat → List PlanEntry → List PlanEntry
  | _, _, _, [] => []
  | places, freed, n, e :: es =>
    let w := if e.kind = .decode then e else { e with tokens := min n e.tokens }
    match (if 0 < places && decide (0 < w.tokens) && decide (e.price ≤ freed) then s.freshEntry f k l w else none) with
    | some b => b :: s.fillStandby f k l (places - 1) (freed - e.price) (if b.kind = .decode then n else n - b.tokens) es
    | none => s.fillStandby f k l places freed n es

/-- The price of the final plan (Table 5.3): each entry as it now stands, never above the grant. -/
def State.finalPrice (s : State) (f : Nat) (p : Plan) (es : List PlanEntry) : Nat :=
  let fixed := p.price - (p.entries.map (·.price)).sum
  min p.grant (fixed + (es.map fun e => s.entryPrice f e).sum)

/-- The final plan: the pool sources of its entries are fixed with it (07 R161). -/
def State.finalPlan (s : State) (f : Nat) (k : Flock) (l : Layout) (p : Plan) : Plan :=
  let r := s.keepEntries f k l p.entries
  let used := ((r.1.filter fun e => e.kind != .decode).map (·.tokens)).sum
  let add := s.fillStandby f k l r.2.1 r.2.2 (k.params.prefillTokens - used) p.standby
  let es := r.1 ++ add
  { p with entries := if p.layerOrder then es else es.map (s.fixPools f l), standby := [], price := s.finalPrice f p es }

/-- Why a session of the last step is not in the final plan (R117). -/
def State.whyOut (s : State) (k : Flock) (reconfigured : Bool) (p : Option Plan) (h : Handle) : PreCause :=
  if reconfigured then .flock
  else match p with
    | none => .flock
    | some p =>
      match s.sess? h with
      | some x => if !s.placed k x then .tier
          else ((p.left.find? fun t => t.1 == h).map (·.2)).getD .capacity
      | none => .capacity

/-- Pre-emptions of the sessions of the last step that returned to RUNNABLE and are not in the final plan (R117). -/
def State.recordPreemptions (s : State) (k : Flock) (reconfigured : Bool) (p : Option Plan) (kept : List Handle)
    (ran : List Handle) : State :=
  (ran.filter fun h => !kept.contains h && ((s.sess? h).map fun x => x.state == .runnable).getD false).foldl
    (fun t h => t.preempt h (t.whyOut k reconfigured p h)) s

/-- A session enters the plan that is delivered (R105, Table 2.5); one that regrows stays FAULTED. -/
def Session.enter (x : Session) (f : Nat) : Session :=
  if x.state = .faulted then { x with flock := some f } else { x with state := .running, flock := some f }

/-- PLAN DELIVER and PLAN INPUT of the next plan (R258): its entries leave for good, its leases are named or granted, its
sessions run. -/
def State.deliverPlan (s : State) (f : Nat) : State :=
  match assocGet f s.flocks with
  | none => s
  | some k =>
    match k.next, s.layout? k.params.layout with
    | some p0, some l =>
      if k.run.isSome || k.delivered.isSome || !s.flockUp k then s
      else
        let p1 := s.finalPlan f k l p0
        -- one TAIL lease a session: a STAGED one of another flock ends (R127)
        let s1 := p1.entries.foldl (fun t e => match t.tailLease e.handle with
          | some (g, q) => if g != f && q.state == .staged then t.cancelStaged g q else t
          | none => t) s
        let named := p1.entries.foldl (fun t e => match e.leaseId with
          | some i => t.modLease f i fun q => if q.state = .staged then { q with state := .named } else q
          | none => t) s1
        let again := if p1.layerOrder then p1.entries.foldl (fun t e => if e.leaseId.isSome then t.restream f e.handle else t) named
          else named
        let s3 := p1.entries.foldl (fun t e => t.grantPlanned f p1.step e.handle) again
        -- LAYER_ORDER runs only on leases: an entry whose slots do not fit is out (R130)
        let leased (e : PlanEntry) : Bool := !p1.layerOrder || (s3.usableLease f e.handle).isSome
        let es := (p1.entries.filter leased).map fun e =>
          if p1.layerOrder then { e with leaseId := (s3.usableLease f e.handle).map (·.id) } else e
        let p := { p1 with entries := es, left := p1.left ++ (p1.entries.filter fun e => !leased e).map fun e => (e.handle, .capacity) }
        if es.isEmpty then (s3.modFlock f fun k => { k with next := none }).dropGrant f
        else
          let s4 := es.foldl (fun t e =>
            (t.modSess e.handle fun x => { x.enter f with lastStep := p.step }).bumpShep (handlePen e.handle) e.latencyCritical .entries 1) s3
          let s5 := s4.modFlock f fun k =>
            { k with next := some p, stepCount := p.step / 8, delivered := some (s.clock.now, k.ports) }
          let s6 := s5.slSendAll k.ports 0 1 1 p.step (p.bytes f)
          s6.slSendAll k.ports 0 1 2 p.step (es.flatMap s6.inputIds)
    | _, _ => s

end Sys2Proof.Machine
end

