-- ==== Sys2Proof/Machine/Boundary.lean ====
section
/-!
DEFINITION. The end of a step (05_shepherd_planning R115, R121, R124, R125; 02 R40 to R45; 06 R154; 09 R236; 12 R309,
R318): appends land, tokens commit, sessions change state, deferred commands apply.
-/
namespace Sys2Proof.Machine

/-! ### Appends land (R42, R45, 10 R265) -/

/-- The record received for a layer and position. -/
def PlanEntry.recordAt (e : PlanEntry) (ly q : Nat) : Option (List Byte) :=
  (e.appends.find? fun a => a.1 == ly && a.2.1 == q).map (·.2.2)

/-- Positions whose KV an entry keeps: POSITION to POSITION + accepted drafts, or all TOKENS (10 R265). -/
def PlanEntry.keeps (e : PlanEntry) : Nat :=
  if e.kind = .decode then (match e.verdict with | some v => v.2.1 + 1 | none => 1) else e.tokens

/-- Every layer holds the positions kept. -/
def PlanEntry.appendsComplete (e : PlanEntry) (l : Layout) : Bool :=
  (List.range l.layers).all fun ly => (List.range e.keeps).all fun i => (e.recordAt ly (e.position + i)).isSome

/-- One record appended to a layer: into the open tail, or a new one (R45, R148). -/
def Session.appendRecord (x : Session) (h : Handle) (l : Layout) (node : BitVec 13) (ly : Nat) (rec_ : List Byte) :
    Session :=
  let here (f : Sheaf) : Bool := f.layer == ly && !f.isSealed && !f.shared && f.owner == h
  let grow (f : Sheaf) : Sheaf :=
    let g := { f with count := f.count + 1, payload := f.payload ++ transcodeRecord l l.nativeFormat f.format rec_ }
    if g.count = 128 then g.sealSketched l else g
  if x.map.any here then { x with map := x.map.map fun f => if here f then grow f else f }
  else
    let own := x.map.filter fun f => f.layer == ly
    let f : Sheaf := { owner := h, ordinal := own.length, layer := ly,
                       startPos := (own.map fun f => f.startPos + f.count).foldl max 0, format := l.nativeFormat,
                       count := 0, node := node, location := t1Location h own.length ly }
    { x with map := x.map ++ [grow f] }

/-- VERSION of the open tails that a step's appends reach rises (Table 2.6); those up to position `p`. -/
def Session.touchTails (x : Session) (h : Handle) (p : Nat) : Session :=
  { x with map := x.map.map fun f => if !f.isSealed && !f.shared && f.owner == h && decide (f.startPos + f.count < p) then
      { f with version := f.version + 1 } else f }

/-- TAIL_FILL as the map has it. -/
def Session.refill (x : Session) : Session :=
  { x with tailFill := ((x.map.find? fun f => f.layer == 0 && !f.isSealed).map (·.count)).getD 0 }

/-- The appends of an entry become part of the session (R42): KV_POSITIONS, TAIL_FILL and seals together. -/
def Session.land (x : Session) (h : Handle) (l : Layout) (node : BitVec 13) (e : PlanEntry) : Session :=
  let y := (List.range l.layers).foldl (fun x ly => (List.range e.keeps).foldl (fun x i =>
    match e.recordAt ly (e.position + i) with | some r => x.appendRecord h l node ly r | none => x) x)
      (x.touchTails h (e.position + e.keeps))
  { y.refill with kvPositions := e.position + e.keeps }

/-- The session with an entry's appends, where they came whole and are its own (R42, R455). -/
def PlanEntry.landed (e : PlanEntry) (l : Layout) (h : Handle) (node : BitVec 13) (x : Session) : Session :=
  if e.oneToken || !e.appendsComplete l then x else x.land h l node e

/-- One position of a missing sheaf regrown (12 R318): the sheaf is whole again, under a new VERSION, once it holds its
positions. -/
def Sheaf.regrow (f : Sheaf) (l : Layout) (rec_ : List Byte) : Sheaf :=
  let g := { f with payload := f.payload ++ transcodeRecord l l.nativeFormat f.format rec_ }
  if f.count * l.recordBytes f.format ≤ g.payload.length then
    let w := { g with missing := false, version := f.version + 1 }
    if w.isSealed then { w with sketch := sheafSketch l (w.positions l), sketchValid := true } else w
  else g

/-- The position that a missing sheaf takes next. -/
def Sheaf.nextMissing (f : Sheaf) (l : Layout) : Nat := f.startPos + f.payload.length / max 1 (l.recordBytes f.format)

/-- Where a regrown record of a layer goes: the missing sheaf of the map that holds its position, at its owner, or a new
sheaf beyond the map. A sheaf that is present keeps what it has. -/
def State.regrowRecord (s : State) (h : Handle) (l : Layout) (ly q : Nat) (rec_ : List Byte) : State :=
  match s.sess? h with
  | none => s
  | some x =>
    match x.map.find? fun f => f.layer == ly && decide (f.startPos ≤ q) && decide (q < f.startPos + f.count) with
    | some f =>
      if s.isMissing f then
        s.modSess f.owner fun o => o.modSheaf f.owner f.layer f.ordinal fun g =>
          if g.startPos + (q - f.startPos) = g.nextMissing l then g.regrow l rec_ else g
      else s
    | none => s.modSess h fun x => x.appendRecord h l s.ident.nodeNumber ly rec_

/-- The appends of a REGROW entry land (12 R318), and regrowth goes on or ends. -/
def State.landRegrow (s : State) (h : Handle) (l : Layout) (e : PlanEntry) : State :=
  let s1 := (List.range l.layers).foldl (fun s ly => (List.range e.tokens).foldl (fun s i =>
    match e.recordAt ly (e.position + i) with | some r => s.regrowRecord h l ly (e.position + i) r | none => s) s)
      (s.modSess h fun x => x.touchTails h (e.position + e.tokens))
  let s2 := s1.modSess h fun x => { x.refill with kvPositions := e.position + e.tokens }
  (s2.bumpPen (handlePen h) .regrownPositions e.tokens).planRegrowth h

/-! ### Tokens (R236) -/

/-- The group of an entry's chosen tokens (R236, 12 R308): they are committed by the end of the boundary (12 R311). -/
def State.formTokens (s : State) (e : PlanEntry) : State :=
  match s.sess? e.handle, e.verdict with
  | some x, some v =>
    if x.state = .running && x.faultCause.isNone && e.sitOut.isNone && !v.1.isEmpty then
      s.formGroup e.handle (tokensGroup .model true v.1) .sampled else s
  | _, _ => s

/-- PLACE groups give each deferred group its positions, in LEDGER_STEP order (12 R309). -/
def State.placeDeferred (s : State) (h : Handle) : State :=
  match s.sess? h with
  | none => s
  | some x => x.region.unplaced.foldl (fun t n =>
      t.formGroup h [{ step := 0, kind := kPlace, body := natToBytes 8 n }] .none) s

/-! ### Transitions (Table 2.5, R27) -/

/-- The park that a step brings a session, if any: its verdict's, or LIMIT (R43), or PREFIX_DONE (R51). -/
def stepPark (x : Session) (v : Option (List Nat × Nat × Option Nat × Option ParkCause)) : Option ParkCause :=
  if 2 ^ 27 ≤ x.positions || x.map.any (fun f => decide (1048575 ≤ f.ordinal) && f.isSealed) then some .limit
  else match v with
    | some t => t.2.2.2
    | none => if x.isPrefix && decide (x.positions ≤ x.kvPositions) then some .prefixDone else none

/-- A session that would park takes its deferred input instead and stays RUNNABLE (R27), or parks. -/
def State.parkOrGoOn (s : State) (h : Handle) (c : ParkCause) : State :=
  match s.sess? h with
  | none => s
  | some x =>
    if !x.region.unplaced.isEmpty && c != .limit then
      (s.modSess h fun x => { x with state := .runnable }).placeDeferred h
    else
      (s.modSess h fun x => { x with state := .parked, parkCause := some c, parkedSince := s.clock.now, flock := none,
                                     runLength := 0 }).raiseParked h c

/-- INPUT_PENDING clears when KV has reached the last input token and none is deferred. -/
def Session.inputDone (x : Session) : Session :=
  if x.inputEnd ≤ x.kvPositions && x.region.unplaced.isEmpty then { x with inputPending := false } else x

/-! ### Deferred commands (R41, R453) -/

/-- The deferred commands of the sessions of a step take effect in the order of their arrival (R41, R115). -/
def State.applyDeferred (s : State) (hs : List Handle) : State :=
  let mine (h : Handle) : List RingCmd := match s.sess? h with | some x => x.deferred | none => []
  let cs := sortBy (fun (a b : RingCmd) => decide (a.arrival ≤ b.arrival)) (hs.flatMap mine)
  cs.foldl (fun t c => t.takeTurn c false) (hs.foldl (fun t h => t.modSess h fun x => { x with deferred := [] }) s)

/-- What a boundary does for a session once the deferred commands are applied: configurations, output, and the leases that
R20 ends. -/
def State.afterTransition (s : State) (h : Handle) : State :=
  let s1 := s.applyConfigs h
  let parked := match s1.sess? h with | some y => y.state == .parked | none => false
  let s2 := s1.settleOutput h true parked
  match s2.sess? h with
  | some y => if y.state = .runnable || y.state = .opened then s2 else s2.cancelSessionLeases h
  | none => s2.cancelSessionLeases h

/-! ### Tail handover (06 R154, 11 R291) -/

/-- The next part of a handoff goes to the destination, as device WRITEs that name its counter (11 R291). -/
def State.sendHandoff (s : State) (h : Handle) (data : List Byte) : State :=
  match (s.sess? h).bind (·.handover) with
  | none => s
  | some hd =>
    let s1 := (List.range (ceilDiv data.length 8388608)).foldl (fun t i =>
      t.request hd.dest.toNat 1 0
        (writeBody (hd.base + hd.sent + i * 8388608) hd.counter ((data.drop (i * 8388608)).take 8388608)) .other) s
    s1.modSess h fun x => { x with handover := x.handover.map fun hd =>
      { hd with sent := hd.sent + data.length, lastWrite := s.clock.now } }

/-- What is left of the bytes reserved does not hold the data: the commit cannot be made, and the handover falls back. -/
def State.sendOrFallBack (s : State) (h : Handle) (hd : Handover) (data : List Byte) : State :=
  if hd.sent + data.length ≤ hd.bytes then s.sendHandoff h data else s.withdrawOffer h

/-- The snapshot of a boundary k (Table 6.7): map and tails as of this boundary. -/
def State.sendSnapshot (s : State) (h : Handle) : State :=
  match s.sess? h with
  | none => s
  | some x =>
    match x.handover with
    | none => s
    | some hd =>
      if hd.snap || !hd.offered then s
      else (s.modSess h fun x => { x with moving := true, handover := some { hd with snap := true, count := x.map.length } }
        ).sendOrFallBack h hd (x.snapshotBytes hd.below)

/-- The appends held of step k + 1, as they go to the new home: first position and positions, then the records layer by
layer (R154). -/
def PlanEntry.heldBytes (e : PlanEntry) (l : Layout) : List Byte :=
  packBytes 16 [(64, e.position), (64, e.keeps)] ++ (List.range l.layers).flatMap fun ly =>
    (List.range e.keeps).flatMap fun i => (e.recordAt ly (e.position + i)).getD []

/-- The entry that held appends stand for. -/
def heldEntry (h : Handle) (l : Layout) (held : List Byte) : PlanEntry :=
  let pos := bytesAt held 0 8
  let n := bytesAt held 8 8
  let w := l.recordBytes l.nativeFormat
  { handle := h, kind := .prefill, latencyCritical := false, anchored := false, draftMax := 0, position := pos, tokens := n,
    price := 0, appends := (List.range l.layers).flatMap fun ly => (List.range n).map fun i =>
      (ly, pos + i, (held.drop (16 + (ly * n + i) * w)).take w) }

/-- The end of a handoff's data: the appends held, the Ledger and the record as the step leaves it, with the park it brings.
It goes once nothing of the session waits for its commit; the output cursor stands after what the posted buffers hold. -/
def State.sendFinal (s : State) (h : Handle) (held : List Byte) (park : Option ParkCause) : State :=
  match s.sess? h with
  | none => s
  | some x =>
    match x.handover with
    | none => s
    | some hd =>
      if hd.final || !hd.snap || !x.region.waiting.isEmpty then s
      else
        let y := { x with region := { x.region with outputPos := max x.region.outputPos (fillPos x x.buffers) } }
        let z := match park with
          | some c => { y with state := .parked, parkCause := some c }
          | none => y
        let data := z.finalBytes h hd.count hd.front hd.below held
        (s.modSess h fun x => { x with handover := some { hd with final := true } }).sendOrFallBack h hd
          (List.replicate (hd.bytes - hd.sent - data.length) 0 ++ data)

/-- A boundary, or a service step, for a session in handover (Table 6.7): the snapshot, and the end of the data of one that
runs in no step. -/
def State.handoverStep (s : State) (h : Handle) : State :=
  let s1 := s.sendSnapshot h
  match s1.sess? h with
  | none => s1
  | some x => if x.state = .running then s1 else s1.sendFinal h [] none

/-- The source's copy of a session whose registry entry names another home is freed (R152, 11 R291): what waits is answered
with REDIRECT, and posted buffers complete with MOVED (09 R238). The references on shared sheaves go with the map. -/
def State.freeHanded (s : State) (h : Handle) (dest version : Nat) : State :=
  match s.sess? h with
  | none => s
  | some x =>
    let r : Reply := { status := .redirect, result := version, detail := dest }
    let hw := match x.handover with | some hd => hd.waiting | none => []
    let s1 := (hw ++ x.deferred ++ x.configs).foldl (fun t c => t.complete c r) s
    let more := (nextOutput x.region.hist (fillPos x x.buffers)).isSome
    let s2 := x.buffers.foldl (fun t b => (t.bumpPen (handlePen h) .outputBytes b.filled).complete b.cmd
      { result := b.filled, detail := outputDetail more x false true }) s1
    let s3 := (s2.cancelSessionLeases h).bumpPen (handlePen h) .handovers 1
    let s5 := { s3 with sessions := assocDel h s3.sessions, flash := assocDel h s3.flash }.setMoving
    let owns := x.map.any fun f => f.owner == h && !f.shared
    let s6 := if owns then { s5 with commons := { s5.commons with homes := assocSet h (BitVec.ofNat 13 dest, version) s5.commons.homes } }
      else s5
    match s6.mirroredTo with
    | some d => s6.request d 0x30 0 (mirrorHeader 3 1 0 ++ natToBytes 8 h.toNat) .dropReq
    | none => s6

/-! ### One entry at its boundary (R115) -/

/-- A session that faulted in the step enters FAULTED at its boundary (Table 2.5). -/
def State.faultAtBoundary (s : State) (h : Handle) (c : FaultCause) : State :=
  let s1 := s.modSess h fun x => { x with state := .runnable, faultCause := none }
  s1.enterFaulted h c fun _ => false

/-- The park that the end of the step brings an entry's session, once its tokens are committed. -/
def PlanEntry.parkOf (e : PlanEntry) (l : Layout) (h : Handle) (node : BitVec 13) (x : Session) : Option ParkCause :=
  stepPark (e.landed l h node x) e.verdict

/-- An entry's share of the boundary once its tokens are committed (R115): its appends land, and the step's own transition. -/
def State.finishEntry (s : State) (l : Layout) (e : PlanEntry) : State :=
  let h := e.handle
  match s.sess? h with
  | none => s
  | some x =>
    if x.state = .faulted then
      if e.kind != .regrow then s
      else if e.sitOut.isSome then s.modSess h fun x => { x with sitOuts := x.sitOuts + 1 }
      else if e.appendsComplete l then s.landRegrow h l e else s
    else if x.state != .running then s
    else match x.faultCause with
      | some c => (s.faultAtBoundary h c).modSess h fun x => { x with sitOuts := x.sitOuts + 1 }
      | none =>
        if e.sitOut.isSome then s.modSess h fun x => { x with state := .runnable, sitOuts := x.sitOuts + 1 }
        else
          let s1 := s.modSess h fun x => { (e.landed l h s.ident.nodeNumber x).inputDone with state := .runnable }
          let s2 := match e.verdict with
            | some (_, _, some row, some c) => s1.raise (handlePen h) 0x0305 h.toNat (parkCode c + 2 ^ 32 * row)
            | _ => s1
          match e.parkOf l h s.ident.nodeNumber x with
          | some c => s2.parkOrGoOn h c
          | none => s2

/-- What an entry in handover does at boundary k + 1, once its tokens are committed (Table 6.7): the appends held and the
record go to the destination. A session whose deferred input keeps it RUNNABLE, or that has faulted, falls back. -/
def State.offerEntry (s : State) (l : Layout) (e : PlanEntry) : State :=
  let h := e.handle
  match s.sess? h with
  | none => s
  | some x =>
    match x.handover with
    | none => s
    | some hd =>
      if x.state != .running || !hd.snap || hd.final || hd.committed then s
      else
        let park := if e.sitOut.isSome then none else e.parkOf l h s.ident.nodeNumber x
        if x.faultCause.isSome || (park.isSome && !x.region.unplaced.isEmpty) then s.withdrawOffer h
        else s.sendFinal h (if e.sitOut.isNone && !e.oneToken && e.appendsComplete l then e.heldBytes l else []) park

/-- The handover of an entry's session is not yet decided. -/
def State.undecided (s : State) (e : PlanEntry) : Bool :=
  match s.sess? e.handle with
  | some x => x.state == .running && (match x.handover with | some hd => hd.snap && !hd.committed | none => false)
  | none => false

/-- A session whose new home the registry names leaves, with the park that the step brought it. -/
def State.leaveEntry (s : State) (l : Layout) (e : PlanEntry) : State :=
  let h := e.handle
  match s.sess? h with
  | none => s
  | some x =>
    match x.handover with
    | none => s
    | some hd =>
      if !hd.committed then s
      else
        let s1 := match (if e.sitOut.isSome then none else e.parkOf l h s.ident.nodeNumber x) with
          | some c => s.raiseParked h c
          | none => s
        s1.freeHanded h hd.dest.toNat (x.homeVersion + 1)

/-! ### The end of a flock (R101) -/

/-- Anchors to a flock are cleared. -/
def State.unanchorAll (s : State) (f : Nat) : State :=
  let free (x : Handle × Session) : Handle × Session :=
    if x.2.anchorFlock = some f then (x.1, { x.2 with anchored := false, anchorFlock := none }) else x
  { s with sessions := s.sessions.map free }

/-- A port whose flock goes: LINKED or UP, it goes OFF; in a RETRAIN, it will (10 Table 10.5). -/
def Port.release (q : Port) : Port :=
  { q with state := if q.state = .linked || q.state = .up then .off else q.state, joined := false, joinSent := false }

/-- FLOCK_DESTROY completes: what waited on the flock is refused, its leases, anchors and bindings end, its ports go OFF
(10 Table 10.5). -/
def State.finishDestroy (s : State) (f : Nat) (ran : List Handle) : State :=
  match assocGet f s.flocks with
  | none => s
  | some k =>
    match k.destroying with
    | none => s
    | some ref =>
      let s1 := k.pending.foldl (fun t p => t.mbFinish p.2 (rBad 16)) s
      let s2 := k.anchors.foldl (fun t a => t.mbFinish a.2.2 (rBad 17)) s1
      let s3 := (ran.filter fun h => ((s2.sess? h).map fun x => x.state == .runnable).getD false).foldl
        (fun t h => t.preempt h .flock) s2
      let s4 := (s3.cancelLeases f fun _ => true).clearLeases f
      let s5 := (s4.unbindAll f).unanchorAll f
      let s6 := k.ports.foldl (fun t p => t.modStepPort p Port.release) s5
      ({ s6 with flocks := assocDel f s6.flocks }.dropGrant f).mbFinish ref rOk

/-- Sheaves that a fork sealed outside T1 receive their sketch with the background work of the plan that carries the
session (06 R149). -/
def State.sketchForked (s : State) (h : Handle) : State :=
  match s.sess? h, (s.sess? h).bind fun x => s.layout? x.layout with
  | some x, some l =>
    let todo (f : Sheaf) : Bool := f.owner == h && !f.shared && f.isSealed && !f.sketchValid && !f.missing && f.tier != .t3
    if x.map.any todo then s.modSess h fun x => { x with map := x.map.map fun f => if todo f then f.sealSketched l else f } else s
  | _, _ => s

/-! ### Changes at once (R104, R123) -/

/-- The flock's model or mode changes. -/
def reconfigures (a b : PlanParams) : Bool := a.layout != b.layout || a.layerOrder != b.layerOrder

/-- The slots of a flock's leases no longer serve: PREFETCH_DEPTH changes in LAYER_ORDER. -/
def reslots (a b : PlanParams) : Bool := a.layerOrder && b.layerOrder && a.prefetchDepth != b.prefetchDepth

/-- New PLAN_PARAMS on a flock with no step in progress: at once (R104). -/
def State.applyParams (s : State) (f : Nat) (p : PlanParams) : State :=
  match assocGet f s.flocks with
  | none => s
  | some k =>
    let s1 := (s.modFlock f fun k => { k with params := p, next := none }).dropGrant f
    let s2 := if reconfigures k.params p then (s1.cancelLeases f fun _ => true).unbindAll f
      else if reslots k.params p then s1.cancelLeases f fun _ => true else s1
    if k.params.layout != p.layout then s2.rejoin f else s2.tryJoin f

/-- An anchor is set or cleared. -/
def State.anchor (s : State) (f : Nat) (h : Handle) (on : Bool) : State :=
  s.modSess h fun x => if on then { x with anchored := true, anchorFlock := some f }
    else { x with anchored := false, anchorFlock := none }

/-- A step of the flock is in progress, or its plan is out. -/
def Flock.stepping (k : Flock) : Bool := k.run.isSome || k.delivered.isSome

/-- A flock is left without a step in progress and without a plan: what was accepted for its next snapshot applies at once
(R104, R123). -/
def State.settleIdle (s : State) (f : Nat) : State :=
  match assocGet f s.flocks with
  | none => s
  | some k =>
    if k.stepping || k.next.isSome || k.destroying.isSome then s
    else
      let s0 := s.modFlock f fun k => { k with pending := [], anchors := [] }
      let s1 := k.pending.foldl (fun t p => (t.applyParams f p.1).mbFinish p.2 rOk) s0
      k.anchors.foldl (fun t a => (t.anchor f a.1 a.2.1).mbFinish a.2.2 rOk) s1

/-! ### Steps cut short (R124, R125, 10 R259) -/

/-- The attention requests of a step that has ended wait for nothing: what still comes is discarded (07 R189). -/
def State.dropAttends (s : State) (f : Nat) : State :=
  let mine (u : ReqUse) : Bool := match u with | .attend g _ _ _ => g == f | _ => false
  { s with commons := { s.commons with requests := s.commons.requests.filter fun r => !mine r.use } }

/-- The sampler block as bytes carry it (12 R307): the block, its layout, and which fields to take. -/
def samplerFrom (old : Sampler) (bs : List Byte) (sel : Nat → Bool) : Sampler :=
  let pick {α : Type} (b : Bool) (x y : α) : α := if b then x else y
  { seed := pick (sel 0) (BitVec.ofNat 64 (bytesAt bs 0 8)) old.seed,
    temperature := pick (sel 1) (BitVec.ofNat 32 (bytesAt bs 8 4)) old.temperature,
    topP := pick (sel 2) (BitVec.ofNat 16 (bytesAt bs 12 2)) old.topP,
    topK := pick (sel 3) (bytesAt bs 14 2) old.topK,
    constraintSet := pick (sel 4) (bytesAt bs 16 2) old.constraintSet,
    deadEndStop := pick (sel 5) (bytesAt bs 18 1 == 1) old.deadEndStop,
    utf8Replace := pick (sel 6) (bytesAt bs 19 1 == 1) old.utf8Replace,
    substituteId := pick (sel 7) (bytesAt bs 20 4) old.substituteId }

/-- The session's own OPEN record in a list of records. -/
def openRec (recs : List Rec) : Option Rec := (recs.filter fun r => r.kind == kOpen && !r.inherited).getLast?

/-- The sampler that a session's own OPEN record and its CONFIG records leave (12 R307). -/
def recordedSampler (recs : List Rec) (o : Rec) : Sampler :=
  (recs.filter fun c => c.kind == kConfig && !c.inherited).foldl (fun t c =>
    samplerFrom t c.body fun i => bitOf (bytesAt c.body 32 2) i) (samplerFrom {} o.body fun _ => true)

/-- A session at its last committed group (13 R345): a SESSION_CONFIG whose group waits has had no effect. -/
def State.committedSession (s : State) (h : Handle) (x : Session) : Session :=
  let y := { x with region := x.region.committed x.ledgerStep }
  if x.region.waiting.any fun g => g.recs.any fun r => r.kind == kConfig then
    (match openRec x.region.recs with
    | some o =>
      let smp := recordedSampler x.region.recs o
      let set := (s.pen? (handlePen h)).bind fun q => assocGet smp.constraintSet q.constraints
      { y with sampler := smp, automaton := if smp.constraintSet = x.sampler.constraintSet then x.automaton
                 else rebuildAutomaton set x.region.hist }
    | none => y)
  else y

/-- A session is captured for a checkpoint in progress, as of its last committed group (12 R320). -/
def State.captureSession (s : State) (h : Handle) : State :=
  match s.harvest.checkpoint, s.sess? h with
  | some c, some x =>
    if c.phase != 0 || x.captured || x.state = .faulted then s
    else
      let y := s.committedSession h x
      let s1 := s.modSess h fun x => { x with captured := true }
      ({ s1 with harvest := { s1.harvest with capturing := assocSet h y s1.harvest.capturing } }).bumpPen (handlePen h)
        .ckptSessions 1
  | _, _ => s

/-- The highest layer of which a partial was delivered, else 0x3FF (Table 10.9). -/
def StepRun.lastLayer (r : StepRun) : Nat :=
  match (r.plan.entries.flatMap fun e => e.delivered.map (·.1)) with
  | [] => 0x3FF
  | l => l.foldl max 0

/-- A stall of `len` cycles has ended: counted for the anchored session's pen, and suffered by every pen in the step. -/
def State.countStall (s : State) (f i len : Nat) : State :=
  match s.run? f, s.planEntry? f i with
  | some r, some e =>
    let s1 := s.modRun f fun r => { r with stalled := r.stalled + len, stall := none }
    let s2 := (s1.bumpShep (handlePen e.handle) e.latencyCritical .stalls 1).bumpShep (handlePen e.handle)
      e.latencyCritical .stallCycles len
    (((r.plan.entries.filter fun e => e.sitOut.isNone).map fun e => (handlePen e.handle, e.latencyCritical)).eraseDups).foldl
      (fun t q => t.bumpShep q.1 q.2 .stalledCycles len) s2
  | _, _ => s

/-- A stall still open when its step is cut short has lasted to now (R122). -/
def State.endStall (s : State) (f : Nat) : State :=
  match (s.run? f).bind (·.stall) with
  | some (_, i, _, t0) => s.countStall f i (s.clock.now - t0)
  | none => s

/-- A session leaves a step that was cut short: back to RUNNABLE with a pre-emption, or into FAULTED; its handover falls
back. An entry that had sat out counts its sit-out (R121). -/
def State.leaveCut (s : State) (e : PlanEntry) (c : PreCause) : State :=
  let h := e.handle
  match s.sess? h with
  | none => s
  | some x =>
    let sat := e.sitOut.isSome
    if x.state = .faulted then (if sat then s.modSess h fun x => { x with sitOuts := x.sitOuts + 1 } else s)
    else if x.state != .running then s
    else
      let s1 := if sat then s.modSess h fun x => { x with sitOuts := x.sitOuts + 1 } else s
      match x.faultCause with
      | some k => s1.faultAtBoundary h k
      | none =>
        let s2 := match x.handover with
          | some hd => if hd.committed then s1.freeHanded h hd.dest.toNat (x.homeVersion + 1)
              else if hd.snap then s1.withdrawOffer h else s1
          | none => s1
        match s2.sess? h with
        | none => s2
        | some _ => (s2.modSess h fun x => { x with state := .runnable }).preempt h c

/-- TRUNCATE of the step in progress of a flock, or of none (R124, R125): every entry's appends are discarded and no token
is sampled; the next plan goes with it. A step that has ended and whose boundary waits for commits (12 R311) is not cut. -/
def State.cutStep (s : State) (f : Nat) (thermal : Bool) : State :=
  match assocGet f s.flocks with
  | none => s
  | some k0 =>
    let ended : Bool := match k0.run with | some r => r.phase != .running | none => false
    let k := if ended then { k0 with run := none } else k0
    let c : PreCause := if thermal then .thermal else .flock
    let body (last : Nat) : List Byte := packBytes 16 [(10, last), (6, 0), (8, if thermal then 1 else 2), (104, 0)]
    let s0 := if ended then s else s.endStall f
    let s1 := match k.run, k.delivered, k.next with
      | some r, _, _ => s0.slSendAll k.ports 0 1 5 r.plan.step (body r.lastLayer)
      | none, some _, some p => s0.slSendAll k.ports 0 1 5 p.step (body 0x3FF)
      | _, _, _ => s0
    let ran := (match k.run with | some r => r.plan.entries | none => [])
      ++ (match k.delivered, k.next with | some _, some p => p.entries | _, _ => [])
    let hs := ran.map (·.handle)
    let s2 := s1.modFlock f fun k =>
      { k with run := if ended then k.run else none, next := none, delivered := none, lastRan := [],
               truncatedStep := ((if ended then none else k.run.map fun r => r.plan.step).or
                 (if k.delivered.isSome then k.next.map (·.step) else none)).or k.truncatedStep }
    let s3 := hs.foldl State.afterTransition ((ran.foldl (fun t e => t.leaveCut e c) s2).applyDeferred hs)
    let s4 := (s3.dropGrant f).dropAttends f
    let ctr : FlockCtr := if thermal then .truncated else .abandoned
    let s5 := if k.run.isSome || k.delivered.isSome then s4.modFlock f fun k => { k with ctrs := tallyAdd k.ctrs ctr 1 32 } else s4
    if ended then s5.retryCommits else (s5.retryCommits.finishDestroy f []).settleIdle f

/-- A flock's step is truncated (R124): THERMAL_TRUNCATE is set, and the admin pen learns of it. -/
def State.cutThermal (s : State) (f : Nat) : State :=
  let s1 := (s.cutStep f true).raise 0 0x0501 f 1
  { s1 with ident := { s1.ident with thermalTruncate := true } }

/-- The step in progress is abandoned and the flock stops (R125, R259): RESYNC to every UP port. -/
def State.abandonStep (s : State) (f : Nat) : State :=
  match assocGet f s.flocks with
  | none => s
  | some k =>
    let s1 := s.cutStep f false
    let up := k.ports.filter fun p => (s1.stepPort p).state == .up
    let s2 := s1.slSendAll up 0 9 5 0 []
    let s3 := s2.modFlock f fun k => { k with stopped := true, resync := up.map fun p => (p, s.clock.now) }
    if k.stopped then s3 else s3.raise 0 0x0501 f 2

end Sys2Proof.Machine
end

