-- ==== Sys2Proof/Machine/Shepherd.lean ====
section
/-!
DEFINITION. The Shepherd's commands and events (05_shepherd_planning R100 to R127, 10 R258, 06 R151): flocks and their
parameters, snapshot, GO, deadlines, stalls, abandonment, the boundary, staging.
-/
namespace Sys2Proof.Machine

/-! ### Flocks (R100, R101) -/

/-- The flock that later commands see: one under FLOCK_DESTROY does not exist (R101). -/
def State.flock? (s : State) (f : Nat) : Option Flock :=
  (assocGet f s.flocks).bind fun k => if k.destroying.isSome then none else some k

/-- A port that FLOCK_CREATE names starts at Wake when it is OFF (10 R253). -/
def State.startPort (s : State) (p : Nat) : State :=
  if (s.stepPort p).state = .off then
    (s.askWake 3 (77 + p)).modStepPort p fun q => { q with state := .training, since := s.clock.now, attempts := 0 }
  else s

/-- FLOCK_CREATE (R100). -/
def execFlockCreate (mb : Mb) (s : State) : Out :=
  mbRun s mb 0x0030 fun s c =>
    let f := operand c.desc 0 1
    let mask := operand c.desc 1 1
    let ports := (List.range 8).filter fun p => bitOf mask p
    unlessBad s [(16, decide (7 < f) || assocHas f s.flocks),
        (17, mask == 0 || ports.any fun p => (s.flockOf p).isSome)] <|
      if ports.any fun p => !(s.stepPort p).census then .now s (rStatus .failedCensus)
      else .now (ports.foldl State.startPort { s with flocks := assocSet f { ports := ports } s.flocks }) rOk

/-- FLOCK_DESTROY (R101): at the flock's next boundary, or at once. -/
def execFlockDestroy (mb : Mb) (s : State) : Out :=
  mbRun s mb 0x0031 fun s c =>
    let f := operand c.desc 0 1
    match s.flock? f with
    | none => .now s (rBad 16)
    | some k =>
      let s1 := s.modFlock f fun k => { k with destroying := some ⟨mb, c⟩ }
      if k.stepping then .later s1
      else .later ((s1.modFlock f fun k => { k with next := none }).finishDestroy f [])

/-! ### PLAN_PARAMS (R103, R104) -/

/-- FLOCK_PLAN_CONFIG (R102 to R104). -/
def execFlockPlanConfig (mb : Mb) (s : State) : Out :=
  mbRun s mb 0x0032 fun s c =>
    let f := operand c.desc 0 1
    let v := operand c.desc 8 32
    let p := planParamsOf v
    unlessBad s ((16, (s.flock? f).isNone) :: planParamsChecks v (s.layout? p.layout).isSome) <|
      match s.flock? f with
      | none => .now s (rBad 16)
      | some k =>
        if k.stepping then .later (s.modFlock f fun k => { k with pending := k.pending ++ [(p, ⟨mb, c⟩)] })
        else .now (s.applyParams f p) rOk

/-! ### Anchors (R123) -/

/-- Anchors of a flock in force and waiting, other than `h`. -/
def State.anchors (s : State) (f : Nat) (h : Handle) : Nat :=
  (((s.sessions.filter fun x => x.2.anchorFlock == some f).map (·.1)
    ++ (match assocGet f s.flocks with | some k => (k.anchors.filter (·.2.1)).map (·.1) | none => [])).eraseDups.filter
      (· != h)).length

/-- ANCHOR_SET (R123). -/
def execAnchorSet (mb : Mb) (s : State) : Out :=
  mbRun s mb 0x0033 fun s c =>
    let h := descHandle c.desc
    let a := operand c.desc 0 1
    let f := operand c.desc 1 1
    match s.sess? h with
    | none => .now s (rStatus .badHandle)
    | some x =>
      unlessBad s [(16, decide (1 < a)),
          (17, match s.flock? f with | none => true | some k => k.params.layout != x.layout)] <|
        let on := a == 1
        if on && decide (64 ≤ s.anchors f h) then .now s (rStatus .quota)
        else match (if on then some f else x.anchorFlock) with
          | none => .now s rOk
          | some g =>
            match assocGet g s.flocks with
            | some k =>
              if k.stepping then
                .later (s.modFlock g fun k => { k with anchors := k.anchors ++ [(h, on, ⟨mb, c⟩)] })
              else .now (s.anchor g h on) rOk
            | none => .now (s.anchor g h on) rOk

/-! ### Staging (R126, R127) -/

/-- Everything that a hot-tail lease over the latest `n` sealed sheaves would cover is in T1, with the record (R126). -/
def State.coverHome (s : State) (x : Session) (n : Nat) : Bool :=
  x.tailsHome && (x.hotSheaves n).all fun g => (s.inT1 g).isSome

/-- Stage a SPECULATIVE hot-tail lease in a flock, or queue it; what it covers is promoted first where it is not in T1
(06 R158). -/
def State.stageIn (s : State) (f : Nat) (h : Handle) : State :=
  match assocGet f s.flocks, s.sess? h with
  | some k, some x =>
    if (s.tailLease h).isSome then s
    else
      let queue (t : State) : State := t.modFlock f fun k =>
        { k with staging := if k.staging.contains h then k.staging else k.staging ++ [h] }
      if !s.coverHome x k.params.hotSheaves then queue (s.promoteHot h k.params.hotSheaves)
      else match s.layout? x.layout with
        | none => s
        | some l =>
          match s.grantLease f h k.params.hotSheaves (k.wrap l) true (8 * k.stepCount + f) with
          | some t => t
          | none => queue s
  | _, _ => s

/-- The queue for free slots is tried again. -/
def State.restage (s : State) (f : Nat) : State :=
  match assocGet f s.flocks with
  | none => s
  | some k => k.staging.foldl (fun t h => match t.sess? h with
      | some x => if x.state = .runnable || x.state = .parked then t.stageIn f h else t
      | none => t) (s.modFlock f fun k => { k with staging := [] })

/-- The flock in which STAGE_AHEAD stages a session: its own, or the lowest that would plan it (R126). -/
def State.stagingFlock (s : State) (x : Session) : Option Nat :=
  let serves (f : Nat × Flock) : Bool :=
    f.2.params.enable && f.2.params.stageAhead && f.2.params.layout == x.layout && f.2.destroying.isNone
  match x.anchorFlock.or x.flock with
  | some f => ((s.flocks.filter serves).find? fun g => g.1 == f).map (·.1)
  | none => ((s.flocks.filter serves).map (·.1)).min?

/-- A session has become RUNNABLE: its data is promoted (06 R158) and its hot tail staged (R126). -/
def State.runnableSteps (s : State) (h : Handle) : State :=
  match s.sess? h with
  | none => s
  | some x =>
    if x.state != .runnable then s
    else
      let s1 := s.promoteSession h
      match s1.stagingFlock x with
      | some f => s1.stageIn f h
      | none => s1

/-- LEASE_STAGE names no flock that could plan the session (R127). -/
def State.noFlockFor (s : State) (x : Session) (f : Nat) : Bool :=
  match s.flock? f with | none => true | some k => k.params.layout != x.layout

/-- LEASE_STAGE (R127). -/
def execLeaseStage (pen ring : Nat) (s : State) : Out :=
  ringRun s pen ring 0x0107 fun s c =>
    let h := descHandle c.desc
    let f := operand c.desc 0 1
    match s.sess? h with
    | none => .now s (rStatus .badHandle)
    | some x =>
      if s.noFlockFor x f then .now s (rBad 16)
      else if x.state = .opened || x.state = .running || x.state = .faulted then .now s rOk
      else .now (s.stageIn f h) rOk

/-! ### Snapshot (R107) -/

/-- The changes that wait for the snapshot take effect (R104, R123). -/
def State.applyPending (s : State) (f : Nat) : State :=
  match assocGet f s.flocks with
  | none => s
  | some k =>
    let s1 := k.pending.foldl (fun t p => (t.modFlock f fun k => { k with params := p.1 }).mbFinish p.2 rOk) s
    let s2 := k.anchors.foldl (fun t a => (t.anchor f a.1 a.2.1).mbFinish a.2.2 rOk) s1
    let rejoin := match k.pending.getLast? with | some p => p.1.layout != k.params.layout | none => false
    s2.modFlock f fun k => { k with pending := [], anchors := [], rejoin := k.rejoin || rejoin }

/-- Sessions that wait on tiers are promoted, and demotions make room for those the quota turned away (R109, R142). -/
def State.waitOnTiers (s : State) (k : Flock) (l : Layout) (p : Plan) : State :=
  (p.left.filter fun t => t.2 == .tier).foldl (fun t w => match t.sess? w.1 with
    | none => t
    | some x =>
      if t.placed k x then
        t.demoteFor (handlePen w.1) (entryReservation l (x.tailFormat l) x.tailFill
          (baseEntry w.1 0 x (t.flockDraftMax k) none))
      else if k.params.layerOrder then t.promoteHot w.1 1048576
      else t.promoteSession w.1) s

/-- A planned session as the snapshot assumes it at its step (R107, 07 R168). -/
def State.assumedAt (s : State) (l : Layout) (e : PlanEntry) : Option Session :=
  (s.sess? e.handle).map fun x => x.assumed e.handle l ((s.entryOf e.handle).bind fun t => s.planEntry? t.1 t.2)

/-- The snapshot of a flock at the present cycle; none where the layer table is not one that the Shepherd may choose (R456). -/
def State.takeSnapshot (s : State) (f : Nat) (table : List LayerTiming) : Option State :=
  let s1 := s.applyPending f
  match assocGet f s1.flocks with
  | none => none
  | some k =>
    let built (t : State) : State := t.modRun f fun r => { r with built := true }
    if !k.params.enable then some (built s1)
    else match s1.layout? k.params.layout with
      | none => none
      | some l =>
        if !tableOk k.params l table then none
        else
          let b := s1.buildPlan f (8 * (k.planCount + 1) + f) k l table
          let s2 := (built b.2).waitOnTiers k l b.1
          if !b.1.entries.isEmpty && !b.2.timingOk f l (b.2.assumedAt l) b.1 then none
          else if b.1.entries.isEmpty && k.run.isNone then some (s2.dropGrant f)
          else
            let s3 := s2.modFlock f fun k =>
              { k with next := some b.1, planCount := k.planCount + (if b.1.entries.isEmpty then 0 else 1) }
            some ((b.1.promotions.foldl (fun t q => t.askPromotion q.1 q.2.1 q.2.2 (some f)) s3).askWakes 1 planDomains)

/-- SNAPSHOT (R106, R107): during a step at its offset, or of a flock with no step once a session is eligible. -/
def execSnapshot (f : Nat) (table : List LayerTiming) (s : State) : Out :=
  if 8 ≤ f then .fault .noSuchUnit
  else match assocGet f s.flocks with
    | none => stutter s
    | some k =>
      if k.stopped || k.destroying.isSome || k.next.isSome || k.delivered.isSome then stutter s
      else match k.run with
        | some r =>
          if r.built || r.truncating then stutter s
          else match (s.at_ (r.go + r.plan.period - 1024 * k.params.planLead)).takeSnapshot f table with
            | some t => .next t
            | none => stutter s
        | none =>
          if k.params.enable && s.flockUp k && s.sessions.any fun x => candidate f k x.2 && !s.claimedElsewhere f x.1 then
            match (s.at_ (nextMultiple 1024 s.clock.now)).takeSnapshot f table with
            | some t => .next ((t.modFlock f fun k => { k with goAt := 0 }).deliverPlan f)
            | none => stutter s
          else stutter s

/-! ### GO (R106, R117) -/

/-- An entry's session as its step begins: its run, and its queue wait. -/
def State.beginEntry (s : State) (ran : List Handle) (e : PlanEntry) : State :=
  match s.sess? e.handle with
  | none => s
  | some x =>
    let p := handlePen e.handle
    let wait := if ran.contains e.handle then 0 else s.clock.now - x.readyCycle
    let s1 := s.modSess e.handle fun x => { x with runLength := x.runLength + 1 }
    if wait = 0 then s1
    else ((s1.bumpShep p e.latencyCritical .waitSum wait).maxPen p (.shep e.latencyCritical .waitMax) wait).bumpShep p
      e.latencyCritical .waited 1

/-- GO (R106): every port has acknowledged the plan and its time has come. -/
def execGo (f : Nat) (s : State) : Out :=
  if 8 ≤ f then .fault .noSuchUnit
  else match assocGet f s.flocks with
    | none => stutter s
    | some k =>
      match k.next, k.delivered with
      | some p, some (_, []) =>
        let s1 := s.at_ k.goAt
        -- the device sources stand as they are from GO on (08 R195); in LAYER_ORDER there are none (R130)
        let es := match s1.layout? p.layout with
          | some l => if p.layerOrder then p.entries else p.entries.map (s1.fixDevice f l)
          | none => p.entries
        let s2 := s1.modFlock f fun k =>
          { k with run := some { plan := { p with entries := es }, go := s1.clock.now }, next := none, delivered := none,
                   goAt := s1.clock.now + p.period, lastRan := p.entries.map (·.handle) }
        let s3 := p.entries.foldl (fun t e => t.beginEntry k.lastRan e) s2
        .next (s3.slSendAll k.ports 0 1 4 p.step [])
      | _, _ => stutter s

/-! ### Deadlines (R118 to R120, R130) -/

/-- The due offset of a datum for a layer, as slip and stalls have moved it. -/
def dueOffset (r : StepRun) (ly : Nat) (d : Datum) : Nat :=
  let depth := r.plan.depth
  let t (i : Nat) : LayerTiming := (r.plan.layers[i]?).getD ⟨0, 0, 0, 0, 0⟩
  let base := match d with
    | .stream => if r.plan.layerOrder then (if ly < depth then 0 else (t (ly - depth)).streamDue) else (t ly).streamDue
    | .promotion => (t ly).promoteDue
    | .pool | .rerun => (t ly).partialDue
  base + r.slip + r.stalled

/-- The lease's streams for a layer have gone out and landed. -/
def State.layerStreamed (s : State) (ls : Lease) (x : Session) (ly : Nat) : Bool :=
  s.streamArrived ls ly && (ls.streams.any (fun t => t.1 == ly) || !x.map.any fun g => g.layer == ly && ls.covers g)

/-- The sheaves that the oxen will attend in a layer, as far as they are known. -/
def State.wanted (s : State) (e : PlanEntry) (x : Session) (l : Layout) (ly : Nat) : List Sheaf :=
  if !e.selects x ly then e.deviceSource x ly
  else if e.sourceKnown x ly then s.finalSource e x l ly
  else if e.allRows l ly then s.scoringSource e x l ly
  else []

/-- Whether a datum of a layer has arrived for an entry. -/
def State.arrived (s : State) (f : Nat) (e : PlanEntry) (x : Session) (l : Layout) (ly : Nat) (d : Datum) : Bool :=
  match d with
  | .stream => (match s.entryLease f e with | some ls => s.layerStreamed ls x ly | none => true)
  | .promotion => (s.wanted e x l ly).all fun g => (s.inT1 g).isSome
  | .pool => e.poolsAnswered x ly
  | .rerun => e.reruns.all fun q => q.1 != ly

/-- The lease's partials for rows of a layer whose device partials have gone (R120). -/
def State.sendLeaseRows (s : State) (f i ly : Nat) : State :=
  match s.run? f, s.planEntry? f i with
  | some r, some e =>
    (match s.sess? e.handle, s.layout? r.plan.layout, s.entryLease f e with
    | some x, some l, some ls =>
      let rows := sortBy (fun (a b : Nat × Nat × List Byte) => decide (a.1 ≤ b.1))
        ((e.rowsOf ly).filter fun q => e.delivered.contains (ly, q.1))
      (runsOf rows).foldl (fun t g =>
        t.sendPartials r.plan.step i ly 1 (g.map fun q => s.leasePartial ls e x l ly q.1 q.2.2) g) s
    | _, _, _ => s)
  | _, _ => s

/-- The sit-out cause of a datum (R120). -/
def datumCause : Datum → SitCause
  | .stream => .streamLate | .promotion => .promoteLate | .pool => .t3Late | .rerun => .fallbackFull

/-- on_due of R120 for a datum that has not arrived. -/
def State.onDue (s : State) (f i ly : Nat) (l : Layout) (r : StepRun) (e : PlanEntry) (x : Session) (d : Datum)
    (fits : Bool) : State :=
  if e.anchored && decide (0 < r.plan.stallMax) && decide (r.stalled < r.plan.stallMax) then
    s.modRun f fun r => { r with stall := some (ly, i, d, s.clock.now) }
  else
    let home := match s.entryLease f e with
      | some ls => x.map.all fun g => g.layer != ly || !ls.covers g || (s.inT1 g).isSome
      | none => false
    if d = .stream && home then
      let need := l.passCycles (e.rowCount l) (s.leaseTiles f e x ly)
      if fits && decide (r.claimedOf ly + need ≤ s.reserveOf l r.plan ly) then
        (((s.claim f ly need).modPlanEntry f i fun e => { e with fallback := e.fallback ++ [ly] }).bumpShep (handlePen e.handle)
          e.latencyCritical .fallbacks 1).sendLeaseRows f i ly
      else s.sitOut f i ly .fallbackFull
    else s.sitOut f i ly (datumCause d)

/-- An earlier entry of the plan has a stream of the layer late and not yet judged: it claims the reserve first (R120). -/
def State.earlierLate (s : State) (f i ly : Nat) (l : Layout) (r : StepRun) : Bool :=
  (r.plan.entries.take i).any fun e => e.sitOut.isNone && !e.fallback.contains ly
    && match s.sess? e.handle with
      | some x => !s.arrived f e x l ly .stream
      | none => false

/-- DUE_CHECK (R120): no deadline of the step comes while it is stalled (R122). PARTIAL_DUE of a layer is the layer boundary
at which a truncated step ends (R124). -/
def execDueCheck (f i ly : Nat) (d : Datum) (fits : Bool) (s : State) : Out :=
  if 8 ≤ f then .fault .noSuchUnit
  else match s.run? f, s.planEntry? f i with
    | some r, some e =>
      match s.sess? e.handle, s.layout? r.plan.layout with
      | some x, some l =>
        let due := r.go + dueOffset r ly d
        if r.stall.isSome || decide (l.layers ≤ ly) then stutter s
        else if r.truncating && d == .pool && decide (s.clock.now ≤ due) then .next ((s.at_ due).cutThermal f)
        else if e.sitOut.isSome || (d == .stream && (e.fallback.contains ly || s.earlierLate f i ly l r)) then stutter s
        else
          let s1 := s.at_ due
          if s1.arrived f e x l ly d then .next s1 else .next (s1.onDue f i ly l r e x d fits)
      | _, _ => stutter s
    | _, _ => stutter s

/-! ### Anchored stalls (R122) -/

/-- The datum of a stall has arrived and the oxen have processed it (R122). -/
def State.stallOver (s : State) (f : Nat) (r : StepRun) (ly i : Nat) (d : Datum) : Bool :=
  match s.planEntry? f i with
  | none => true
  | some e =>
    match s.sess? e.handle, s.layout? r.plan.layout with
    | some x, some l =>
      s.arrived f e x l ly d && (d != .promotion || (e.allRows l ly && e.sourceKnown x ly
        && (List.range (e.rowCount l)).all fun row => e.passesDone (s.attendTiles e x l ly) ly row))
    | _, _ => true

/-- A stall that is over ends at the present cycle, and its layer is delivered. -/
def State.tryEndStall (s : State) (f : Nat) : State :=
  match s.run? f with
  | none => s
  | some r =>
    match r.stall with
    | none => s
    | some (ly, i, d, t0) =>
      if s.stallOver f r ly i d then (s.countStall f i (s.clock.now - t0)).deliverLayer f ly else s

/-- Stalls of every flock. -/
def State.tryEndStalls (s : State) : State := s.flocks.foldl (fun t k => t.tryEndStall k.1) s

/-- ANCHOR_TIMEOUT (R122): the step's stalls have reached ANCHOR_STALL_MAX. -/
def execAnchorTimeout (f : Nat) (s : State) : Out :=
  if 8 ≤ f then .fault .noSuchUnit
  else match s.run? f with
    | some r =>
      match r.stall with
      | none => stutter s
      | some (ly, i, _, t0) =>
        let left := r.plan.stallMax - r.stalled
        let s1 := s.at_ (t0 + left)
        .next (((s1.countStall f i left).sitOut f i ly .anchorTimeout).deliverLayer f ly)
    | none => stutter s

/-! ### Steps that do not end (R125, 10 R258) -/

/-- Messages of a class received from a port: APPEND, LOGITS. -/
def StepRun.received (r : StepRun) (p : Nat) : Nat × Nat :=
  match r.counts.find? fun c => c.1 == p with | some c => c.2 | none => (0, 0)

/-- A port's STEP_DONE counts as received (10 R268). -/
def StepRun.portDone (r : StepRun) (p : Nat) : Bool :=
  match r.stepDone.find? fun d => d.1 == p with
  | some d => decide (d.2.1 ≤ (r.received p).1) && decide (d.2.2 ≤ (r.received p).2)
  | none => false

/-- STEP_ABANDON (R125): 4 × PERIOD from GO, slip and stalls counted in. -/
def execStepAbandon (f : Nat) (s : State) : Out :=
  if 8 ≤ f then .fault .noSuchUnit
  else match assocGet f s.flocks with
    | none => stutter s
    | some k =>
      match k.run with
      | none => stutter s
      | some r =>
        if k.ports.all r.portDone then stutter s
        else .next ((s.at_ (r.go + 4 * r.plan.period)).abandonStep f)

/-- PLAN_ACK_TIMEOUT (10 R258): acknowledgements are missing 4 × PERIOD after DELIVER. -/
def execPlanAckTimeout (f : Nat) (s : State) : Out :=
  if 8 ≤ f then .fault .noSuchUnit
  else match assocGet f s.flocks with
    | none => stutter s
    | some k =>
      match k.delivered, k.next with
      | some (t, _ :: _), some p => .next ((s.at_ (t + 4 * p.period)).abandonStep f)
      | _, _ => stutter s

/-! ### Moves that land (06 R151) -/

/-- MOVE_WRITE_DONE (06 R147, R151): the last write of a move in COPYING is acknowledged; stalls that waited for it may
end. -/
def execMoveWriteDone (mv : Nat) (how : PassEnd) (s : State) : Out :=
  match s.moves.find? fun m => m.id == mv with
  | none => stutter s
  | some m =>
    if m.state == .copying && s.poolQuiet m then
      .next (((s.passEnd m how).demote (s.movePen m.subject)).tryEndStalls)
    else stutter s

/-! ### The boundary (R115) -/

/-- Leases that the delivered plan drops (Table 2.8). -/
def State.dropLeases (s : State) (f : Nat) : State :=
  match assocGet f s.flocks with
  | none => s
  | some k =>
    let named := match k.next with | some p => p.entries.map (fun (e : PlanEntry) => e.handle) | none => []
    s.cancelLeases f fun l => l.state != .staged && !named.contains l.handle

/-- Groups with one of these numbers wait for their commit. -/
def State.groupsWait (s : State) (ids : List Nat) : Bool :=
  s.sessions.any fun x => x.2.region.waiting.any fun g => ids.contains g.id

/-- The groups that wait with a number from `n` on: those formed since. -/
def State.groupsSince (s : State) (n : Nat) : List Nat :=
  s.sessions.flatMap fun x => (x.2.region.waiting.filter fun g => decide (n ≤ g.id)).map (·.id)

/-- The sessions of which a group with one of these numbers waits commit what they can (12 R308). -/
def State.commitOwed (s : State) (ids : List Nat) : State :=
  (s.sessions.filter fun x => x.2.region.waiting.any fun g => ids.contains g.id).foldl (fun t x => t.commitReady x.1) s

/-- The boundary comes to a phase, and waits for these groups. -/
def State.toPhase (s : State) (f : Nat) (p : RunPhase) (ids : List Nat) : State :=
  (s.modRun f fun r => { r with phase := p, owed := ids }).commitOwed ids

/-- The step has ended: its entries' tokens are written as groups (R115, 12 R308). -/
def State.beginTokens (s : State) (f : Nat) (r : StepRun) : State :=
  let s1 := r.plan.entries.foldl State.formTokens s
  s1.toPhase f .tokens (s1.groupsSince s.nextTicket)

/-- The tokens are committed: what is held for a new home goes there (06 R154). -/
def State.beginHandover (s : State) (f : Nat) (l : Layout) (r : StepRun) : State :=
  (r.plan.entries.foldl (fun t e => t.offerEntry l e) s).modRun f fun r => { r with phase := .handover, owed := [] }

/-- The handovers are decided: appends land, sessions change state, deferred commands and configurations take effect, output
is released, and leases end (R115). -/
def State.beginChange (s : State) (f : Nat) (l : Layout) (r : StepRun) : State :=
  let hs := r.plan.entries.map (·.handle)
  let s1 := r.plan.entries.foldl (fun t e => t.finishEntry l e) (r.plan.entries.foldl (fun t e => t.leaveEntry l e) s)
  let s2 := hs.foldl State.afterTransition (s1.applyDeferred hs)
  s2.toPhase f .changed (s2.groupsSince s.nextTicket)

/-- The sessions bound to a flock whose handover waits for its boundary (06 R154). -/
def State.handoverSteps (s : State) (f : Nat) : State :=
  (s.sessions.filter fun x => x.2.handover.isSome && x.2.flock == some f).foldl (fun t x => t.handoverStep x.1) s

/-- Every group of the boundary is committed: what is left of it (R115). -/
def State.endBoundary (s : State) (f : Nat) (k : Flock) (r : StepRun) : State :=
  let ran := r.plan.entries.map (·.handle)
  let s1 := (s.sessions.filter fun x => x.2.flock == some f).foldl (fun t x => t.sketchForked x.1) s
  let s2 := ran.foldl State.captureSession s1
  let s3 := (s2.dropAttends f).modFlock f fun k => { k with run := none }
  let re := r.plan.layout != k.params.layout || r.plan.layerOrder != k.params.layerOrder
  let s4 := (s3.retryCommits.demoteAll).correctPrice f r.plan.price
  if k.destroying.isSome then s4.finishDestroy f ran
  else
    let deep := r.plan.layerOrder && k.params.layerOrder && r.plan.depth != k.params.prefetchDepth
    let s5 := if re then (s4.cancelLeases f fun _ => true).unbindAll f
      else if deep then s4.cancelLeases f fun _ => true else ran.foldl (fun t h => t.growLease f h) s4
    let s6 := if k.rejoin then (s5.modFlock f fun k => { k with rejoin := false }).rejoin f else s5
    let s7 := ((s6.expireStaged f).cancelLeases f (·.ending)).deliverPlan f
    let next := (assocGet f s7.flocks).bind (·.next)
    let kept := match next with | some p => p.entries.map (fun (e : PlanEntry) => e.handle) | none => []
    let built := (assocGet f s6.flocks).bind (·.next)
    let s8 := s7.recordPreemptions k (re || !k.params.enable) built kept ran
    let s9 := ((s8.dropLeases f).restage f).handoverSteps f
    if next.isSome then s9 else ((s9.modFlock f fun k => { k with lastRan := [] }).dropGrant f).settleIdle f

/-- The boundary of a step goes on as far as commits and handovers let it (R115, 12 R311). -/
def State.boundary (s : State) (f : Nat) (l : Layout) : Nat → State
  | 0 => s
  | n + 1 =>
    match assocGet f s.flocks with
    | none => s
    | some k =>
      match k.run with
      | none => s
      | some r =>
        let t := s.commitOwed r.owed
        match r.phase with
        | .running => (s.beginTokens f r).boundary f l n
        | .tokens => if t.groupsWait r.owed then t else (t.beginHandover f l r).boundary f l n
        | .handover =>
          let t := r.plan.entries.foldl (fun t e => t.offerEntry l e) s
          if r.plan.entries.any t.undecided then t else (t.beginChange f l r).boundary f l n
        | .changed => if t.groupsWait r.owed then t else t.endBoundary f k r

/-- STEP_BOUNDARY (R115, 12 R311): every port's STEP_DONE is in, no stall stands, and the next plan is built; or the boundary
waits for commits or for a handover's end, and goes on. -/
def execStepBoundary (f : Nat) (s : State) : Out :=
  if 8 ≤ f then .fault .noSuchUnit
  else match assocGet f s.flocks with
    | none => stutter s
    | some k =>
      match k.run with
      | none => stutter s
      | some r =>
        match s.layout? r.plan.layout with
        | none => stutter s
        | some l =>
          if r.phase != .running then .next (s.boundary f l 4)
          else if k.ports.all r.portDone && r.stall.isNone && r.truncating then .next (s.cutThermal f)
          else if k.ports.all r.portDone && r.stall.isNone && (r.built || k.destroying.isSome) then .next (s.boundary f l 4)
          else stutter s

end Sys2Proof.Machine
end

