-- ==== Sys2Proof/Machine/Links.lean ====
section
/-!
DEFINITION. The flit layer and the ports of both links (10_step_link R244 to R254, 11_commons_fabric R274 to R276), and
census changes (13_faults_and_recovery R340 to R342).
-/
namespace Sys2Proof.Machine

/-! ### Census (R340, R342) -/

/-- Below the minimum of R342 the device is HALTED. -/
def State.checkHalted (s : State) : State :=
  if s.recovery.hbmStacks.isEmpty || s.recovery.drovers.isEmpty || s.recovery.oxen.isEmpty
      || s.usableGroups.isEmpty then
    (if s.ident.devState = .boot || s.ident.devState = .warmReset then s
    else { s with ident := { s.ident with devState := .halted } })
  else s

/-- A census change (R340); `lost` where a unit left. -/
def State.censusChange (s : State) (lost : Bool) : State :=
  let g := s.ident.censusGeneration + 1
  let s1 := { s with ident := { s.ident with censusGeneration := g } }
  let s2 := if lost then s1.bumpDev .censusLosses 1 else s1
  (s2.raiseAll 0x0001 g.toNat 0).checkHalted

/-! ### Ports -/

/-- A port of either link. -/
def State.port (s : State) : Link → Port
  | .step p => s.stepPort p
  | .commons p => (assocGet p s.commons.ports).getD {}

/-- Change a port of either link. -/
def State.modPort (s : State) (k : Link) (g : Port → Port) : State :=
  match k with
  | .step p => s.modStepPort p g
  | .commons p => { s with commons := { s.commons with ports := assocSet p (g (s.port k)) s.commons.ports } }

/-- Count on a port. -/
def State.bumpPort (s : State) (k : Link) (c : PortCtr) : State := s.modPort k fun q => q.bump c

/-- The port exists (Table 1.2); a LYS4160-PC has no Step Link ports (R4). -/
def linkExists : Link → Bool
  | .step p => decide (p < 8)
  | .commons p => decide (p < 18)

/-- Initial grants of this device per virtual channel (Tables 10.3 and 11.1). -/
def initialGrants : Link → List Nat
  | .step _ => [128, 2048, 2048, 1024]
  | .commons _ => [64, 2048, 2048, 512]

/-- The least grants of a partner. -/
def partnerGrants : Link → List Nat
  | .step _ => [64, 512, 512, 256]
  | .commons _ => [64, 512, 512, 128]

/-- The list with entry `i` changed. -/
def modNth (l : List Nat) (i : Nat) (g : Nat → Nat) : List Nat := modAt g i l

/-! ### Sending flits (R247, R248) -/

/-- Credit on a virtual channel. -/
def FlitLayer.credit (x : FlitLayer) (v : Nat) : Nat := (x.totals.getD v 0 + 65536 - x.sent.getD v 0 % 65536) % 65536

/-- Send waiting flits of channel `v` while credit and replay buffer last. -/
def FlitLayer.pumpVc (now v : Nat) : Nat → FlitLayer → FlitLayer
  | 0, x => x
  | n + 1, x =>
    if 0 < x.waiting.getD v 0 && 0 < x.credit v && decide (x.replay.length < 4096) then
      FlitLayer.pumpVc now v n
        { x with waiting := modNth x.waiting v (· - 1), sent := modNth x.sent v (fun c => (c + 1) % 65536),
                 replay := x.replay ++ [(x.nextSeq, now)], nextSeq := (x.nextSeq + 1) % 65536 }
    else x

/-- Send what may go on every channel. -/
def FlitLayer.pump (x : FlitLayer) (now : Nat) : FlitLayer :=
  (List.range 4).foldl (fun x v => FlitLayer.pumpVc now v (x.waiting.getD v 0) x) x

/-- Flits of a message or packet of `n` bytes (R255). -/
def flitsOf (n : Nat) : Nat := max 1 (ceilDiv n 244)

/-- Flits sent are counted (Table 10.12). The NULL flits that fill idle flit times are no commands and are not. -/
def Port.sentFlits (q : Port) (n : Nat) : Port := { q with ctrs := tallyAdd q.ctrs .flitsTx n 64 }

/-- A port's flits go out, counted in FLITS_TX. -/
def State.pumpPort (s : State) (k : Link) : State :=
  s.modPort k fun q =>
    let y := q.flits.pump s.clock.now
    let sent := (y.nextSeq + 65536 - q.flits.nextSeq) % 65536
    { (q.sentFlits sent) with flits := y }

/-- The unacknowledged DATA flits go out again from the oldest (R247). -/
def State.sendAgain (s : State) (k : Link) : State :=
  let x := (s.port k).flits
  let s1 := x.replay.foldl (fun t r => t.emit (.flit k 1 r.1 ((x.expect + 65535) % 65536) 0)) s
  s1.modPort k fun q =>
    { (q.sentFlits x.replay.length) with flits := { x with replay := x.replay.map fun r => (r.1, s.clock.now) } }

/-- A replay, by NAK or timer (R247). -/
def State.resend (s : State) (k : Link) : State :=
  (s.sendAgain k).modPort k fun q => { (q.bump .replays) with flits := { q.flits with stuck := q.flits.stuck + 1 } }

/-! ### Link reset and census loss (R252, R254) -/

/-- The device's HELLO (Tables 10.9 and 11.2), sent once the flit layer has started; Commons port `p` is written as port
`256 + p`. -/
def State.sendHello (s : State) (k : Link) : State :=
  match k with
  | .step p =>
    s.slSend p 0 9 1 0 (packBytes 16 [(16, 0xEB10), (16, 0x4160), (8, 0), (8, 1), (1, 0), (15, 0),
      (64, Config.serial.toNat)])
  | .commons p =>
    (s.emit (.stepLink (256 + p) 0 9 1 0 16 (packBytes 16 [(16, 0xEB10), (16, 0x4160), (8, 0), (8, 1), (2, 0), (1, 0),
      (13, s.node), (64, Config.serial.toNat)]))).modPort k fun q => q.queueFlits 0 32

/-- What a Step Link port's reset or loss does to its flock (R125, R254, R261): its step is abandoned, every lease is
cancelled, and those on the port count as reclaimed. -/
def State.flockLosesPort (s : State) (p : Nat) (wasUp : Bool) : State :=
  match s.flockOf p with
  | none => s
  | some (f, k) =>
    let s1 := if k.stepping || (wasUp && k.params.enable) then s.abandonStep f else s
    let s2 := s1.modFlock f fun k => { k with resync := k.resync.filter fun r => r.1 != p }
    let s3 := s2.cancelLeases f fun _ => true
    (s3.leasesOf f).foldl (fun t l => t.reclaimLease f l.id p) s3

/-- A port as a link reset leaves it: back in Flit sync. -/
def Port.resetLink (q : Port) (now : Nat) : Port :=
  { (q.bump .linkResets) with state := .linked, since := now, flits := {}, helloSeen := false, grants := [], slots := none,
                              joined := false, joinSent := false, streamSeq := 0, landedSeq := 0, peer := none,
                              refused := false }

/-- A link reset (R254). -/
def State.linkReset (s : State) (k : Link) : State :=
  let up := (s.port k).state == .up || ((s.port k).state == .retrain && (s.port k).saved == .up)
  let s1 := s.modPort k fun q => q.resetLink s.clock.now
  let s2 := match k with
    | .step p => s1.flockLosesPort p up
    | .commons p => s1.leaveRoute p
  s2.sendHello k

/-- A HELLO has been refused: the port stays LINKED until a new one arrives (R248, R253, R276). -/
def State.awaitHello (s : State) (k : Link) : State := s.modPort k fun q => { q with refused := true }

/-- A port enters FAILED and leaves the census (R252, R276). -/
def State.portFails (s : State) (k : Link) : State :=
  let q := s.port k
  let up := q.state == .up || (q.state == .retrain && q.saved == .up)
  let s1 := s.modPort k fun q =>
    { q with state := .failed, since := s.clock.now, width := 0, census := false, attempts := 0, resets := 0, flits := {},
             helloSeen := false, slots := none, joined := false, joinSent := false, peer := none, refused := false }
  let s2 := match k with
    | .step p => s1.flockLosesPort p up
    | .commons p => s1.leaveRoute p
  if q.census then s2.censusChange true else s2

/-- A protocol error (Table 10.4). -/
def State.protocolError (s : State) (k : Link) : State := (s.bumpPort k .protoErrors).linkReset k

/-- The port carries flits. -/
def State.linkUp (s : State) (k : Link) : Bool := (s.port k).state == .linked || (s.port k).state == .up

/-- A RETRAIN begins (R247, R249). -/
def State.retrain (s : State) (k : Link) : State :=
  let s1 := s.modPort k fun q =>
    if q.state == .linked || q.state == .up then
      { (q.bump .retrains) with saved := q.state, state := .retrain, since := s.clock.now }
    else q
  match k with
  | .commons p => if (s.port k).state == .up then s1.leaveRoute p else s1
  | .step _ => s1

/-! ### Receiving flits -/

/-- An acknowledgement: flits up to ACK_SEQ leave the replay buffer; progress beyond one flit clears the replay count. -/
def FlitLayer.ack (x : FlitLayer) (a : Nat) : FlitLayer :=
  match x.replay.findIdx? fun r => r.1 == a with
  | none => x
  | some i => { x with replay := x.replay.drop (i + 1), stuck := if i = 0 then x.stuck else 0, lastNak := none }

/-- One NAK for a failure or a gap (R247). -/
def State.nakOnce (s : State) (k : Link) : State :=
  let x := (s.port k).flits
  if x.nakOutstanding then s
  else
    (s.emit (.flit k 2 0 ((x.expect + 65535) % 65536) 0)).modPort k fun q =>
      { ((q.bump .naksSent).sentFlits 1) with flits := { q.flits with nakOutstanding := true } }

/-- Fields of a flit header (Table 10.2). -/
def flitField (h : BitVec 64) (lo w : Nat) : Nat := bitsOf h.toNat lo w

/-- ACK_SEQ and CREDIT_TOTAL of a flit that passed its CRC: none for a credit report that is a protocol error. -/
def FlitLayer.control (x : FlitLayer) (h : BitVec 64) : Option FlitLayer :=
  let v := flitField h 6 2
  let y := { x with totals := modNth x.totals v fun _ => flitField h 40 16 }
  if 32768 < y.credit v then none else some (y.ack (flitField h 24 16))

/-- The framing of R255: whether this DATA flit loses a message, and the message left open. -/
def framing (open_ som eom : Bool) (len : Nat) : Bool × Bool :=
  (if som then open_ else !open_, !eom && (som || open_) && decide (len = 244))

/-- A DATA flit in order: handed to the message layer (R248, R255). -/
def Port.accept (q : Port) (h : BitVec 64) : Port :=
  let v := flitField h 2 2
  let som := bitOf h.toNat 4
  let eom := bitOf h.toNat 5
  let len := flitField h 56 8
  let fr := framing (q.flits.openMsg.getD v false) som eom len
  let short := !eom && decide (len < 244) && (som || q.flits.openMsg.getD v false)
  let q1 := if fr.1 then q.bump .msgDiscards else q
  let q2 := if short then q1.bump .msgDiscards else q1
  { q2 with flits := { q2.flits with
      expect := (q2.flits.expect + 1) % 65536, nakOutstanding := false,
      received := modNth q2.flits.received v fun c => (c + 1) % 65536,
      openMsg := modAt (fun _ => fr.2) v q2.flits.openMsg } }

/-- FLIT (R246 to R249): a flit arrives on a port that carries flits. The messages it completes come as their own
commands, and so does a NAK. -/
def execFlit (k : Link) (crcOk : Bool) (h : BitVec 64) (payload : List Byte) (s : State) : Out :=
  if !linkExists k then .fault .noSuchUnit
  else if !s.linkUp k || payload.length != 244 || (crcOk && flitField h 0 2 == 2) then stutter s
  else
    let s := s.modPort k fun q => { q with ctrs := tallyAdd q.ctrs .flitsRx 1 64 }
    if !crcOk then .next ((s.bumpPort k .crcErrors).nakOnce k)
    else
      let t := flitField h 0 2
      let len := flitField h 56 8
      if t = 3 || (t = 1 && (len = 0 || decide (244 < len))) || (t = 0 && len != 0) then .next (s.protocolError k)
      else match (s.port k).flits.control h with
        | none => .next (s.protocolError k)
        | some x =>
          let s1 := s.modPort k fun q => { q with flits := x }
          if t = 0 then .next (s1.pumpPort k)
          else
            let d := (flitField h 8 16 + 65536 - x.expect) % 65536
            if d = 0 then .next ((s1.modPort k fun q => q.accept h).pumpPort k)
            else if 32768 ≤ d then .next (s1.pumpPort k)
            else .next ((s1.nakOnce k).pumpPort k)

/-- A replay has been sent; the eighth without progress retrains the port (R247). -/
def State.afterReplay (s : State) (k : Link) : State := if 8 ≤ (s.port k).flits.stuck then s.retrain k else s

/-- NAK (R247): go back to ACK_SEQ + 1, unless that replay is the one running. -/
def execNak (k : Link) (h : BitVec 64) (s : State) : Out :=
  if !linkExists k then .fault .noSuchUnit
  else if !s.linkUp k || flitField h 0 2 != 2 then stutter s
  else
    let s := s.modPort k fun q => { q with ctrs := tallyAdd q.ctrs .flitsRx 1 64 }
    if flitField h 56 8 != 0 then .next (s.protocolError k)
    else match (s.port k).flits.control h with
      | none => .next (s.protocolError k)
      | some x =>
        let a := flitField h 24 16
        let s1 := s.modPort k fun q => { q with flits := x }
        if x.lastNak = some a then .next (s1.pumpPort k)
        else
          let s2 := (s1.modPort k fun q => { q with flits := { q.flits with lastNak := some a } }).resend k
          .next ((s2.afterReplay k).pumpPort k)

/-- REPLAY_TIMER (R247): the oldest unacknowledged flit has waited 2^10 always-on cycles. -/
def execReplayTimer (k : Link) (s : State) : Out :=
  if !linkExists k then .fault .noSuchUnit
  else match (s.port k).flits.replay with
    | [] => stutter s
    | r :: _ =>
      if !s.linkUp k then stutter s
      else .next (((s.at_ (r.2 + 1024)).resend k).afterReplay k)

/-- LOCK_OR_ALIGNMENT_LOST (R244, R249). -/
def execLockOrAlignmentLost (k : Link) (s : State) : Out :=
  if !linkExists k then .fault .noSuchUnit
  else if s.linkUp k then .next (s.retrain k) else stutter s

/-! ### Training (R251, R253, R274) -/

/-- The lane groups of a width, in the order they are tried. -/
def laneGroups : Link → List (Nat × Nat)
  | .step _ => [(0, 32), (0, 16), (16, 16), (0, 8), (8, 8), (16, 8), (24, 8)]
  | .commons _ => [(0, 8), (0, 4), (4, 4)]

/-- The width that usable lanes give (R251, R274); none when no group is wholly usable. -/
def widthOf (k : Link) (usable : BitVec 32) : Option Nat :=
  ((laneGroups k).find? fun g => (List.range g.2).all fun i => bitOf usable.toNat (g.1 + i)).map (·.2)

/-- A port has no flock to serve: power-on training ends in OFF (Table 10.5). -/
def State.idleStepPort (s : State) : Link → Bool
  | .step p => (s.flockOf p).isNone
  | .commons _ => false

/-- A training attempt that found no width: the second enters FAILED. -/
def State.trainingFailed (s : State) (k : Link) : State :=
  if 1 ≤ (s.port k).attempts then s.portFails k
  else s.modPort k fun q => { q with attempts := 1, since := s.clock.now }

/-- TRAINING_DONE (R251, R252): the port is LINKED, says HELLO, and is in the census; coming
back from FAILED is a census change (13 R341). -/
def execTrainingDone (k : Link) (usable : BitVec 32) (s : State) : Out :=
  if !linkExists k then .fault .noSuchUnit
  else if (s.port k).state != .training then stutter s
  else match widthOf k usable with
    | none => .next (s.trainingFailed k)
    | some w =>
      let q0 := s.port k
      let s1 := s.modPort k fun q =>
        { q with state := .linked, width := w, census := true, known := true, retried := false, since := s.clock.now, attempts := 0, resets := 0, flits := {},
                 helloSeen := false, slots := none, joined := false, joinSent := false, streamSeq := 0, landedSeq := 0, refused := false }
      let s2 := if !q0.census && q0.retried && s.ident.devState != .boot then s1.censusChange false else s1
      if s2.idleStepPort k then .next (s2.modPort k fun q => { q with state := .off })
      else .next (s2.sendHello k)

/-- TRAINING_TIMEOUT (Table 10.6): 2^23 always-on cycles without a width. -/
def execTrainingTimeout (k : Link) (s : State) : Out :=
  if !linkExists k then .fault .noSuchUnit
  else if (s.port k).state = .training then .next ((s.at_ ((s.port k).since + 2 ^ 23)).trainingFailed k)
  else stutter s

/-- RETRAIN_DONE (R251): back to the state it left, never wider; a narrower width is a census change. A Step Link port whose
flock went meanwhile goes OFF (Table 10.5). -/
def execRetrainDone (k : Link) (usable : BitVec 32) (s : State) : Out :=
  if !linkExists k then .fault .noSuchUnit
  else if (s.port k).state != .retrain then stutter s
  else match widthOf k usable with
    | none => stutter s
    | some w0 =>
      let q := s.port k
      let w := min w0 q.width
      let s1 := s.modPort k fun q => { q with state := q.saved, width := w, flits := { q.flits with stuck := 0 } }
      let s2 := if w < q.width then (s1.bumpPort k .degrades).censusChange false else s1
      let s3 := s2.sendAgain k
      .next (match k with
        | .commons _ => s3.joinRoute
        | .step _ => if s3.idleStepPort k then s3.modPort k fun q => { q with state := .off } else s3)

/-- RETRAIN_TIMEOUT (Table 10.5): 2^20 always-on cycles. -/
def execRetrainTimeout (k : Link) (s : State) : Out :=
  if !linkExists k then .fault .noSuchUnit
  else if (s.port k).state = .retrain then .next ((s.at_ ((s.port k).since + 2 ^ 20)).portFails k)
  else stutter s

/-- The bound of the bring-up phase a LINKED port stands in, if one runs (Table 10.6): Flit sync and Hello, Slots, Join.
Commons ports have no Slots or Join phase (R276). A port whose HELLO was refused waits for a
new one; one that is UP stands in Join again when its flock's layout changed (R258). -/
def bringupBound (k : Link) (q : Port) : Option Nat :=
  if q.state == .up && q.joinSent then some (2 ^ 16)
  else if q.state != .linked || q.refused then none
  else if !q.helloSeen then some (2 ^ 12 + 2 ^ 16)
  else match k with
    | .commons _ => none
    | .step _ => if q.slots.isNone then some (2 ^ 16) else if q.joinSent then some (2 ^ 16) else none

/-- BRINGUP_OVERRUN (R253): a link reset, and after three of them FAILED. -/
def execBringupOverrun (k : Link) (s : State) : Out :=
  if !linkExists k then .fault .noSuchUnit
  else match bringupBound k (s.port k) with
    | none => stutter s
    | some b =>
      let s1 := s.at_ ((s.port k).since + b)
      if 3 ≤ (s1.port k).resets then .next (s1.portFails k)
      else
        let n := (s1.port k).resets + 1
        .next ((s1.linkReset k).modPort k fun q => { q with resets := n })

/-- PORT_RETRY (Table 10.5): every 2^28 always-on cycles a FAILED port trains again. -/
def execPortRetry (k : Link) (s : State) : Out :=
  if !linkExists k then .fault .noSuchUnit
  else if (s.port k).state = .failed then
    let s1 := s.at_ ((s.port k).since + 2 ^ 28)
    .next (s1.modPort k fun q => { q with state := .training, since := s1.clock.now, attempts := 0, retried := true })
  else stutter s

end Sys2Proof.Machine
end

