-- ==== Sys2Proof/Machine/StepLink.lean ====
section
/-!
DEFINITION. The messages an accelerator sends (10_step_link R253 to R268), the queries and passes of attention at the device
(07_split_attention R165 to R173, R186; 08_sketch_search R196, R198), and the Weaver's sampling (09_weaver_text R230 to R235).
-/
namespace Sys2Proof.Machine

/-! ### Receiving a message (R255 to R257) -/

/-- Fields of a message header (Table 10.7). -/
def msgCls (m : SlMsg) : Nat := bitsOf m.header.toNat 0 8
def msgOp (m : SlMsg) : Nat := bitsOf m.header.toNat 8 8
def msgLen (m : SlMsg) : Nat := bitsOf m.header.toNat 32 32
def msgStep (m : SlMsg) : Nat := bitsOf m.header.toNat 64 64

/-- The virtual channel of an operation that an accelerator sends (Table 10.8); none for every other. -/
def upstreamVc (cls op : Nat) : Option Nat :=
  if (cls = 1 && op = 3) || (cls = 2 && (op = 4 || op = 5)) || (cls = 9 && (op = 1 || op = 2 || op = 4 || op = 6 || op = 7))
  then some 0
  else if cls = 4 && op = 1 then some 1
  else if (cls = 3 && op = 2) || (cls = 5 && op = 1) then some 2
  else if (cls = 6 && op = 1) || (cls = 8 && op = 1) then some 3
  else none

/-- Whether the body of a short message has the length of Table 10.9. -/
def shortLenOk (cls op n : Nat) : Bool :=
  if cls = 1 && op = 3 then n == 0
  else if cls = 2 || cls = 3 then n == 8
  else if cls = 5 then decide (16 ≤ n)
  else if cls = 8 then n == 16
  else if cls = 9 then (if op = 1 || op = 2 then n == 16 else if op = 7 then n == 8 else n == 0)
  else true

/-- Reserved bits of a body header are set (R13): ranges from a bit, of a width. -/
def rsvdSet (body : List Byte) (l : List (Nat × Nat)) : Bool := l.any fun r => bitsOf (bytesToNat (body.take 32)) r.1 r.2 != 0

/-- The reserved ranges of a body by its operation (Tables 7.1, 10.9, 10.11). -/
def bodyReserved (cls op : Nat) : List (Nat × Nat) :=
  if cls = 2 then (if op = 4 then [(40, 24)] else [(32, 32)])
  else if cls = 3 then [(32, 32)]
  else if cls = 4 then [(12, 4), (26, 6), (58, 6), (81, 47)]
  else if cls = 5 then [(12, 4), (26, 6), (59, 5), (81, 47)]
  else if cls = 6 then [(12, 4), (20, 108)]
  else if cls = 8 then [(48, 80)]
  else if cls = 9 && op = 1 then [(49, 15)]
  else if cls = 9 && op = 2 then [(74, 6), (84, 44)]
  else []

/-- Rows that an entry owes (R231): 1 + d for DECODE, one for a PREFILL that ends at the last journalled token, none for
the others. -/
def PlanEntry.owesRows (e : PlanEntry) (x : Session) : Bool :=
  !x.isPrefix && (e.kind == .decode || (e.kind == .prefill && decide (e.position + e.tokens = x.positions)))

/-- Count a message of a class received in the step (R268). -/
def State.countMsg (s : State) (f p a g : Nat) : State :=
  s.modRun f fun r =>
    let c := r.received p
    { r with counts := (r.counts.filter fun t => t.1 != p) ++ [(p, c.1 + a, c.2 + g)] }

/-- Entries that owe rows and have none accepted sit out (R231). -/
def State.logitsOwed (s : State) (f : Nat) : State :=
  match s.run? f with
  | none => s
  | some r => (List.range r.plan.entries.length).foldl (fun t i => match t.planEntry? f i with
      | none => t
      | some e => match t.sess? e.handle with
        | some x => if e.sitOut.isNone && e.owesRows x && e.verdict.isNone then t.sitOut f i 0x3FF .logitsMissing else t
        | none => t) s

/-- Every accelerator of the flock has sent STEP_DONE, with the messages that it declares (R268): rows that are owed and have
not come are missing (R231). -/
def State.portsDone (s : State) (f : Nat) : State :=
  match assocGet f s.flocks, s.run? f with
  | some k, some r => if k.ports.all r.portDone then s.logitsOwed f else s
  | _, _ => s

/-- A message is discarded before its class looks at it (R255). An APPEND or LOGITS of the step in progress still counts
as received (R268). -/
def State.discardMsg (s : State) (p cls : Nat) (m : SlMsg) : State :=
  let s1 := s.bumpPort (.step p) .msgDiscards
  match s.flockOf p with
  | some (f, k) =>
    (match k.run with
    | some r =>
      if r.plan.step = msgStep m && (cls == 5 || cls == 6) then
        (s1.countMsg f p (if cls = 5 then 1 else 0) (if cls = 6 then 1 else 0)).portsDone f
      else s1
    | none => s1)
  | none => s1

/-- A reserved field that is not zero is counted (00 R13), in a message that is discarded too. -/
def State.countRsvd (s : State) (p : Nat) (set : Bool) : State :=
  if set then s.bumpPort (.step p) .rsvdNonzero else s

/-- `body` on a message of class and operation that a port delivers; the discards of R255 before it. A message of another
of the accelerator's operations is that operation's own command. -/
def slReceive (s : State) (p : Nat) (m : SlMsg) (cls op : Nat) (body : State → Out) : Out :=
  if 8 ≤ p then .fault .noSuchUnit
  else if !(s.stepPort p).carries then stutter s
  else if (msgCls m) ≠ cls ∨ (msgOp m) ≠ op then
    (if (upstreamVc (msgCls m) (msgOp m)).isSome then stutter s
     else .next ((s.countRsvd p (bitsOf m.header.toNat 16 16 != 0)).bumpPort (.step p) .msgDiscards))
  else if upstreamVc cls op != some m.vc || (msgLen m) != m.body.length || decide (0x04000040 < (msgLen m))
      || !shortLenOk cls op m.body.length then .next ((s.countRsvd p (bitsOf m.header.toNat 16 16 != 0)).discardMsg p cls m)
  else body (s.countRsvd p (bitsOf m.header.toNat 16 16 != 0 || rsvdSet m.body (bodyReserved cls op)))

/-- `body` on a message of the step in progress of the port's flock: one of another step is discarded in STALE_STEP, one of
a step cut short uncounted (R257, R259). -/
def stepMessage (s : State) (p : Nat) (m : SlMsg) (body : State → Nat → Flock → StepRun → State) : Out :=
  match s.flockOf p with
  | none => .next (s.bumpPort (.step p) .staleStep)
  | some (f, k) =>
    match k.run with
    | some r => if r.phase = .running ∧ r.plan.step = (msgStep m) then .next (body s f k r)
        else if k.truncatedStep = some (msgStep m) then .next s else .next (s.bumpPort (.step p) .staleStep)
    | none => if k.truncatedStep = some (msgStep m) then .next s else .next (s.bumpPort (.step p) .staleStep)

/-- A field of a message body. -/
def msgField (m : SlMsg) (lo w : Nat) : Nat := bitsOf (bytesToNat (m.body.take 32)) lo w

/-! ### Plans, leases, streams -/

/-- PLAN_ACK (R258). -/
def execPlanAck (p : Nat) (m : SlMsg) (s : State) : Out :=
  slReceive s p m 1 3 fun s =>
    match s.flockOf p with
    | none => .next s
    | some (f, k) =>
      match k.delivered, k.next with
      | some (t, ports), some n =>
        if n.step = (msgStep m) then .next (s.modFlock f fun k => { k with delivered := some (t, ports.filter (· != p)) })
        else .next s
      | _, _ => .next s

/-- LEASE_ACK (R261): of a GRANT or an EXTEND. -/
def execLeaseAck (p : Nat) (m : SlMsg) (s : State) : Out :=
  slReceive s p m 2 4 fun s =>
    match (s.flockOf p).bind fun f => (s.lease? f.1 (msgField m 0 32)).map fun l => (f.1, l) with
    | none => .next (s.bumpPort (.step p) .msgDiscards)
    | some (f, l) =>
      if msgField m 32 8 = 1 then .next (s.modLease f l.id fun l => { l with acks := l.acks.filter (· != p) })
      else if msgField m 32 8 = 2 then
        .next (s.modLease f l.id fun l =>
          let left := l.extending.filter (· != p)
          { l with extending := left, state := if l.state = .extending && left.isEmpty then .named else l.state })
      else .next s

/-- RECLAIMED (R261). -/
def execReclaimed (p : Nat) (m : SlMsg) (s : State) : Out :=
  slReceive s p m 2 5 fun s =>
    match (s.flockOf p).bind fun f => (s.lease? f.1 (msgField m 0 32)).map fun l => (f.1, l) with
    | none => .next (s.bumpPort (.step p) .msgDiscards)
    | some (f, l) => if l.state = .cancelled then .next (s.reclaimLease f l.id p) else .next s

/-- RECLAIM_TIMEOUT (R261): LEASE_STUCK, once for each lease and port. -/
def execReclaimTimeout (p id : Nat) (s : State) : Out :=
  if 8 ≤ p then .fault .noSuchUnit
  else match (s.flockOf p).bind fun f => (s.lease? f.1 id).map fun l => (f.1, l) with
    | none => stutter s
    | some (f, l) =>
      match assocGet p l.reclaim with
      | none => stutter s
      | some t =>
        if l.stuck.contains p then stutter s
        else .next (((s.at_ (t + 2 ^ 20)).modLease f id fun l => { l with stuck := l.stuck ++ [p] }).raise 0 0x0504 id p)

/-- LANDED (R262). -/
def execLanded (p : Nat) (m : SlMsg) (s : State) : Out :=
  slReceive s p m 3 2 fun s =>
    let s1 := s.modStepPort p fun q => { q with landedSeq := max q.landedSeq (min q.streamSeq (msgField m 0 32 + 1)) }
    match s1.flockOf p with
    | some (f, _) => .next (s1.tryEndStall f)
    | none => .next s1

/-! ### Queries (R165 to R168) -/

/-- The query group is discarded (R167, R264). -/
def queryBad (r : StepRun) (l : Layout) (m : SlMsg) : Bool :=
  match r.plan.entries[msgField m 0 12]? with
  | none => true
  | some e =>
    let ly := msgField m 16 10
    let first := msgField m 32 26
    let n := msgField m 64 13
    let d := msgField m 77 4
    let rows := (if e.kind = .decode then 1 + d else e.tokens) * l.queryHeads
    decide (m.body.length < 16) || decide (l.layers ≤ ly) || n == 0 || decide (4096 < n) || decide (rows < first + n)
      || (if e.kind = .decode then decide (e.draftMax < d) || (match e.drafts with | some g => g != d | none => false)
          else d != 0)
      || m.body.length != 16 + n * (2 * l.queryWidth)
      || (e.rowsOf ly).any fun q => decide (first ≤ q.1) && decide (q.1 < first + n)

/-- The rows of a group. -/
def groupRows (l : Layout) (p : Nat) (m : SlMsg) : List (Nat × Nat × Nat × List Byte) :=
  (List.range (msgField m 64 13)).map fun i =>
    (msgField m 16 10, msgField m 32 26 + i, p, ((m.body.drop (16 + i * (2 * l.queryWidth))).take (2 * l.queryWidth)))

/-- Slip (R118, R168): the last row of an entry's layer arrives later than planned. -/
def State.slip (s : State) (f ly : Nat) : State :=
  match s.run? f with
  | none => s
  | some r =>
    match r.plan.layers[ly]? with
    | none => s
    | some t =>
      let d := (s.clock.now - r.go) - (t.partialDue - t.span + r.slip + r.stalled)
      if d = 0 then s
      else (s.modRun f fun r => { r with slip := r.slip + d }).modFlock f fun k =>
        { k with ctrs := tallyAdd k.ctrs .accelSlip d 64 }

/-- A remote attention request (R186, Table 7.6) for one owner's sheaves of a layer at a pool. -/
def attendBody (l : Layout) (x : Session) (e : PlanEntry) (ly id : Nat) (owner : Handle) (fs : List Sheaf) : List Byte :=
  packBytes 64 [(64, id), (64, owner.toNat), (10, ly), (1, bitNat l.latent), (1, bitNat l.causal), (4, 0),
    (11, l.queryHeads), (5, 0), (9, l.kvHeads), (7, 0), (10, l.headWidth), (6, 0), (12, l.latentWidth), (4, 0),
    (9, l.ropeWidth), (7, 0), (32, l.scoreScale.toNat), (32, l.softcap.toNat), (27, e.position), (5, 0),
    (17, e.stepPositions), (15, 0), (32, l.windowOf ly), (27, x.sinkEnd l ly), (5, 0), (21, fs.length), (75, 0)]
  ++ fs.flatMap (fun g => natToBytes 4 g.ordinal)
  ++ (sortBy (fun (a b : Nat × Nat × List Byte) => decide (a.1 ≤ b.1)) (e.rowsOf ly)).flatMap fun q => q.2.2

/-- What follows once every row of an entry's layer is in: slip, the pools' requests, the candidates' promotions and the
selection's counts, and in LAYER_ORDER the stream of a later layer (R118, R130, R186, R196). -/
def State.layerQueried (s : State) (f i ly : Nat) : State :=
  match s.run? f, s.planEntry? f i with
  | some r, some e =>
    (match s.sess? e.handle, s.layout? r.plan.layout with
    | some x, some l =>
      let p := handlePen e.handle
      let s1 := s.slip f ly
      -- a node that the map does not name is not asked (01 R30): its units do not arrive
      let s2 := ((e.poolSources x ly).filter fun q => s.mapNames q.1).foldl (fun t q =>
        (t.request q.1 0x10 p (attendBody l x e ly t.commons.nextPkt q.2.1 q.2.2) (.attend f i ly q.1)).bumpPen p
          .remoteRequests 1) s1
      let s3 := if e.selects x ly then
          let es := e.choosable x ly
          let cs := s.candidates l e x ly
          let t0 := (s.scoringSource e x l ly).foldl (fun t g => t.askPromotion g.owner g.layer g.ordinal (some f)) s2
          let t1 := (t0.bumpPen p .selectLayers 1).bumpPen p .sketchesCompared es.length
          let t2 := if es.length < 1024 then t1.bumpPen p .candShort (1024 - es.length) else t1
          if cs.length < e.deviceSheaves then t2.bumpPen p .selectShort (e.deviceSheaves - cs.length) else t2
        else s2
      let next := ly + r.plan.depth
      if r.plan.layerOrder && decide (r.plan.depth < next) then
        (match s3.entryLease f e with
        | none => s3
        | some ls => (x.map.filter fun g => g.layer == next && ls.covers g).foldl (fun t g =>
            match ls.slots.find? fun q => q.1 == g.layer && q.2.1 == g.ordinal, t.inT1 g with
            | some q, some c => t.stream f ls l c q.2.2 0 c.count
            | _, _ => t) s3)
      else s3
    | _, _ => s)
  | _, _ => s

/-- QUERY (R165, R167): a query group arrives. -/
def execQuery (p : Nat) (m : SlMsg) (s : State) : Out :=
  slReceive s p m 4 1 fun s =>
    stepMessage s p m fun s f _ r =>
      match s.layout? r.plan.layout with
      | none => s
      | some l =>
        let i := msgField m 0 12
        match r.plan.entries[i]? with
        | none => s.bumpPort (.step p) .attendDiscards
        | some e =>
          if e.sitOut.isSome then s
          else if queryBad r l m then s.bumpPort (.step p) .attendDiscards
          else
            let ly := msgField m 16 10
            let s1 := s.modPlanEntry f i fun e =>
              { e with rows := e.rows ++ groupRows l p m,
                       drafts := if e.kind = .decode then some (msgField m 77 4) else e.drafts }
            match s1.planEntry? f i with
            | none => s1
            | some e1 => (if e1.allRows l ly then s1.layerQueried f i ly else s1).deliver f i ly

/-! ### Ox passes (R170, R171, R173, R196, R198) -/

/-- The oxen that can run a pass: those of the census whose pair is in RUN (15 Table 15.1). -/
def State.readyOxen (s : State) : List Nat := s.recovery.oxen.filter fun o => s.domainRuns (17 + o / 2)

/-- An ox's loft holds scores that an entry of a step in progress is to reuse (R198). -/
def State.loftHeld (s : State) (o : Nat) : Bool :=
  match assocGet o s.recovery.lofts with
  | none => false
  | some (step, i, ly) => s.flocks.any fun k => match k.2.run with
      | some r => r.plan.step == step && (match r.plan.entries[i]? with | some e => e.sitOut.isNone && e.reuses ly | none => false)
      | none => false

/-- The ox that takes the next pass: one that holds no scores to be reused where there is such, and of them the one used longest
ago (the Shepherd's placement, 05 R456). -/
def State.pickOx (s : State) : Option Nat :=
  let ready := s.readyOxen
  let free := ready.filter fun o => !s.loftHeld o
  let from_ := if free.isEmpty then ready else free
  match from_.find? fun o => !assocHas o s.recovery.lofts with
  | some o => some o
  | none => (s.recovery.lofts.find? fun q => from_.contains q.1).map (·.1)

/-- The ox on which the scoring pass of a tile and chunk of an entry's layer ran. -/
def PlanEntry.scoringOx (e : PlanEntry) (ly tile c : Nat) : Option Nat :=
  let mine := e.passes.filter fun q => q.1 == ly && q.2.2.2
  (((e.scoredOn.filter fun q => q.1 == ly).map (·.2))[mine.findIdx fun q => q.2.1 == tile && q.2.2.1 == c]?)

/-- The chunks of rows of a tile that a pass has not yet covered: the first, where its rows are in. -/
def PlanEntry.nextChunk (e : PlanEntry) (ly tile n rows : Nat) (scoring : Bool) : Option Nat :=
  (List.range (chunkCount rows n)).find? fun c =>
    !e.passes.contains (ly, tile, c, scoring)
      && (let r := chunkRows rows n c; (List.range r.2).all fun i => (e.rowsOf ly).any fun q => q.1 == r.1 + i)

/-- A pass over a tile is recorded on its ox, and counted (Table 7.9). -/
def State.recordPass (s : State) (f i ly tile c : Nat) (scoring : Bool) (ox step p rows n : Nat) : State :=
  let s1 := s.modPlanEntry f i fun e =>
    { e with passes := e.passes ++ [(ly, tile, c, scoring)],
             scoredOn := if scoring then e.scoredOn ++ [(ly, ox)] else e.scoredOn,
             reruns := e.reruns.filter fun q => q != (ly, tile, c, scoring) }
  let mark := (step, i, if scoring then ly else ly + 1024)
  let s2 := { s1 with recovery := { s1.recovery with lofts := assocDel ox s1.recovery.lofts ++ [(ox, mark)] } }
  (s2.bumpPen p .passes 1).bumpPen p .scored (rows * n)

/-- A tag check fails while a pass reads a sheaf (R185). -/
def State.passTagFail (s : State) (p : Nat) (g : Sheaf) : State :=
  ((s.bumpPen p .tagFails 1).bumpDev .hbmTagFails 1).faultSheaf g.owner g.layer g.ordinal

/-- The scoring passes of a selecting layer are done: the choice is made (R196), RESCORED where the passes run whole. -/
def State.trySelect (s : State) (f i ly : Nat) (r : StepRun) (x : Session) (l : Layout) : State :=
  match s.planEntry? f i with
  | none => s
  | some e =>
    let tiles := tilesOf (s.scoringSource e x l ly)
    let rows := e.rowCount l
    if e.sourceKnown x ly || !e.allRows l ly then s
    else if tiles.all fun t => (List.range (chunkCount rows t.2.length)).all fun c => e.passes.contains (ly, t.1, c, true) then
      let kept := s.loftsKept r.plan.step i ly e
      let s1 := s.modPlanEntry f i fun e => { e with selected := e.selected ++ [(ly, kept)] }
      (if kept then s1 else s1.bumpPen (handlePen e.handle) .rescored 1).deliver f i ly
    else s

/-- A loft that a layer's attending passes were to reuse no longer holds its scores: they run whole (R198). -/
def State.rescore (s : State) (f i ly : Nat) (e : PlanEntry) : State :=
  (s.modPlanEntry f i fun e =>
    { e with selected := e.selected.map fun q => if q.1 = ly then (ly, false) else q,
             passes := e.passes.filter fun q => q.1 != ly || q.2.2.2 }).bumpPen (handlePen e.handle) .rescored 1

/-- A pass that the ox can end next: its tile, the sheaf count by which the rows are cut, the chunk, whether it scores, and its
ox. -/
structure PassTurn where
  sheaves : List Sheaf
  cut : Nat
  chunk : Nat
  scoring : Bool
  ox : Nat
  deriving DecidableEq, Repr

/-- The next pass over a tile of an entry's layer, if one can run (R170, R196, R198). -/
def State.passTurn (s : State) (e : PlanEntry) (x : Session) (l : Layout) (ly tile : Nat) : Option PassTurn :=
  let rows := e.rowCount l
  let scoring := !e.sourceKnown x ly
  let tiles : List (Nat × List Sheaf × Nat) :=
    if !scoring then s.attendTiles e x l ly
    else if e.allRows l ly then (tilesOf (s.scoringSource e x l ly)).map fun t => (t.1, t.2, t.2.length)
    else []
  (tiles.find? fun t => t.1 == tile).bind fun t =>
    (e.nextChunk ly tile t.2.2 rows scoring).bind fun c =>
      ((if scoring || !e.reuses ly then s.pickOx else e.scoringOx ly tile c)).map fun o =>
        { sheaves := t.2.1, cut := t.2.2, chunk := c, scoring := scoring, ox := o }

/-- OX_PASS_DONE (R171): the next pass over a tile of an entry's layer completes; rows whose passes are all done are
delivered. Every sheaf of the tile is in this device's T1 (R16). A pass of an entry that has sat out is counted, and its result
is discarded (R183). `failed` is the ordinal of a sheaf whose tag check fails (R185). -/
def execOxPassDone (f i ly tile : Nat) (failed : Option Nat) (s : State) : Out :=
  if 8 ≤ f then .fault .noSuchUnit
  else match s.run? f, s.planEntry? f i with
    | some r, some e =>
      (match s.sess? e.handle, s.layout? r.plan.layout with
      | some x, some l =>
        if l.layers ≤ ly then stutter s
        else
          match s.passTurn e x l ly tile with
          | none => stutter s
          | some t =>
            let reuse := !t.scoring && e.reuses ly
            if reuse && (assocGet t.ox s.recovery.lofts != some (r.plan.step, i, ly) || !s.recovery.oxen.contains t.ox) then
              .next (s.rescore f i ly e)
            else if !s.readyOxen.contains t.ox || t.sheaves.any fun g => (s.inT1 g).isNone then stutter s
            else
              let p := handlePen e.handle
              match failed with
              | some o =>
                (match t.sheaves.find? fun g => g.ordinal == o with
                | some g => .next (s.passTagFail p g)
                | none => stutter s)
              | none =>
                let s1 := s.recordPass f i ly tile t.chunk t.scoring t.ox r.plan.step p (chunkRows (e.rowCount l) t.cut t.chunk).2
                  ((t.sheaves.map (·.count)).sum)
                if e.sitOut.isSome then .next s1
                else if t.scoring then .next ((s1.trySelect f i ly r x l).tryEndStall f)
                else .next ((s1.deliver f i ly).tryEndStall f)
      | _, _ => stutter s)
    | _, _ => stutter s

/-! ### Appends (R265) -/

/-- The APPEND is discarded (R265). -/
def appendBad (r : StepRun) (l : Layout) (m : SlMsg) : Bool :=
  match r.plan.entries[msgField m 0 12]? with
  | none => true
  | some e =>
    let ly := msgField m 16 10
    let first := msgField m 32 27
    let n := msgField m 64 17
    let last := if e.kind = .decode then e.position + e.drafts.getD 0 + 1 else e.position + e.tokens
    decide (l.layers ≤ ly) || n == 0 || decide (first < e.position) || decide (last < first + n)
      || m.body.length != 16 + n * l.recordBytes l.nativeFormat
      || e.appends.any fun a => a.1 == ly && decide (first ≤ a.2.1) && decide (a.2.1 < first + n)

/-- The records of an APPEND. -/
def appendRecords (l : Layout) (m : SlMsg) : List (Nat × Nat × List Byte) :=
  let n := l.recordBytes l.nativeFormat
  (List.range (msgField m 64 17)).map fun i => (msgField m 16 10, msgField m 32 27 + i, (m.body.drop (16 + i * n)).take n)

/-- APPEND_DATA (R265): position records of a layer arrive. A one-token PREFILL of R455 discards them. -/
def execAppendData (p : Nat) (m : SlMsg) (s : State) : Out :=
  slReceive s p m 5 1 fun s =>
    stepMessage s p m fun s f _ r =>
      let s1 := s.countMsg f p 1 0
      (match s.layout? r.plan.layout, r.plan.entries[msgField m 0 12]? with
      | some l, some e =>
        if e.sitOut.isSome || e.oneToken then s1
        else if appendBad r l m then s1.bumpPort (.step p) .appendDiscards
        else s1.modPlanEntry f (msgField m 0 12) fun e => { e with appends := e.appends ++ appendRecords l m }
      | _, _ => s1.bumpPort (.step p) .appendDiscards).portsDone f

/-! ### Sampling (R230 to R235) -/

/-- One id of a row with its logit. -/
abbrev Choice := Nat × F32

/-- The lowest id with the largest logit. -/
def argmax : List Choice → Option Choice
  | [] => none
  | c :: cs => match argmax cs with
    | none => some c
    | some d => if f32Lt c.2 d.2 then some d else some c

/-- Larger first, ties to the lower id. -/
def Choice.le (a b : Choice) : Bool := f32Lt b.2 a.2 || (!f32Lt a.2 b.2 && decide (a.1 ≤ b.1))

/-- u of R233 for the token that will occupy position `n`. -/
def randomValue (seed : BitVec 64) (n : Nat) : F32 :=
  f32Round false (bytesToNat ((sha256 (natToBytes 8 seed.toNat ++ natToBytes 8 n)).take 3)) (2 ^ 24)

/-- The sum of a list, left to right (R234). -/
def sumLeft (l : List F32) : F32 := l.foldl f32Add 0

/-- The shortest prefix whose running sum reaches `t`, and at least one (R234). -/
def keepTo (t : F32) : F32 → List (Nat × F32) → List (Nat × F32)
  | _, [] => []
  | c, x :: xs => let d := f32Add c x.2; if f32Lt d t then x :: keepTo t d xs else [x]

/-- The first id whose running sum is above the target, else the last. -/
def walk (target : F32) : F32 → List (Nat × F32) → Nat
  | _, [] => 0
  | _, [x] => x.1
  | c, x :: y :: xs => let d := f32Add c x.2; if f32Lt target d then x.1 else walk target d (y :: xs)

/-- The draw of R234 over the listed choices. -/
def drawFrom (sm : Sampler) (n : Nat) (list : List Choice) : Nat :=
  match list with
  | [] => 0
  | c :: _ =>
    let ps := list.map fun x => (x.1, f32Exp (f32Sub x.2 c.2))
    let topP := decodeF16 sm.topP.toNat
    let kept := if f32Lt topP 0x3F800000 then keepTo (f32Mul topP (sumLeft (ps.map (·.2)))) 0 ps else ps
    walk (f32Mul (randomValue sm.seed n) (sumLeft (kept.map (·.2)))) 0 kept

/-- sample() of R234 over the ids left by R232. -/
def sample (sm : Sampler) (n : Nat) (c : List Choice) : Nat :=
  let best := ((argmax c).map (·.1)).getD 0
  if bitsOf sm.temperature.toNat 0 31 = 0 then best
  else
    let z := c.map fun x => (x.1, f32Div x.2 sm.temperature)
    match z.find? fun x => x.2 == f32Inf false with
    | some x => x.1
    | none =>
      if z.all fun x => x.2 == f32Inf true then best
      else
        let sorted := sortBy Choice.le z
        drawFrom sm n (if 0 < sm.topK then sorted.take sm.topK else sorted)

/-- The row `i` of a LOGITS body with `d` drafts. -/
def logitsRow (l : Layout) (body : List Byte) (d i : Nat) : List Byte :=
  (body.drop (16 + 4 * d + i * (4 * l.vocabSize))).take (4 * l.vocabSize)

/-- What one row gives: the allowed ids after R232, the id that a +∞ decides, and whether the row is non-finite. -/
def rowChoices (l : Layout) (a : Automaton) (set : Option ConstraintSet) (flags : Bool × Bool) (row : List Byte) :
    List Choice × Option Nat × Bool :=
  let all := (List.range l.vocabSize).map fun i => (i, (BitVec.ofNat 32 (bytesAt row (4 * i) 4) : F32))
  let allowed := all.filter fun c => allowedId l a set flags c.1
  let kept := allowed.filter fun c => !f32IsNan c.2 && c.2 != f32Inf true
  let inf := kept.find? fun c => c.2 == f32Inf false
  (kept, inf.map (·.1), inf.isSome || allowed.any fun c => f32IsNan c.2)

/-- What verify() finds: the tokens, the drafts accepted, the position of the row of a dead end, the park, and the rows
counted under R232. -/
structure Verdict where
  tokens : List Nat
  accepted : Nat
  deadEnd : Option Nat := none
  park : Option ParkCause := none
  nonfinite : Nat := 0
  deriving DecidableEq, Repr

/-- on_empty of R230 at row `i`. -/
def onEmpty (l : Layout) (sm : Sampler) (pos i : Nat) (drafts : List Nat) (bad : Nat) : Verdict :=
  match (if sm.deadEndStop then none else l.control? kDeadEnd) with
  | some id => { tokens := drafts.take i ++ [id], accepted := i, deadEnd := some (pos + i), park := some .deadEnd,
                 nonfinite := bad }
  | none => { tokens := drafts.take i, accepted := i, deadEnd := some (pos + i),
              park := some (if sm.deadEndStop then .stop else .deadEnd), nonfinite := bad }

/-- The step chooses a token: not a dead end that ends without one (R217, R230). -/
def Verdict.chose (v : Verdict) : Bool := v.deadEnd.isNone || decide (v.accepted < v.tokens.length)

/-- verify() of R235 from row `i`: `left` drafts remain. -/
def verify (l : Layout) (sm : Sampler) (set : Option ConstraintSet) (pos : Nat) (drafts : List Nat) (body : List Byte) :
    Nat → Nat → Nat → Automaton → Bool × Bool → Verdict
  | left, i, bad, a, flags =>
    let d := drafts.length
    let c := rowChoices l a set flags (logitsRow l body d i)
    let bad1 := bad + bitNat c.2.2
    if c.1.isEmpty then onEmpty l sm pos i drafts bad1
    else
      let t := match c.2.1 with | some id => id | none => sample sm (pos + 1 + i) c.1
      let stop : Verdict := { tokens := drafts.take i ++ [t], accepted := i, park := parkOf l t, nonfinite := bad1 }
      match left with
      | 0 => stop
      | n + 1 =>
        if drafts[i]? != some t || (parkOf l t).isSome then stop
        else verify l sm set pos drafts body n (i + 1) bad1 (a.advance set true t) (flagsAfter l flags t)

/-- The LOGITS message is discarded for its entry (R231, R266). -/
def logitsBad (l : Layout) (x : Session) (e : PlanEntry) (m : SlMsg) : Bool :=
  let d := msgField m 16 4
  !e.owesRows x || decide (e.draftMax < d) || (match e.drafts with | some g => g != d | none => e.kind == .decode && d != 0)
    || e.verdict.isSome || m.body.length != 16 + 4 * d + (1 + d) * (4 * l.vocabSize)

/-- Whether the session leaves the step parked (Table 10.9 PARKS): its verdict parks it and no input is pending that keeps it
RUNNABLE (01 R27), or its history is full. -/
def State.leavesParked (s : State) (h : Handle) (v : Verdict) : Bool :=
  match s.sess? h with
  | none => v.park.isSome
  | some x =>
    let input := x.region.waiting.any fun g => g.recs.any fun r => r.kind == kTokens && !r.sampled
    decide (2 ^ 27 ≤ x.positions + v.tokens.length) || (v.park.isSome && x.region.unplaced.isEmpty && !input)

/-- CHOSEN (R267, Table 10.9). -/
def chosenBody (i : Nat) (v : Verdict) (parks : Bool) : List Byte :=
  let none_ := !v.chose
  packBytes 16 [(12, i), (4, v.accepted), (1, bitNat none_), (1, bitNat parks), (14, 0),
    (32, if none_ then 0xFFFFFFFF else (v.tokens.getLast?).getD 0), (64, 0)]

/-- The Weaver verifies an entry's rows (R235) and tells the flock (R267). -/
def State.weave (s : State) (f i : Nat) (ports : List Nat) (step : Nat) (l : Layout) (x : Session) (e : PlanEntry)
    (m : SlMsg) : State :=
  let d := msgField m 16 4
  let drafts := (List.range d).map fun j => bytesAt m.body (16 + 4 * j) 4
  let p := handlePen e.handle
  let pos := e.position + (if e.kind = .decode then 0 else e.tokens - 1)
  let v := verify l x.sampler (s.setOf e.handle x) pos drafts m.body d 0 0 x.automaton (x.inThink, x.inToolCall)
  let s1 := s.modPlanEntry f i fun e => { e with verdict := some (v.tokens, v.accepted, v.deadEnd, v.park) }
  let s2 := ((s1.bumpPen p .draftsOffered d).bumpPen p .draftsAccepted v.accepted).bumpPen p .nonfiniteLogits v.nonfinite
  let s3 := if v.deadEnd.isNone then s2 else if v.chose then s2.bumpPen p .deadEnds 1 else s2.bumpPen p .stops 1
  s3.slSendAll ports 3 7 1 step (chosenBody i v (s3.leavesParked e.handle v))

/-- ROWS (R231): a LOGITS message arrives. One that names no entry of the plan is of no pen and counts in pen 0x000's record (the
model's choice). -/
def execRows (p : Nat) (m : SlMsg) (s : State) : Out :=
  slReceive s p m 6 1 fun s =>
    stepMessage s p m fun s f k r =>
      let s1 := s.countMsg f p 0 1
      let i := msgField m 0 12
      (match (if m.body.length < 16 then none else r.plan.entries[i]?), s.layout? r.plan.layout with
      | some e, some l =>
        (match s.sess? e.handle with
        | none => s1
        | some x =>
          if e.sitOut.isSome then s1
          else if logitsBad l x e m then s1.bumpPen (handlePen e.handle) .logitsDiscards 1
          else s1.weave f i k.ports r.plan.step l x e m)
      | _, _ => s1.bumpPen 0 .logitsDiscards 1).portsDone f

/-! ### The end of a port's work (R268) -/

/-- STEP_DONE (R231, R268). -/
def execStepDone (p : Nat) (m : SlMsg) (s : State) : Out :=
  slReceive s p m 8 1 fun s =>
    stepMessage s p m fun s f _ _ =>
      (s.modRun f fun r =>
        { r with stepDone := (r.stepDone.filter fun d => d.1 != p) ++ [(p, msgField m 0 32, msgField m 32 16)] }).portsDone f

/-! ### Bring-up (R253, R254) -/

/-- STEP_LINK_HELLO (R253, R248): checked, or the port stays LINKED; on a port past Hello a link reset. -/
def execStepLinkHello (p : Nat) (m : SlMsg) (grants : List Nat) (s : State) : Out :=
  slReceive s p m 9 1 fun s =>
    let q := s.stepPort p
    if q.helloSeen then .next (s.linkReset (.step p))
    else if msgField m 40 8 != 1 then .next (((s.bumpPort (.step p) .protoErrors).awaitHello (.step p)).raise 0 0x0503 p 2)
    else if msgField m 48 1 != 1 then .next (((s.bumpPort (.step p) .protoErrors).awaitHello (.step p)).raise 0 0x0503 p 3)
    else if (List.range 4).any fun v => decide (grants.getD v 0 < (partnerGrants (.step p)).getD v 0) then
      .next ((s.awaitHello (.step p)).raise 0 0x0503 p 1)
    else
      .next ((s.modStepPort p fun q =>
        { q with helloSeen := true, refused := false, grants := grants, since := s.clock.now,
                 flits := { q.flits with totals := grants.map fun g => g % 65536 } }).pumpPort (.step p))

/-- SLOT_TABLE (R253). -/
def execSlotTable (p : Nat) (m : SlMsg) (s : State) : Out :=
  slReceive s p m 9 2 fun s =>
    if !(s.stepPort p).helloSeen || (s.stepPort p).slots.isSome then .next s
    else
      let s1 := s.modStepPort p fun q =>
        { q with slots := some (msgField m 0 32, msgField m 32 32, BitVec.ofNat 16 (msgField m 64 10), msgField m 80 4),
                 since := s.clock.now }
      match s1.flockOf p with
      | some (f, _) => .next (s1.tryJoin f)
      | none => .next s1

/-- A stopped flock plans again (R259): every port is UP, and none owes a RESYNC_DONE. -/
def State.tryResume (s : State) (f : Nat) : State :=
  match assocGet f s.flocks with
  | none => s
  | some k =>
    if k.stopped && k.resync.isEmpty && s.flockUp k then
      ((s.clearLeases f).modFlock f fun k => { k with stopped := false }).raise 0 0x0502 f 0
    else s

/-- READY (R253): the port is UP. -/
def execReady (p : Nat) (m : SlMsg) (s : State) : Out :=
  slReceive s p m 9 4 fun s =>
    if !(s.stepPort p).joinSent then .next s
    else
      let s1 := s.modStepPort p fun q =>
        { q with state := if q.state = .retrain then q.state else .up, saved := .up, joined := true, joinSent := false,
                 resets := 0 }
      match s1.flockOf p with
      | some (f, _) => .next ((s1.tryResume f).deliverPlan f)
      | none => .next s1

/-- RESYNC_DONE (R259). -/
def execResyncDone (p : Nat) (m : SlMsg) (s : State) : Out :=
  slReceive s p m 9 6 fun s =>
    match s.flockOf p with
    | none => .next s
    | some (f, _) =>
      .next ((s.modFlock f fun k => { k with resync := k.resync.filter fun r => r.1 != p }).tryResume f)

/-- RESYNC_TIMEOUT (R259): a port that has not answered RESYNC takes a link reset. -/
def execResyncTimeout (p : Nat) (s : State) : Out :=
  if 8 ≤ p then .fault .noSuchUnit
  else match (s.flockOf p).bind fun f => assocGet p f.2.resync with
    | none => stutter s
    | some t => .next ((s.at_ (t + 2 ^ 20)).linkReset (.step p))

/-- STEP_LINK_ERROR (R268): counted and passed on. -/
def execStepLinkError (p : Nat) (m : SlMsg) (s : State) : Out :=
  slReceive s p m 9 7 fun s => .next ((s.bumpPort (.step p) .errorsReported).raise 0 0x0505 p (msgField m 0 64))

end Sys2Proof.Machine
end

