-- ==== Sys2Proof/Machine/Registry.lean ====
section
/-!
DEFINITION. The registry and ownership handoff (11_commons_fabric R290 to R302): the operations of Table 11.8 at the
registry node, and a handoff at its source and at its destination.
-/
namespace Sys2Proof.Machine

/-! ### Notices (Table 11.8, OP 0x27) -/

/-- Kinds of NOTICE. -/
def nHomeChanged : Nat := 1
def nRestarted : Nat := 2
def nHandoffAsk : Nat := 3

/-- The body of a NOTICE: kind and handle, then what the kind adds. -/
def noticeBody (kind : Nat) (h : Handle) (rest : List Byte) : List Byte :=
  natToBytes 8 kind ++ natToBytes 8 h.toNat ++ rest

/-! ### The source of a handoff (R291) -/

/-- A session that may run during its handover: its tails go under Table 6.7. -/
def Session.mayRun (x : Session) : Bool := x.state == .runnable || x.state == .running

/-- The bytes a handoff of the session needs: its own, and where it may run what two steps can add: the positions whose
tokens it holds, the step's choices, and the entries and records they open (DESIGN CHOICE). -/
def State.handoffNeed (s : State) (h : Handle) (x : Session) : Nat :=
  let n := (x.handoffBytes h).length
  match s.layout? x.layout with
  | some l => if x.mayRun then
      n + 65536 + (x.positions - x.kvPositions + 64) * l.layers * l.recordBytes l.nativeFormat + 128 * l.layers else n
  | none => n

/-- HANDOFF_ASK with the bytes needed and the pen (R291). -/
def askBody (h : Handle) (bytes : Nat) : List Byte :=
  noticeBody nHandoffAsk h (natToBytes 8 bytes ++ natToBytes 8 (handlePen h))

/-- A handoff of session `h` to node `d` begins: HANDOFF_ASK. The map in force names the node (01 R30). -/
def State.startHandoff (s : State) (h : Handle) (d : Nat) : State :=
  match s.sess? h with
  | none => s
  | some x =>
    if x.handover.isSome || x.closing || s.isOwn d || !s.mapNames d then s
    else
      let n := s.handoffNeed h x
      let s1 := s.modSess h fun x => { x with moving := true, handover := some { dest := BitVec.ofNat 13 d, bytes := n } }
      s1.request d 0x27 0 (askBody h n) (.ask h)

/-- The handoff stops before or without a committed offer. -/
def State.stopHandoff (s : State) (h : Handle) : State := s.offerWithdrawn h

/-- The offer stands (R291): the sealed sheaves go, and of a session that is not to run all the rest (Table 6.7). -/
def State.sendSession (s : State) (h : Handle) : State :=
  match s.sess? h with
  | none => s
  | some x =>
    let b := x.sealedBelow
    let front := (x.frontSheaves b).flatMap (·.payload)
    let s1 := s.modSess h fun x => { x with handover := x.handover.map fun hd =>
      { hd with offered := true, below := b, front := front.length } }
    (s1.sendHandoff h front).handoverStep h

/-- A handoff asked for goes on: its session has neither closed nor faulted meanwhile (R294). -/
def State.mayOffer (s : State) (h : Handle) : Bool :=
  match s.sess? h with
  | some x => x.handover.isSome && x.state != .faulted && x.state != .closed
  | none => false

/-- The registry named another home: the source's copy goes, at the boundary when the session is RUNNING (R154, R291). -/
def State.homeLeft (s : State) (h : Handle) (dest version : Nat) : State :=
  match s.sess? h with
  | none => s
  | some x =>
    if x.state = .running then
      s.modSess h fun x => { x with handover := x.handover.map fun hd => { hd with committed := true } }
    else s.freeHanded h dest version

/-- A session that this device homes and cannot plan: on a LYS4160-PC, or where no enabled flock serves its layout
(R302). -/
def State.cannotPlan (s : State) (x : Session) : Bool :=
  s.ident.pc || !s.flocks.any fun f => f.2.params.enable && f.2.params.layout == x.layout && f.2.destroying.isNone

/-- The grant under which a session is homed here is being withdrawn (R301). -/
def State.grantLeaving (s : State) (h : Handle) (x : Session) : Bool :=
  match x.handedFrom with
  | none => false
  | some n => x.localPen.isSome && s.commons.map.any fun r => r.kind == 2 && r.node == n && r.bit 7
      && bitsOf (bytesToNat r.raw) 24 10 == handlePen h

/-- R302 and R301: a RUNNABLE session that cannot be planned, and a session under a leaving grant, is handed at once to the
node that last handed it in. -/
def State.handBack (s : State) (h : Handle) : State :=
  match s.sess? h with
  | none => s
  | some x =>
    match x.handedFrom with
    | none => s
    | some n =>
      if (x.state = .runnable && s.cannotPlan x) || (s.grantLeaving h x && (x.state = .runnable || x.state = .parked
          || x.state = .opened)) then s.startHandoff h n.toNat
      else s

/-- Every session that R301 or R302 hands back. -/
def State.handBackAll (s : State) : State := s.sessions.foldl (fun t x => t.handBack x.1) s

/-! ### The destination of a handoff (R291) -/

/-- Change the incoming handoff of a session. -/
def State.modIncoming (s : State) (h : Handle) (g : Incoming → Incoming) : State :=
  { s with commons := { s.commons with incoming := s.commons.incoming.map fun i => if i.handle = h then g i else i } }

/-- The staging space of a counter: windows of 2^36 bytes (R282). -/
def stagingBase (counter : Nat) : Nat := counter * 2 ^ 36

/-- The staging space of a counter closes (R282). -/
def State.closeStaging (s : State) (counter : Nat) : State :=
  { s with commons := { s.commons with staging := s.commons.staging.filter fun c => c.1 / 2 ^ 36 != counter } }

/-- A received copy is freed: the reservation, the counter and the staging window (R291). -/
def State.dropIncoming (s : State) (h : Handle) : State :=
  match s.commons.incoming.find? fun i => i.handle == h with
  | none => s
  | some i =>
    let c := s.commons
    ({ s with commons := { c with incoming := c.incoming.filter (fun j => j.handle != h),
                                  arrivals := assocDel i.counter c.arrivals } }).closeStaging i.counter

/-- The GRANT record of the map in force for a node and pen. -/
def grantIn (map : List MapRec) (node pen : Nat) : Option MapRec :=
  map.find? fun r => r.kind == 2 && r.node.toNat == node && bitsOf (bytesToNat r.raw) 24 10 == pen

/-- LOCAL_PEN and LIMIT in bytes of a GRANT record (Table 11.10). -/
def MapRec.localPen (r : MapRec) : Nat := bitsOf (bytesToNat r.raw) 40 10
def MapRec.limit (r : MapRec) : Nat := 4096 * bitsOf (bytesToNat r.raw) 80 48

/-- Bytes held for a node's pen under its grant: extents, sessions homed under it and reservations. -/
def State.grantHeld (s : State) (node pen : Nat) : Nat :=
  ((s.commons.grants.filter fun g => g.node.toNat == node && g.pen == pen).map fun g => (g.extents.map (·.size)).sum).sum
    + ((s.sessions.filter fun x => x.2.localPen.isSome && x.2.handedFrom.map (·.toNat) == some node
        && handlePen x.1 == pen).map fun x => x.2.charge s x.1 .t1 + x.2.charge s x.1 .t2).sum
    + ((s.commons.incoming.filter fun i => i.source.toNat == node && handlePen i.handle == pen && i.localPen.isSome).map
        (·.bytes)).sum

/-- The tier that takes `n` bytes for a pen: HBM first, then flash. -/
def State.tierFor (s : State) (p n : Nat) : Option Tier :=
  if s.used p .t1 + n ≤ s.quota p .t1 then some .t1
  else if s.used p .t2 + n ≤ s.quota p .t2 then some .t2
  else none

/-- The lowest number that is not among `l`. -/
def freshNat : Nat → List Nat → Nat → Nat
  | 0, _, n => n
  | k + 1, l, n => if l.contains n then freshNat k l (n + 1) else n

/-- Reserve space for a handoff (R291): DENIED without a grant, QUOTA where it does not fit. A handoff of a session that
this device handed to the source comes back under its own quota. -/
def State.reserveIncoming (s : State) (src : Nat) (h : Handle) (bytes : Nat) : Except Nat (State × Incoming) :=
  let pen := handlePen h
  let s0 := s.dropIncoming h
  let grant := grantIn s.commons.map src pen
  -- a node that holds the registry entry naming `src`, or a pen of this number, takes back what it handed over
  let local? : Except Nat (Option Nat) := match grant with
    | some r => if !r.bit 4 then .error rsDenied else if r.bit 7 then .error rsQuota
        else if r.limit < s0.grantHeld src pen + bytes then .error rsQuota else .ok (some r.localPen)
    | none => if (s.pen? pen).isSome && s.commons.map.any (fun r => r.kind == 1 && r.node.toNat == src) then .ok none
        else .error rsDenied
  match local? with
  | .error e => .error e
  | .ok lp =>
    match s0.tierFor (lp.getD pen) bytes with
    | none => .error rsQuota
    | some t =>
      let used := s0.commons.incoming.map (·.counter)
      let c := freshNat used.length used 0
      let i : Incoming := { handle := h, source := BitVec.ofNat 13 src, pen := pen, bytes := bytes, counter := c,
                            offset := stagingBase c, tier := t, localPen := lp, asked := s.clock.now }
      .ok ({ s0 with commons := { s0.commons with
        incoming := s0.commons.incoming ++ [i], arrivals := assocSet c 0 s0.commons.arrivals } }, i)

/-- The bytes received of a handoff. -/
def State.incomingBytes (s : State) (i : Incoming) : List Byte := memReadBytes s.commons.staging i.offset i.bytes

/-- The session of an incoming handoff: the appends held of step k + 1 are written at this home (R42, Table 6.7). -/
def State.incomingSession (s : State) (i : Incoming) : Option (Handle × Session) :=
  match parseHandoff s.layout? (fun id => (s.pen? (i.localPen.getD i.pen)).bind fun q => assocGet id q.constraints)
      (s.incomingBytes i) with
  | none => none
  | some (h, x, held) =>
    match s.layout? x.layout with
    | none => none
    | some l => some (h, if held.isEmpty then x else x.land h l s.ident.nodeNumber (heldEntry h l held))

/-- The home of an owner of shared sheaves is learnt (02 R49); the belief with the highest version is kept (R293). -/
def State.learnHome (s : State) (h : Handle) (n : BitVec 13) (version : Nat) : State :=
  let newer := match assocGet h s.commons.homes with | some b => decide (b.2 ≤ version) | none => true
  if newer then { s with commons := { s.commons with homes := assocSet h (n, version) s.commons.homes } } else s

/-- Where the owners of a session's shared sheaves are homed is asked of their registry nodes (02 R49). -/
def State.learnOwners (s : State) (x : Session) : State :=
  let away := ((x.map.filter fun f => f.shared && (s.sess? f.owner).isNone).map (·.owner)).eraseDups
  (away.filter fun o => !s.regIsHere o).foldl (fun t o => t.regAway o 0x20 (natToBytes 8 o.toNat) (.owner o)) s

/-- This device is home of a session that came over, at `version` (R291): it is recorded with the node that handed it in
(R302). -/
def State.landIncoming (s : State) (h : Handle) (version : Nat) : State :=
  match s.commons.incoming.find? fun i => i.handle == h with
  | none => s
  | some i =>
    match s.incomingSession i with
    | none => s.dropIncoming h
    | some (_, x) =>
      -- an OPEN session's record and tails lie in T1 (02 R38)
      let placed := (s.dropIncoming h).placeSession h (if x.state = .opened then .t1 else i.tier) x
      let tier := placed.1.tier
      let y := { placed.1 with
        homeVersion := version, handedFrom := some i.source, localPen := i.localPen, flock := none, anchored := false,
        anchorFlock := none, handover := none, moving := false, readyCycle := s.clock.now, parkedSince := s.clock.now,
        captured := false, state := if x.state = .running then .runnable else x.state,
        region := { x.region with localStep := x.ledgerStep } }
      let s1 := placed.2
      let s2 := { s1 with sessions := assocSet h y s1.sessions }.bumpDev .handoffs 1
      -- the registry here says where the record is (02 R38); Table 11.8 conveys no TIER to one elsewhere
      let s3 := if tier = .t2 && s2.regIsHere h then (s2.modEntry h fun e => { e with flash := true }).mirrorEntry h else s2
      ((s3.learnOwners y).runnableSteps h).handBack h

/-! ### Groups in batches (12 R312) -/

/-- A session's committed groups, in LEDGER_STEP order: handle and records. -/
def groupsOf (h : Handle) (recs : List Rec) : List (Handle × List Rec) :=
  ((recs.map (·.step)).eraseDups).map fun n => (h, recs.filter fun r => r.step == n)

/-- A session's groups as items of RECORDS batches, and its header behind them. -/
def Session.mirrorItems (x : Session) (h : Handle) (above : Nat) : List (List Byte) :=
  match groupsOf h (x.region.recs.filter fun r => decide (above < r.step)) with
  | [] => []
  | gs => gs.map (fun g => groupItem g.1 g.2) ++ [(x.region.committed x.ledgerStep).headerItem h x.ledgerStep]

/-- Groups cut into batches of at most 8 MiB and 65,535 items; `cur` is the batch in progress, latest first, of `n`
bytes. -/
def cutBatches : List (List Byte) → List (List Byte) → Nat → List (List (List Byte))
  | [], cur, _ => if cur.isEmpty then [] else [cur.reverse]
  | g :: gs, cur, n =>
    if !cur.isEmpty && (decide (8388608 < n + g.length) || decide (65535 ≤ cur.length)) then
      cur.reverse :: cutBatches gs [g] g.length
    else cutBatches gs (g :: cur) (n + g.length)

/-- Send items to the partner in force in RECORDS batches. -/
def State.sendBatches (s : State) (d : Nat) (items : List (List Byte)) (use : ReqUse) : State :=
  (cutBatches items [] 0).foldl (fun t b =>
    let seq := t.partner.mirrorSeq + 1
    ({ t with partner := { t.partner with mirrorSeq := seq } }).request d 0x30 0 (mirrorHeader 1 b.length seq ++ b.flatten)
      use) s

/-! ### What a registry answer settles at the device that asked (R291 to R294) -/

/-- A change of LIFE is answered (Table 11.8): a session whose regrowth is complete leaves FAULTED once the registry names
this home LIVE (01 R23); after a CONFLICT the home follows the entry, and asks again while it is its own. -/
def State.lifeAnswered (s : State) (h : Handle) (life : Life) (status result : Nat) (entry : Option RegEntry) : State :=
  let done (t : State) : State := match t.sess? h with
    | some x => if life = .live && x.rehoming then t.finishRegrowth h else t
    | none => t
  if status = rsOk then
    (if life = .live then done (s.modSess h fun x => { x with homeVersion := result }) else s)
  else if status = rsConflict then
    match entry with
    | some e =>
      if !s.isOwn e.home.toNat then s.homeLeft h e.home.toNat e.locVersion
      else
        let s1 := s.modSess h fun x => { x with homeVersion := e.locVersion }
        if e.life = life then done s1
        else if (s1.sess? h).map (·.state) = some .faulted then (s1.regLife h life).1
        else s1
    | none => s
  else s

/-- A registry operation that this device asked for is answered: OK with its RESULT, or not, with the entry. -/
def State.settleReg (s : State) (use : ReqUse) (op status result : Nat) (entry : Option RegEntry) : State :=
  let follow (s : State) (h : Handle) : State := match entry with
    | some e => if s.isOwn e.home.toNat then s.offerWithdrawn h else s.homeLeft h e.home.toNat e.locVersion
    | none => s
  let s0 := if status = rsConflict then s.bumpDev .conflicts 1 else s
  match use with
  | .life h life => s0.lifeAnswered h life status result entry
  | .owner h => (match entry with | some e => s0.learnHome h e.home e.locVersion | none => s0)
  | .offer h =>
    if op = 0x21 then (if status != rsOk then s0.stopHandoff h else if s0.mayOffer h then s0.sendSession h else s0.withdrawOffer h)
    else if status = rsOk then s0.offerWithdrawn h
    else if status = rsConflict then follow s0 h
    else s0
  | .commit h =>
    if status = rsOk then s0.landIncoming h result
    else if status = rsConflict then (match entry with
      | some e => if s.isOwn e.home.toNat then s0.landIncoming h e.locVersion else s0.dropIncoming h
      | none => s0.dropIncoming h)
    else s0
  | .registry h =>
    if (s.commons.incoming.any fun i => i.handle == h && i.committing) then
      -- the REG_READ of a destination whose REG_COMMIT stayed unanswered: the entry decides (Table 11.9)
      (match entry with
      | some e => if s.isOwn e.home.toNat then s0.landIncoming h e.locVersion
          else if e.offerValid && s.isOwn e.offerNode.toNat then s0 else s0.dropIncoming h
      | none => s0.dropIncoming h)
    else
    -- the REG_READ of R291: an entry that names this device with the offer open leads to REG_WITHDRAW
    (match entry with
    | some e => if op = 0x20 then
        (if s.isOwn e.home.toNat then (if e.offerValid then s0.withdrawOffer h else s0.offerWithdrawn h)
        else s0.homeLeft h e.home.toNat e.locVersion) else s0
    | none => s0)
  | _ => s0

/-! ### The registry node (R289, R290, Table 11.8) -/

/-- The answer to a registry operation goes to whoever asked. -/
def State.answerReg (s : State) (o : RegOrigin) (op status result : Nat) (entry : Option RegEntry) : State :=
  match o with
  | .remote hdr => s.respond hdr status 0 result (match entry with | some e => e.bytes | none => [])
  | .here use => s.settleReg use op status result entry

/-- A changed entry takes effect at the registry, and is answered (R290): HOME_CHANGED goes to the old home; the index of a
closed session is free for reissue once its map is freed: at its home here, or by the home's second REG_RETIRE (02 R52). -/
def State.applyReg (s : State) (o : RegOrigin) (op : Nat) (old e : RegEntry) (result : Nat) : State :=
  let h := e.handle
  let s1 := s.modEntry h fun _ => e
  let s2 := if op = 0x22 then
      (if s1.isOwn old.home.toNat then s1.homeLeft h e.home.toNat e.locVersion
      else s1.request old.home.toNat 0x27 0 (noticeBody nHomeChanged h (natToBytes 8 e.locVersion)) .notice)
    else if op = 0x25 && (old.life == .closed || (s1.isOwn e.home.toNat && (s1.sess? h).isNone)) then s1.freeIndex h
    else s1
  s2.answerReg o op rsOk result none

/-- A registry operation at the registry node (R290): refused at once, or applied once the partner holds the entry; one
behind another on the same entry waits for it. -/
def State.tryReg (s : State) (q : RegPending) : State :=
  match s.entry? q.handle with
  | none => s.answerReg q.origin q.op rsConflict 0 none
  | some e =>
    let src := match q.origin with
      | .remote hdr => hdrField hdr 32 13
      | .here _ => if s.isOwn e.home.toNat && q.op != 0x22 then e.home.toNat else s.node
    match e.change q.op src s.clock.now q.handle q.body with
    | .error st => s.answerReg q.origin q.op st 0 (some e)
    | .ok (e1, res) =>
      match s.mirroredTo with
      | none => (s.applyReg q.origin q.op e e1 res).oweEntry q.handle
      | some d =>
        ({ s with commons := { s.commons with regPending := s.commons.regPending ++ [{ q with change := some e1 }] } }).request
          d 0x28 0 e1.bytes (.regMirror q.id)

/-- A registry operation reaches this device. -/
def State.submitReg (s : State) (h : Handle) (op : Nat) (body : List Byte) (o : RegOrigin) : State :=
  let q : RegPending := { id := s.commons.nextReg, handle := h, op := op, body := body, origin := o }
  let s1 := { s with commons := { s.commons with nextReg := s.commons.nextReg + 1 } }
  if s1.commons.regPending.any fun p => p.handle == h then
    { s1 with commons := { s1.commons with regPending := s1.commons.regPending ++ [q] } }
  else s1.tryReg q

/-- The partner holds a changed entry: the change takes effect, and the operations behind it follow (R290). -/
def State.regMirrored (s : State) (id : Nat) : State :=
  match s.commons.regPending.find? fun q => q.id == id with
  | none => s
  | some q =>
    let rest := s.commons.regPending.filter fun p => p.id != id
    let s1 := { s with commons := { s.commons with regPending := rest } }
    let s2 := match q.change, s1.entry? q.handle with
      | some e1, some e =>
        (s1.applyReg q.origin q.op e e1 (match q.op with | 0x22 | 0x24 => e1.locVersion | _ => 0)).oweEntry q.handle
      | _, _ => s1
    match rest.find? fun p => p.handle == q.handle && p.change.isNone with
    | none => s2
    | some n => ({ s2 with commons := { s2.commons with
        regPending := s2.commons.regPending.filter fun p => p.id != n.id } }).tryReg n

/-- The registry operation of a unit of this device: inside when the registry is here, else as a request (Table 11.8); a device that its
partner answers for asks the partner (R297). -/
def State.regCall (s : State) (h : Handle) (op : Nat) (body : List Byte) (use : ReqUse) : State :=
  if s.regIsHere h then
    (if op = 0x20 then s.settleReg use op rsOk 0 (s.entry? h) else s.submitReg h op body (.here use))
  else s.regAway h op body use

/-- REG_COMMIT of a session that has landed whole (R291). -/
def State.commitHandoff (s : State) (h : Handle) : State :=
  match (s.commons.incoming.find? fun i => i.handle == h).bind s.incomingSession with
  | none => s.dropIncoming h
  | some (_, x) => s.regCall h 0x22 (natToBytes 8 h.toNat ++ natToBytes 8 x.homeVersion) (.commit h)

/-- All data of a handoff has landed: the session's groups go to the own partner, then REG_COMMIT (R291, R316). -/
def State.commitIncoming (s : State) (i : Incoming) : State :=
  let s1 := s.modIncoming i.handle fun i => { i with committing := true }
  match s1.incomingSession i with
  | none => s1.dropIncoming i.handle
  | some (h, x) =>
    match s1.mirroredTo with
    | some d => s1.sendBatches d (x.mirrorItems h 0) (.incoming h)
    | none => s1.commitHandoff h

/-- A WRITE that names a counter has been applied (R288): an incoming handoff that is complete commits. -/
def State.counted (s : State) (counter : Nat) (data : List Byte) : State :=
  let n := tallyGet s.commons.arrivals counter + data.length
  let s1 := { s with commons := { s.commons with arrivals := assocSet counter n s.commons.arrivals } }
  match s1.commons.incoming.find? fun i => i.counter == counter with
  | none => s1
  | some i =>
    if n = i.bytes && !i.committing then s1.commitIncoming i
    else s1

end Sys2Proof.Machine
end

