-- ==== Sys2Proof/Machine/Packets.lean ====
section
/-!
DEFINITION. Receiving on the Commons (11_commons_fabric R272, R276 to R279, R282 to R289, R295 to R303): the HELLO of a
port, packets, memory requests, and the services this device gives other nodes.
-/
namespace Sys2Proof.Machine

/-! ### HELLO (R276) -/

/-- A Commons HELLO is refused. -/
def State.refuseHello (s : State) (p : Nat) : State :=
  ((s.bumpPort (.commons p) .protoErrors).awaitHello (.commons p)).raise 0 0x0601 p 0

/-- COMMONS_HELLO (R276, Table 11.2): the port becomes UP. -/
def execCommonsHello (p : Nat) (m : SlMsg) (s : State) : Out :=
  if 18 ≤ p then .fault .noSuchUnit
  else
    let k := Link.commons p
    let q := s.port k
    if !q.carries then stutter s
    else if msgCls m != 9 || msgOp m != 1 || m.vc != 0 || msgLen m != m.body.length || m.body.length != 16 then
      .next ((if bitsOf m.header.toNat 16 16 != 0 then s.bumpPort k .rsvdNonzero else s).bumpPort k .msgDiscards)
    else
      let s := if bitsOf m.header.toNat 16 16 != 0 || bitOf (bytesToNat m.body) 50 then s.bumpPort k .rsvdNonzero else s
      let role := msgField m 48 2
      let node := msgField m 51 13
      if q.helloSeen then .next (s.linkReset k)
      else if msgField m 40 8 != 1 || role == 3 then .next (s.refuseHello p)
      else if (role == 0 || role == 1) && node == s.node then .next ((s.refuseHello p).raise 0 0x0602 node p)
      else
        let clash := (role == 0 || role == 1) && s.harvest.aliases.any fun a => a.1.toNat == node
        let s1 := if clash then s.raise 0 0x0602 node 0xFF else s
        let s2 := s1.modPort k fun q =>
          { q with helloSeen := true, refused := false, state := if q.state = .retrain then q.state else .up,
                   saved := if q.state = .retrain then .up else q.saved, since := s.clock.now,
                   peer := if role = 2 then none else some (BitVec.ofNat 13 node) }
        .next ((s2.pumpPort k).joinRoute)

/-! ### Packets (R272, R277 to R279, R285) -/

/-- An operation of Table 11.4. -/
def opKnown (op : Nat) : Bool :=
  opMemory op || op == 0x10 || op == 0x11 || (decide (0x20 ≤ op) && decide (op ≤ 0x28)) || op == 0x30
    || (decide (0x40 ≤ op) && decide (op ≤ 0x44)) || op == 0x80

/-- Reserved fields of a packet header (Table 11.3): first bit and width. -/
def packetReserved (h : BitVec 512) : List (Nat × Nat) :=
  [(9, 7), (29, 3), (45, 3), (58, 6), (112, 16), (224, 32), (448, 64)] ++ if hdrField h 8 1 = 1 then [(48, 10)] else []

/-- Reserved fields of the body header of an operation (Tables 7.6, 11.5, 11.6 and 12.3, R303): first bit and width. -/
def bodyHeaderReserved (op : Nat) : List (Nat × Nat) :=
  if op = 2 then [(96, 32)]
  else if op = 3 then [(72, 56)]
  else if op = 4 then [(96, 32), (176, 16)]
  else if op = 0x10 then [(140, 4), (155, 5), (169, 7), (186, 6), (204, 4), (217, 7), (315, 5), (337, 15), (411, 5), (437, 75)]
  else if op = 0x11 then [(192, 128)]
  else if op = 0x30 then [(4, 12), (32, 32)]
  else if op = 0x80 then [(8, 8), (32, 32), (112, 16), (192, 64)]
  else []

/-- A reserved field of a packet's headers is not zero (00 R13). -/
def pktRsvd (p : Pkt) : Bool :=
  (packetReserved p.header).any (fun r => hdrField p.header r.1 r.2 != 0)
    || (bodyHeaderReserved (hdrField p.header 0 8)).any fun r => bitsOf (bytesToNat (p.body.take 64)) r.1 r.2 != 0

/-- The stream of a source. -/
def State.inStream (s : State) (n : Nat) : InStream := (assocGet n s.commons.ins).getD { incarnation := 0 }

/-- Change the stream of a source. -/
def State.modStream (s : State) (n : Nat) (g : InStream → InStream) : State :=
  { s with commons := { s.commons with ins := assocSet n (g (s.inStream n)) s.commons.ins } }

/-- A packet with a failed tag (R278). -/
def State.tagFailed (s : State) (src : Nat) : State :=
  let n := (s.inStream src).tagFails + 1
  let s1 := (s.bumpDev .tagFails 1).modStream src fun i => { i with tagFails := if 8 ≤ n then 0 else n }
  if 8 ≤ n then s1.raise 0 0x0603 src 0 else s1

/-- A registry node that sees a higher incarnation of a node sends it the sessions it is home of (R295). -/
def State.sendRegrow (s : State) (src : Nat) : State :=
  let slices := (if s.partner.deposed then [] else [s.slice]) ++ s.harvest.aliases.map (·.2)
    ++ if s.partner.standIn then s.partner.slices.map (·.2) else []
  let hs := slices.flatMap fun sl => (sl.entries.filter fun e => e.2.life == .live && e.2.home.toNat == src).map
    fun e => e.2.handle
  if hs.isEmpty then s else s.request src 0x26 0 (hs.flatMap fun h => natToBytes 8 h.toNat) .notice

/-- The stream of a source whose incarnation is higher than the highest seen begins anew (R285, 12 Table 12.3). -/
def State.newIncarnation (s : State) (src inc : Nat) : State :=
  let known := assocHas src s.commons.ins && decide ((s.inStream src).incarnation ≠ 0)
  let s1 := s.modStream src fun _ => { incarnation := BitVec.ofNat 32 inc }
  let s2 := if s.partner.node.map (·.toNat) = some src then
      { s1 with partner := { s1.partner with applied := 0, heldBatches := [] } } else s1
  if known then s2.sendRegrow src else s2

/-- A packet reaches the endpoint: `mine` tells whether it is the command's own operation, `body` takes it once it is
accepted. -/
def pktReceive (s : State) (p : Pkt) (mine : Bool) (body : State → Out) : Out :=
  if 18 ≤ p.port then .fault .noSuchUnit
  else
    let h := p.header
    let op := hdrField h 0 8
    let src := hdrField h 32 13
    if (s.port (.commons p.port)).state != .up then stutter s
    else if hdrField h 192 32 != p.body.length || decide (8392704 < p.body.length) || !opKnown op || p.vc != opVc op then
      -- R13 holds of the header of a discarded packet too (R279)
      .next ((if (packetReserved h).any fun r => hdrField h r.1 r.2 != 0 then s.bumpPort (.commons p.port) .rsvdNonzero
        else s).bumpDev .msgDiscards 1)
    else if !mine then stutter s
    else
      let s := if pktRsvd p then s.bumpPort (.commons p.port) .rsvdNonzero else s
      if !s.isOwn (hdrField h 16 13) || s.isOwn src then .next (s.bumpDev .misrouted 1)
      else if !p.tagOk then .next (s.tagFailed src)
      else
        let inc := hdrField h 128 32
        let cur := (s.inStream src).incarnation.toNat
        if inc < cur then .next (s.bumpDev .oldIncarnation 1)
        else
          let s1 := if cur < inc then s.newIncarnation src inc else s
          let s2 := (s1.bumpDev .packetsRx 1).modStream src fun i => { i with tagFails := 0 }
          let dst := hdrField h 160 32
          if op != 0x80 && (if dst = 0 then decide (1 < hdrField h 64 48) else dst != s.commons.incarnation.toNat) then
            .next (s2.respond h rsStale 0 s.commons.incarnation.toNat [])
          else body s2

/-- A request below the current epoch after the drain is answered EPOCH_STALE (R300). -/
def State.epochStale (s : State) (h : BitVec 512) : Bool :=
  decide (hdrField h 256 64 < s.commons.epoch) && s.commons.fenceEnd.isNone

/-- The map against which a request is checked (R300). -/
def State.mapFor (s : State) (h : BitVec 512) : List MapRec :=
  if hdrField h 256 64 < s.commons.epoch then s.commons.oldMap else s.commons.map

/-- The grant of a pen-scoped request (R282). -/
def State.grantOf (s : State) (h : BitVec 512) : Option MapRec := grantIn (s.mapFor h) (hdrField h 32 13) (hdrField h 48 10)

/-- `body` on a service request that is not below the epoch. -/
def serviceReceive (s : State) (p : Pkt) (mine : Bool) (body : State → Out) : Out :=
  pktReceive s p mine fun s =>
    if s.epochStale p.header then .next (s.respond p.header rsEpochStale 0 s.commons.epoch []) else body s

/-- The operation of a packet. -/
def pktOp (p : Pkt) : Nat := hdrField p.header 0 8

/-! ### Extents (R283) -/

/-- The grant store of a node's pen. -/
def State.grant? (s : State) (node pen : Nat) : Option Grant :=
  s.commons.grants.find? fun g => g.node.toNat == node && g.pen == pen

/-- Put back the grant store of a node's pen. -/
def State.setGrant (s : State) (g : Grant) : State :=
  let others := s.commons.grants.filter fun q => !(q.node == g.node && q.pen == g.pen)
  { s with commons := { s.commons with grants := others ++ [g] } }

/-- The extent that holds bytes `off` to `off + n − 1`. -/
def Grant.extent? (g : Grant) (off n : Nat) : Option Extent :=
  g.extents.find? fun e => decide (e.off ≤ off) && decide (off + n ≤ e.off + e.size)

/-- Where a new extent of `n` bytes goes: the lowest 4 KiB-aligned offset that is free. -/
def Grant.place (g : Grant) (n : Nat) : Option Nat :=
  let ends := 0 :: g.extents.map fun e => ceilDiv (e.off + e.size) 4096 * 4096
  let free (o : Nat) : Bool := decide (o + n ≤ 2 ^ 48)
    && !g.extents.any fun e => decide (o < e.off + e.size) && decide (e.off < o + n)
  (ends.filter free).min?

/-- The staging window that holds bytes of a device request (R282). -/
def State.stagingOpen (s : State) (off n : Nat) : Bool :=
  s.commons.incoming.any fun i => decide (i.offset ≤ off) && decide (off + n ≤ i.offset + 2 ^ 36)

/-- Whether bytes are mapped for a request: an extent of its grant, or staging space for DEVICE 1. -/
def State.mapped (s : State) (h : BitVec 512) (off n : Nat) : Bool :=
  if hdrField h 8 1 = 1 then s.stagingOpen off n
  else match s.grant? (hdrField h 32 13) (hdrField h 48 10) with
    | some g => !g.removed && (g.extent? off n).isSome
    | none => false

/-- The bytes that a request reads. -/
def State.mappedBytes (s : State) (h : BitVec 512) (off n : Nat) : List Byte :=
  if hdrField h 8 1 = 1 then memReadBytes s.commons.staging off n
  else match s.grant? (hdrField h 32 13) (hdrField h 48 10) with
    | some g => memReadBytes g.bytes off n
    | none => []

/-- Write bytes where a request says. -/
def State.mappedWrite (s : State) (h : BitVec 512) (off : Nat) (data : List Byte) : State :=
  if hdrField h 8 1 = 1 then
    { s with commons := { s.commons with staging := memWriteBytes s.commons.staging off data } }
  else match s.grant? (hdrField h 32 13) (hdrField h 48 10) with
    | some g => s.setGrant { g with bytes := memWriteBytes g.bytes off data }
    | none => s

/-! ### Memory requests (R282, R283, R288, R289) -/

/-- The right that a pen-scoped memory request needs (R282). -/
def State.memDenied (s : State) (h : BitVec 512) : Bool :=
  hdrField h 8 1 == 0 && !(match s.grantOf h with | some r => r.bit 4 | none => false)

/-- WRITE: its status, and the state once applied. -/
def State.memWrite (s : State) (h : BitVec 512) (body : List Byte) : Nat × State :=
  let off := bytesAt body 0 6
  let counter := bytesAt body 6 2
  let data := body.drop 8
  if body.length < 8 || (hdrField h 8 1 == 0 && counter != 0xFFFF) then (rsBadParam, s)
  else if !s.mapped h off data.length then (rsNotMapped, s)
  else
    let s1 := s.mappedWrite h off data
    (rsOk, if counter = 0xFFFF then s1 else s1.counted counter data)

/-- READ: its status and data. `ok`: the data's tags verify. -/
def State.memRead (s : State) (h : BitVec 512) (body : List Byte) (ok : Bool) : Nat × List Byte :=
  let off := bytesAt body 0 6
  let n := bytesAt body 8 4
  if body.length != 16 || n == 0 || decide (8388608 < n) then (rsBadParam, [])
  else if !s.mapped h off n then (rsNotMapped, [])
  else if !ok then (rsDataFault, [])
  else (rsOk, s.mappedBytes h off n)

/-- COPY (R288): the bytes go to LANDING as device WRITEs that name the requester's COUNTER; its response follows the
last acknowledgement. Answers the status when it is refused. -/
def State.memCopy (s : State) (h : BitVec 512) (body : List Byte) (ok : Bool) : Option Nat × State :=
  let off := bytesAt body 0 6
  let n := bytesAt body 8 4
  if body.length != 24 || n == 0 || decide (8388608 < n)
      || (hdrField h 8 1 == 0 && bytesAt body 6 2 != 0xFFFF) then (some rsBadParam, s)
  else if !s.mapped h off n then (some rsNotMapped, s)
  else if !ok then (some rsDataFault, s)
  else (none, s.request (hdrField h 32 13) 1 0 (writeBody (bytesAt body 16 6) (bytesAt body 6 2) (s.mappedBytes h off n))
    (.copyOut h))

/-- ALLOC (R283): the FORMAT of an IDENT is one of Table 2.9 (02 R59). -/
def State.memAlloc (s : State) (h : BitVec 512) (n : Nat) (ident : List Byte) : Nat × Nat × State :=
  let node := hdrField h 32 13
  let pen := hdrField h 48 10
  if n == 0 || decide (67108864 < n) || decide (9 < bitsOf (bytesToNat ident) 124 4) then (rsBadParam, 0, s)
  else match s.grantOf h with
    | none => (rsDenied, 0, s)
    | some r =>
      let g := (s.grant? node pen).getD { node := BitVec.ofNat 13 node, pen := pen, localPen := r.localPen }
      if r.bit 7 || decide (r.limit < s.grantHeld node pen + n) then (rsQuota, 0, s)
      else match s.tierFor r.localPen n, g.place n with
        | some t, some o =>
          let e : Extent := { off := o, size := n, tier := t, ident := if ident.all (· == 0) then [] else ident }
          (rsOk, o, s.setGrant { g with extents := g.extents ++ [e] })
        | _, _ => (rsQuota, 0, s)

/-- FREE (R283): the extent and its charge are released. -/
def State.memFree (s : State) (h : BitVec 512) (off : Nat) : Nat × State :=
  match s.grant? (hdrField h 32 13) (hdrField h 48 10) with
  | none => (rsNotMapped, s)
  | some g =>
    match g.extents.find? fun e => e.off == off with
    | none => (rsNotMapped, s)
    | some e => (rsOk, s.setGrant { g with
        extents := g.extents.filter fun q => q.off != off,
        bytes := g.bytes.filter fun c => decide (c.1 < e.off) || decide (e.off + e.size ≤ c.1) })

/-- ATOMIC (R283): status, RESULT, and the state once applied. -/
def State.memAtomic (s : State) (h : BitVec 512) (body : List Byte) : Nat × Nat × State :=
  let off := bytesAt body 0 6
  let aop := bytesAt body 8 1
  let a := bytesAt body 16 8
  let b := bytesAt body 24 8
  if body.length != 64 then (rsBadParam, 0, s)
  else if aop = aopAlloc then
    (if hdrField h 8 1 = 1 then (rsBadParam, 0, s) else s.memAlloc h a ((body.drop 32).take 32))
  else if aop = aopFree then
    (if hdrField h 8 1 = 1 then (rsNotMapped, 0, s) else let r := s.memFree h off; (r.1, 0, r.2))
  else if !(aop == 1 || aop == 2 || aop == 3) || off % 8 != 0 then (rsBadParam, 0, s)
  else if !s.mapped h off 8 then (rsNotMapped, 0, s)
  else
    let v := bytesToNat (s.mappedBytes h off 8)
    let w := match aop with
      | 1 => if v = a then b else v
      | 2 => (v + a) % 2 ^ 64
      | _ => a
    (rsOk, v, s.mappedWrite h off (natToBytes 8 w))

/-- One ATOMIC through the reply cache (R289). Answers whether it counts as applied in the stream. -/
def State.cachedAtomic (s : State) (h : BitVec 512) (body : List Byte) : Bool × State :=
  let src := hdrField h 32 13
  let id := hdrField h 320 64
  let i := s.inStream src
  match i.cache.find? fun c => c.1 == id with
  | some c => (true, (s.bumpDev .cacheHits 1).respond h c.2.1 0 c.2.2.1 [])
  | none =>
    if id ≤ i.lowWater then (true, s.respond h rsStale 0 s.commons.incarnation.toNat [])
    else
      let full := decide (4096 ≤ i.cache.length)
      let oldest := i.cache.head?
      match full, oldest with
      | true, some c =>
        if s.clock.now < c.2.2.2 + 2 ^ 20 then
          (false, s.respond h rsBusy (ceilDiv (c.2.2.2 + 2 ^ 20 - s.clock.now) 1024) 0 [])
        else run s src id (i.cache.drop 1) (max i.lowWater c.1)
      | _, _ => run s src id i.cache i.lowWater
where
  /-- Apply it, and keep its reply. -/
  run (s : State) (src id : Nat) (cache : List (Nat × Nat × Nat × Nat)) (low : Nat) : Bool × State :=
    let r := if s.memDenied h then (rsDenied, 0, s) else s.memAtomic h body
    let s1 := r.2.2.modStream src fun i =>
      { i with cache := cache ++ [(id, r.1, r.2.1, s.clock.now)], lowWater := low,
               applied := max i.applied (hdrField h 64 48) }
    (true, s1.respond h r.1 0 r.2.1 [])

/-- Apply one memory request in order (R285). Answers whether the stream moves on. -/
def State.applyMemory (s : State) (h : BitVec 512) (body : List Byte) (ok : Bool) : Bool × State :=
  let op := hdrField h 0 8
  let src := hdrField h 32 13
  let on (s : State) : State := s.modStream src fun i => { i with applied := max i.applied (hdrField h 64 48) }
  if s.epochStale h then (false, s.respond h rsEpochStale 0 s.commons.epoch [])
  else if op = 3 then s.cachedAtomic h body
  else if s.memDenied h then (true, (on s).respond h rsDenied 0 0 [])
  else match op with
    | 1 => let r := s.memWrite h body; (true, (on r.2).respond h r.1 0 0 [])
    | 2 => let r := s.memRead h body ok; (true, (on s).respond h r.1 0 0 r.2)
    | _ => match s.memCopy h body ok with
      | (some st, t) => (true, (on t).respond h st 0 0 [])
      | (none, t) => (true, on t)

/-- Requests held in order behind one just applied (R285). -/
def State.drainHeld (s : State) (src : Nat) : Nat → State
  | 0 => s
  | n + 1 =>
    let i := s.inStream src
    match i.heldReqs.find? fun q => q.1 == i.applied + 1 with
    | none => s
    | some q =>
      let s1 := s.modStream src fun i => { i with heldReqs := i.heldReqs.filter fun r => r.1 != q.1 }
      let r := s1.applyMemory q.2.1 q.2.2.1 q.2.2.2
      if r.1 then r.2.drainHeld src n else r.2

/-- The response of a request that has been applied is sent again (R285). -/
def State.answerAgain (s : State) (h : BitVec 512) (body : List Byte) (ok : Bool) : State :=
  match hdrField h 0 8 with
  | 1 => s.respond h (if s.memDenied h then rsDenied
      else if body.length < 8 || (hdrField h 8 1 == 0 && bytesAt body 6 2 != 0xFFFF) then rsBadParam
      else if s.mapped h (bytesAt body 0 6) (body.length - 8) then rsOk else rsNotMapped) 0 0 []
  | 2 => if s.memDenied h then s.respond h rsDenied 0 0 [] else let r := s.memRead h body ok; s.respond h r.1 0 0 r.2
  | 3 => (s.cachedAtomic h body).2
  | _ => if s.commons.requests.any (fun r => r.use == .copyOut h) then s
      else s.respond h (if s.memDenied h then rsDenied else rsOk) 0 0 []

/-- Bytes in the reorder buffer of 16 MiB (R285). -/
def State.reorderBytes (s : State) : Nat :=
  (s.commons.ins.map fun i => (i.2.heldReqs.map fun q => 64 + q.2.2.1.length).sum).sum

/-- A memory request arrives (R285). -/
def State.memoryArrives (s : State) (h : BitVec 512) (body : List Byte) (ok : Bool) : State :=
  let src := hdrField h 32 13
  let pseq := hdrField h 64 48
  let i := s.inStream src
  if pseq ≤ i.applied then s.answerAgain h body ok
  else if pseq = i.applied + 1 then
    let r := s.applyMemory h body ok
    if r.1 then r.2.drainHeld src (i.heldReqs.length + 1) else r.2
  else if i.heldReqs.any fun q => q.1 == pseq then s
  else if 16777216 < s.reorderBytes + 64 + body.length then s
  else s.modStream src fun i => { i with heldReqs := i.heldReqs ++ [(pseq, h, body, ok)] }

/-- WRITE (R283). -/
def execWrite (p : Pkt) (s : State) : Out :=
  pktReceive s p (pktOp p == 1) fun s => .next (s.memoryArrives p.header p.body true)

/-- READ (R283). -/
def execRead (p : Pkt) (dataOk : Bool) (s : State) : Out :=
  pktReceive s p (pktOp p == 2) fun s => .next (s.memoryArrives p.header p.body dataOk)

/-- ATOMIC (R283, R289). -/
def execAtomic (p : Pkt) (s : State) : Out :=
  pktReceive s p (pktOp p == 3) fun s => .next (s.memoryArrives p.header p.body true)

/-- COPY (R288). -/
def execCopy (p : Pkt) (dataOk : Bool) (s : State) : Out :=
  pktReceive s p (pktOp p == 4) fun s => .next (s.memoryArrives p.header p.body dataOk)

/-! ### Attention for other nodes (07 R186 to R188) -/

/-- The layout that a request header carries (Table 7.6). -/
def attendLayout (v : Nat) : Layout :=
  { id := 0, vocab := false, latent := bitOf v 138, causal := bitOf v 139, layers := 1, vocabSize := 768,
    kvHeads := bitsOf v 160 9, headWidth := bitsOf v 176 10, queryHeads := bitsOf v 144 11, latentWidth := bitsOf v 192 12,
    ropeWidth := bitsOf v 208 9, nativeFormat := 0, sinkSheaves := 0, window := bitsOf v 352 32,
    scoreScale := BitVec.ofNat 32 (bitsOf v 224 32), softcap := BitVec.ofNat 32 (bitsOf v 256 32), projectionSeed := 0,
    windowLayers := 0, raw := [] }

/-- The ordinals that a request lists. -/
def attendOrdinals (body : List Byte) : List Nat :=
  (List.range (bitsOf (bytesToNat (body.take 64)) 416 21)).map fun i => bytesAt body (64 + 4 * i) 4 % 1048576

/-- Whether numbers rise strictly. -/
def ascending : List Nat → Bool
  | a :: b :: l => decide (a < b) && ascending (b :: l)
  | _ => true

/-- A field breaks its limits, or the list is not ascending (07 R188 step 2). -/
def attendBad (body : List Byte) : Bool :=
  let v := bytesToNat (body.take 64)
  let l := attendLayout v
  let n := bitsOf v 416 21
  let rows := bitsOf v 320 17 * l.queryHeads
  decide (body.length < 64) || (badAmong (layoutChecks l)).isSome || n == 0 || decide (1048576 < n)
    || bitsOf v 320 17 == 0 || decide (65536 < bitsOf v 320 17) || !ascending (attendOrdinals body)
    || body.length != 64 + 4 * n + rows * (2 * l.queryWidth)

/-- A sealed sheaf that this device holds for a node's pen: in an extent of its grant, or of a session homed here. -/
def State.heldSheaf (s : State) (node pen : Nat) (owner : Handle) (layer ordinal : Nat) : Option Sheaf :=
  let named (f : Sheaf) : Bool := f.owner == owner && f.layer == layer && f.ordinal == ordinal && f.isSealed
  let ofGrant := (s.grant? node pen).bind fun g => g.extents.findSome? fun e =>
    let f := parseEntry (e.ident ++ List.replicate 32 0)
    if !e.ident.isEmpty && named f then some { f with payload := memReadBytes g.bytes e.off e.size } else none
  ofGrant.or ((s.sess? owner).bind fun x =>
    (x.map.find? fun f => named f && !f.shared && f.tier != .t3 && !f.missing))

/-- The reply header of Table 7.7. -/
def attendHeader (id status tiles bad : Nat) : List Byte :=
  packBytes 32 [(64, id), (8, status), (8, 0), (12, tiles), (36, 0), (20, bad), (108, 0)]

/-- Answer an attention request. -/
def State.answerAttend (s : State) (h : BitVec 512) (body : List Byte) (status tiles bad : Nat) (groups : List Byte) : State :=
  s.respond h status 0 0 (attendHeader (bytesAt body 0 8) status tiles bad ++ groups)

/-- The units of a request, one partial group per tile (07 R187, R188). -/
def State.attendTilesFor (s : State) (h : BitVec 512) (body : List Byte) : List (Nat × List Partial) :=
  let v := bytesToNat (body.take 64)
  let l := attendLayout v
  let owner : Handle := BitVec.ofNat 64 (bitsOf v 64 64)
  let sheaves := (attendOrdinals body).filterMap fun o =>
    s.heldSheaf (hdrField h 32 13) (hdrField h 48 10) owner (bitsOf v 128 10) o
  let a : AttnParams :=
    { latent := l.latent, causal := l.causal, queryHeads := l.queryHeads, kvHeads := l.kvHeads, headWidth := l.headWidth,
      latentWidth := l.latentWidth, ropeWidth := l.ropeWidth, scoreScale := l.scoreScale, softcap := l.softcap,
      window := l.window, sinkEnd := bitsOf v 384 27 }
  let off := 64 + 4 * bitsOf v 416 21
  let w := 2 * l.queryWidth
  let rows : List QRow := (List.range (bitsOf v 320 17 * l.queryHeads)).map fun i =>
    { pos := bitsOf v 288 27 + i / l.queryHeads, head := i % l.queryHeads,
      query := decodeBf16 l.queryWidth ((body.drop (off + i * w)).take w) }
  -- the positions of the step are attended in the step source only (07 R161, R169)
  let home (p : Nat) : Bool := decide (bitsOf v 288 27 ≤ p) && decide (p < bitsOf v 288 27 + bitsOf v 320 17)
  (tilesOf sheaves).map fun t =>
    (t.1, rows.map fun r => a.unitPartial home r (t.2.map fun f => (f.startPos, f.positions l)))

/-- The extent of a grant that a request needs and that lies in flash goes to T1 where the pen's quota has room (07 R188 step 4,
06 R137); where it has none, demotions make room. -/
def State.promoteExtent (s : State) (node pen : Nat) (wanted : Extent → Bool) : State :=
  match s.grant? node pen with
  | none => s
  | some g =>
    (g.extents.filter fun e => wanted e && e.tier == .t2).foldl (fun t e =>
      match t.grant? node pen with
      | none => t
      | some g =>
        if t.used g.localPen .t1 + e.size ≤ t.quota g.localPen .t1 then
          t.setGrant { g with extents := g.extents.map fun q => if q.off = e.off then { q with tier := .t1 } else q }
        else t.demoteFor g.localPen e.size) s

/-- An extent holds a sheaf that a request lists. -/
def attendWants (body : List Byte) (e : Extent) : Bool :=
  let v := bytesToNat (body.take 64)
  let f := parseEntry (e.ident ++ List.replicate 32 0)
  !e.ident.isEmpty && f.owner.toNat == bitsOf v 64 64 && f.layer == bitsOf v 128 10 && (attendOrdinals body).contains f.ordinal

/-- The sheaves of sessions homed here that a request lists. -/
def State.attendOwn (s : State) (body : List Byte) : List Sheaf :=
  let v := bytesToNat (body.take 64)
  match s.sess? (BitVec.ofNat 64 (bitsOf v 64 64)) with
  | none => []
  | some x => x.map.filter fun f => !f.shared && f.layer == bitsOf v 128 10 && (attendOrdinals body).contains f.ordinal

/-- What a request needs is promoted from this device's own flash (07 R188 step 4, 01 R16). -/
def State.promoteAttend (s : State) (h : BitVec 512) (body : List Byte) : State :=
  (s.attendOwn body).foldl (fun t f => t.askPromotion f.owner f.layer f.ordinal none)
    (s.promoteExtent (hdrField h 32 13) (hdrField h 48 10) (attendWants body))

/-- Everything that a request lists lies in this device's T1. -/
def State.attendHome (s : State) (h : BitVec 512) (body : List Byte) : Bool :=
  ((s.attendOwn body).all fun f => f.tier != .t2)
    && (match s.grant? (hdrField h 32 13) (hdrField h 48 10) with
      | some g => g.extents.all fun e => !attendWants body e || e.tier != .t2
      | none => true)

/-- An attention request is served, in the service plan (07 R188 steps 5 and 6); `failed` is the first listed ordinal whose tag
check fails. Each group covers every row. -/
def State.serveAttend (s : State) (h : BitVec 512) (body : List Byte) (failed : Option Nat) : State :=
  let v := bytesToNat (body.take 64)
  match failed.filter (attendOrdinals body).contains with
  | some o => s.answerAttend h body rsDataFault 0 o []
  | none =>
    let tiles := s.attendTilesFor h body
    s.answerAttend h body rsOk tiles.length 0 (tiles.flatMap fun t =>
      partialGroup 0 (bitsOf v 128 10) 2 0 t.1 t.2)

/-- ATTEND_REQ (07 R188). -/
def execAttendReq (p : Pkt) (failed : Option Nat) (s : State) : Out :=
  serviceReceive s p (pktOp p == 0x10) fun s =>
    let h := p.header
    let b := p.body
    if hdrField h 8 1 == 1 || !(match s.grantOf h with | some r => r.bit 5 | none => false) then
      .next (s.answerAttend h b rsDenied 0 0 [])
    else if attendBad b then .next (s.answerAttend h b rsBadParam 0 0 [])
    else
      let v := bytesToNat (b.take 64)
      let lost := (attendOrdinals b).find? fun o =>
        (s.heldSheaf (hdrField h 32 13) (hdrField h 48 10) (BitVec.ofNat 64 (bitsOf v 64 64)) (bitsOf v 128 10) o).isNone
      match lost with
      | some o => .next (s.answerAttend h b rsNotHomed 0 o [])
      | none => .next (({ s with commons := { s.commons with attends := s.commons.attends ++ [(h, b, failed)] } }).promoteAttend h b)

/-! ### Search for other nodes (R303) -/

/-- SEARCH_REQ (R303). -/
def execSearchReq (p : Pkt) (s : State) : Out :=
  serviceReceive s p (pktOp p == 0x11) fun s =>
    let h := p.header
    match s.grantOf h with
    | none => .next (s.respond h rsDenied 0 0 [])
    | some r =>
      if hdrField h 8 1 == 1 || !r.bit 6 then .next (s.respond h rsDenied 0 0 [])
      else
        let d : Desc := BitVec.ofNat 512 (bytesToNat (p.body.take 64))
        let id := operand d 0 4
        match s.index? r.localPen id with
        | none => .next (s.respond h rsBadParam 0 (packNat [(32, 0), (16, 16)]) [])
        | some x =>
          let query := p.body.drop 64
          if p.body.length != 64 + 2 * indexDim x.params || (badAmong (searchChecks false d)).isSome then
            .next (s.respond h rsBadParam 0 (packNat [(32, 0), (16, (badAmong (searchChecks false d)).getD 0)]) [])
          else
            let q := searchOf d none (some h) x.commitSeq x.generation query s.clock.now
            if q.k = 0 || q.stripLimit = 0 then .next ((s.bumpPen r.localPen .searches 1).respond h rsOk 0 0 [])
            else .next (s.modIndex r.localPen id fun x =>
              { x with searches := x.searches ++ [{ q with stepsLeft := searchSteps s.recovery.gleaners.length x r.localPen id q }] })

end Sys2Proof.Machine
end

