-- ==== Sys2Proof/Machine/Mirror.lean ====
section
/-!
DEFINITION. The partner mirror and the second place of a commit (12_ledger_and_harvest R308, R312 to R316): commits, the
fallback to solo commit and the return from it, a new partner, the flash copies, and NODE_DOWN (11 R297).
-/
namespace Sys2Proof.Machine

/-! ### Commit (R308) -/

/-- What follows a commit that made session `h` RUNNABLE (05 R126, 06 R158, 11 R302). -/
def State.nowRunnable (s : State) (before : Option SessState) (h : Handle) : State :=
  match s.sess? h with
  | none => s
  | some x => if x.state = .runnable && before != some .runnable && before != some .running then
      (s.runnableSteps h).handBack h else s

/-- LEDGER_COMMIT: the oldest group of the session that both places hold commits, and what waits behind it only for that
follows in its turn (R308). -/
def execLedgerCommit (h : Handle) (s : State) : Out :=
  if s.mayCommit h then .next ((s.settleGroup h).nowRunnable ((s.sess? h).map (·.state)) h) else stutter s

/-! ### Flash copies (R314) -/

/-- LEDGER_WRITE_BEHIND: committed groups, mirrored groups and registry changes are written to flash (R314). -/
def execLedgerWriteBehind (s : State) : Out :=
  let s1 := (s.sessions.filter fun x => x.2.region.flashed != x.2.ledgerStep).foldl (fun t x => t.flashSession x.1) s
  .next { s1 with flashSlice := s1.slice,
                  partner := { s1.partner with flashMirror := s1.partner.mirror, flashSlices := s1.partner.slices } }

/-! ### What is owed to a partner (R313, R316) -/

/-- The committed groups of every session above what the partner has been sent, each session's header behind them. -/
def State.owedGroups (s : State) : List (List Byte) :=
  s.sessions.flatMap fun x => x.2.mirrorItems x.1 ((assocGet x.1 s.partner.owed).getD 0)

/-- Everything committed counts as sent. -/
def State.owedSent (s : State) : List (Handle × Nat) := s.sessions.map fun x => (x.1, x.2.ledgerStep)

/-- Something sent to node `d` for the mirror is unanswered. -/
def State.mirrorBusy (s : State) (d : Nat) : Bool :=
  s.commons.requests.any fun r => r.dest.toNat == d && match r.use with
    | .records .. => true | .mirror => true | _ => false

/-- The node whose batches and mirrors this device accepts: the one its LEDGER_PARTNER_SET names (R312). -/
def State.namedPartner (s : State) : Option Nat := (s.partner.pending.or s.partner.node).map (·.toNat)

/-- Send what is owed to the node `d`, under the sequence of the partner in force or of the new one. -/
def State.sendOwed (s : State) (d : Nat) (items : List (List Byte)) : State :=
  let fresh := s.partner.pending.isSome
  let s0 := if fresh then { s with partner := { s.partner with mirrorSeq := s.partner.pendingSeq } } else s
  let s1 := (cutBatches items [] 0).foldl (fun t b =>
    let seq := t.partner.mirrorSeq + 1
    ({ t with partner := { t.partner with mirrorSeq := seq } }).request d 0x30 0 (mirrorHeader 1 b.length seq ++ b.flatten)
      (.records seq [])) s0
  if fresh then
    { s1 with partner := { s1.partner with pendingSeq := s1.partner.mirrorSeq, mirrorSeq := s.partner.mirrorSeq } }
  else s1

/-- DROP for everything this device had sent to a node (R316). -/
def State.dropAll (s : State) (d : Nat) : State := s.request d 0x30 0 (mirrorHeader 3 0 0) .dropReq

/-- A new partner holds everything: it is in force (R316). -/
def State.partnerReady (s : State) (n : BitVec 13) : State :=
  let p := s.partner
  let s1 := { s with partner := { p with node := some n, pending := none, fallback := false, syncing := false,
                                         mirrorSeq := p.pendingSeq, acked := p.pendingSeq, owed := [] } }
  let s2 := s1.raise 0 0x0703 n.toNat 0
  match p.node with
  | some o => if o = n then s2 else s2.dropAll o.toNat
  | none => s2

/-- The lost partner holds everything again: mirrored commit resumes (R313). -/
def State.partnerRestored (s : State) (n : BitVec 13) : State :=
  ({ s with partner := { s.partner with fallback := false, syncing := false, owed := [] } }).raise 0 0x0702 n.toNat 0

/-- One stage of sending what is owed: groups, then entries, then the end. -/
def State.syncStep (s : State) : State :=
  match s.partner.pending.or (if s.partner.fallback then s.partner.node else none) with
  | none => s
  | some n =>
    if !s.partner.syncing || s.mirrorBusy n.toNat then s
    else
      let gs := s.owedGroups
      if !gs.isEmpty then
        let s1 := s.sendOwed n.toNat gs
        { s1 with partner := { s1.partner with owed := s.owedSent } }
      else if !s.partner.owedEntries.isEmpty then
        let es := s.partner.owedEntries.eraseDups.filterMap s.entry?
        es.foldl (fun t e => t.request n.toNat 0x28 0 e.bytes .mirror)
          { s with partner := { s.partner with owedEntries := [] } }
      else if s.partner.pending.isSome then s.partnerReady n
      else s.partnerRestored n

/-- Every registry entry of this device and its aliases whose LIFE is not FREE. -/
def State.allEntries (s : State) : List Handle :=
  (s.slice :: s.harvest.aliases.map (·.2)).flatMap fun sl =>
    (sl.entries.filter fun e => e.2.life != .free).map fun e => e.2.handle

/-! ### Fallback (R313) -/

/-- Requests to a node whose use `p` names are given up. -/
def State.dropRequests (s : State) (d : Nat) (p : ReqUse → Bool) : State :=
  { s with commons := { s.commons with requests := s.commons.requests.filter fun r => !(r.dest.toNat == d && p r.use) } }

/-- The registry changes that waited for the partner take effect without it. -/
def State.applyUnmirrored (s : State) : State :=
  (s.commons.regPending.filter fun q => q.change.isSome).foldl (fun t q => t.regMirrored q.id) s

/-- A RECORDS batch has failed: the Ledger falls back to solo commit (R313). -/
def State.enterFallback (s : State) : State :=
  match s.partner.node with
  | none => s
  | some n =>
    if s.partner.fallback then s
    else
      let waiting := s.commons.requests.filterMap fun r => match r.use with
        | .incoming h => if r.dest = n then some h else none
        | _ => none
      let entries := s.commons.requests.filterMap fun r => match r.use with
        | .mirror => if r.dest = n && hdrField r.header 0 8 == 0x28 then some (parseRegEntry r.body).handle else none
        | _ => none
      let gone (u : ReqUse) : Bool := match u with
        | .records .. => true | .mirror => true | .regMirror _ => true | .incoming _ => true | _ => false
      let s1 := s.dropRequests n.toNat gone
      let s2 := { s1 with partner := { s1.partner with fallback := true, syncing := s.partner.pending.isSome,
                                                       owed := if s.partner.pending.isSome then s.partner.owed else s.owedSent,
                                                       owedEntries := s1.partner.owedEntries ++ entries } }
      let s3 := (s2.raise 0 0x0701 n.toNat 0).applyUnmirrored
      waiting.eraseDups.foldl (fun t h => t.commitHandoff h) s3

/-- PARTNER_RETRY: every 2^26 cycles of fallback a RECORDS batch is offered to the partner; a new partner that did not
answer is sent everything again (R313, R316). -/
def execPartnerRetry (s : State) : Out :=
  let due := s.clock.partnerRetry + 2 ^ 26
  let s1 := s.at_ due
  let s2 := { s1 with clock := { s1.clock with partnerRetry := due } }
  let p := s2.partner
  if p.syncing then .next s2
  else match p.pending, p.node with
    | some _, _ =>
      .next { s2 with partner := { p with syncing := true, pendingSeq := 0, owed := [], owedEntries := s2.allEntries } }.syncStep
    | none, some n =>
      if p.fallback && !s2.mirrorBusy n.toNat then
        .next (s2.request n.toNat 0x30 0 (mirrorHeader 1 0 (p.acked + 1)) (.records (p.acked + 1) []))
      else .next s2
    | none, none => .next s2

/-- A RECORDS batch is acknowledged up to `seq` by node `d` (R312, R313). -/
def State.recordsAcked (s : State) (d seq : Nat) : State :=
  if s.partner.pending.map (·.toNat) = some d then s.syncStep
  else if s.partner.node.map (·.toNat) = some d then
    let s1 := { s with partner := { s.partner with acked := max s.partner.acked seq } }
    if s.partner.fallback then
      (if s.partner.syncing then s1.syncStep
      else ({ s1 with partner := { s1.partner with syncing := true, mirrorSeq := seq, acked := seq } }).syncStep)
    else
      let mark (g : Group) : Group := match g.batch with
        | some b => if b ≤ seq then { g with held := true } else g
        | none => g
      { s1 with sessions := s1.sessions.map fun x =>
          (x.1, { x.2 with region := { x.2.region with waiting := x.2.region.waiting.map mark } }) }
  else s

/-- A batch or a mirrored entry to node `d` failed, or was refused: the partner in force is lost; a new one is tried
again later. -/
def State.mirrorFailed (s : State) (d : Nat) : State :=
  if s.partner.pending.map (·.toNat) = some d || s.partner.fallback then
    let sent (u : ReqUse) : Bool := match u with | .records .. => true | .mirror => true | _ => false
    let s1 := s.dropRequests d sent
    { s1 with partner := { s1.partner with syncing := false, pendingSeq := 0, owed := [] } }
  else if s.partner.node.map (·.toNat) = some d then s.enterFallback
  else s

/-! ### LEDGER_PARTNER_SET, NODE_DOWN -/

/-- REG_READ is answered with the entry. -/
def State.answerRead (s : State) (h : Handle) (hdr : BitVec 512) : State :=
  match s.entry? h with
  | some e => s.respond hdr rsOk 0 0 e.bytes
  | none => s.respond hdr rsNotHomed 0 0 []

/-- The partner has said whether it answered for this device's slice: the operations that waited go on (R297). -/
def State.registryFree (s : State) : State :=
  let held := s.commons.regPending.filter fun q => q.change.isNone
  let s1 := { s with partner := { s.partner with asking := false },
                     commons := { s.commons with regPending := s.commons.regPending.filter fun q => q.change.isSome } }
  held.foldl (fun t q => match q.op, q.origin with
    | 0x20, .remote hdr => t.answerRead q.handle hdr
    | _, o => t.submitReg q.handle q.op q.body o) s1

/-- What this device mirrors goes with the partner it mirrors for. -/
def Partner.forget (p : Partner) : Partner :=
  { p with applied := 0, heldBatches := [], mirror := [], flashMirror := [], slices := [], flashSlices := [],
           standIn := false, deposed := false, asking := false }

/-- LEDGER_PARTNER_SET to solo: commits use the flash copy from now on (R26). -/
def State.partnerSolo (s : State) : State :=
  let drop (t : State) (n : Option (BitVec 13)) : State := match n with | some n => t.dropAll n.toNat | none => t
  let gone (u : ReqUse) : Bool := match u with
    | .records .. => true | .mirror => true | .regMirror _ => true | .incoming _ => true | _ => false
  let old := (s.partner.pending.toList ++ s.partner.node.toList).map (·.toNat)
  let waiting := s.commons.requests.filterMap fun r => match r.use with | .incoming h => some h | _ => none
  let s1 := old.foldl (fun t d => t.dropRequests d gone) s
  let s2 := { s1 with harvest := { s1.harvest with aliasMirrors := [] },
                      partner := { s1.partner.forget with node := none, pending := none, fallback := false, owed := [],
                                                          owedEntries := [], mirrorSeq := 0, acked := 0, pendingSeq := 0,
                                                          syncing := false } }
  let s3 := (waiting.eraseDups.foldl (fun t h => t.commitHandoff h) s2.applyUnmirrored).registryFree
  drop (drop s3 s.partner.pending) s.partner.node

/-- A new partner is named (R316). -/
def State.partnerNew (s : State) (n : BitVec 13) : State :=
  let sent (u : ReqUse) : Bool := match u with | .records .. => true | .mirror => true | _ => false
  let s1 := match s.partner.pending with | some o => (s.dropRequests o.toNat sent).dropAll o.toNat | none => s
  ({ s1 with harvest := { s1.harvest with aliasMirrors := [] },
             partner := { s1.partner.forget with pending := some n, pendingSeq := 0, syncing := true, owed := [],
                                                 owedEntries := s.allEntries } }).syncStep.registryFree

/-- LEDGER_PARTNER_SET (R312, R316). -/
def execLedgerPartnerSet (mb : Mb) (s : State) : Out :=
  mbRun s mb 0x0042 fun s c =>
    let n := operand c.desc 0 2
    if n = 0xFFFF then .now s.partnerSolo rOk
    else if 0x1FFF < n || n = s.node then .now s (rBad 16)
    else if s.namedPartner = some n then .now s rOk
    else .now (s.partnerNew (BitVec.ofNat 13 n)) rOk

/-- The mirror slices are answered here for the partner: index bookkeeping as its registry would continue (R297). -/
def State.standIn (s : State) : State := { s with partner := { s.partner with standIn := true } }

/-- NODE_DOWN (R297, 12 R330). -/
def execNodeDown (mb : Mb) (s : State) : Out :=
  mbRun s mb 0x0043 fun s c =>
    if s.partner.node.map (·.toNat) = some (operand c.desc 0 2) then .now s.standIn rOk else .now s (rBad 16)

end Sys2Proof.Machine
end

