-- ==== Sys2Proof/Machine/Services.lean ====
section
/-!
DEFINITION. The registry operations, notices and mirror operations that arrive from other nodes (11_commons_fabric
Table 11.8, R290 to R297; 12_ledger_and_harvest R312, R314), and the timers of the Commons and its administration
(R280, R290, R291, R298 to R301).
-/
namespace Sys2Proof.Machine

/-! ### Regrowth of a session whose home lost it (R296, 12 R317) -/

/-- The session as its committed groups tell it: every sheaf is missing (R317). -/
def State.sessionFrom (s : State) (h : Handle) (r : Region) : Session :=
  match openRec r.recs with
  | none => { state := .faulted, layout := 0, region := r, faultedSince := s.clock.now, faultCause := some .homeLost }
  | some o =>
    let smp := recordedSampler r.recs o
    let step := (r.recs.map (·.step)).foldl max 0
    let x : Session :=
      { state := .faulted, layout := bytesAt o.body 24 1, sampler := smp, isPrefix := o.isPrefix,
        latencyCritical := o.latencyCritical, parent := BitVec.ofNat 64 (bytesAt o.body 32 8), ledgerStep := step,
        region := { r with localStep := step }, faultedSince := s.clock.now, faultCause := some .homeLost,
        homeVersion := match s.entry? h with | some e => e.locVersion | none => 0 }
    match s.layout? x.layout with
    | none => x
    | some l =>
      let y := x.rebuild l (s.setOf h x)
      { y with inputPending := !y.region.unplaced.isEmpty, inputEnd := y.positions }

/-- What recover(h) of R317 does once every group that can be had is here. -/
def State.finishFetch (s : State) (h : Handle) (more : List Rec) (header : Option (List Byte)) : State :=
  match s.sess? h with
  | none => s
  | some x =>
    let have_ := (x.region.recs.map (·.step)).foldl max 0
    let r := { x.region with recs := x.region.recs ++ more.filter fun c => decide (have_ < c.step) }
    -- in mirrored mode the partner holds the latest header; in solo mode and fallback the flash copy does (R26, R313)
    let r := match s.mirroredTo, header with
      | some _, some b =>
        let hv := bytesToNat (b.take 256)
        { r with outputPos := bitsOf hv 192 28, streams := parseStreams hv [0, 1, 2, 3] (idsOf (b.drop 256)) }
      | _, _ => r
    let y := { s.sessionFrom h r with homeVersion := x.homeVersion, childRefs := x.childRefs, localPen := x.localPen,
                                      handedFrom := x.handedFrom }
    (s.modSess h fun _ => y).recover h fun _ => true

/-- The session as the own flash copy tells it (R314, R317). -/
def State.sessionInFlash (s : State) (h : Handle) : Session :=
  let f : FlashCopy := (assocGet h s.flash).getD {}
  s.sessionFrom h { recs := f.recs, outputPos := f.outputPos, streams := f.streams }

/-- A session whose home lost it: the record in FAULTED with HOME_LOST from the own flash copy, REG_LIFE REGROW, then FETCH
from the partner for the steps above it (R296, 12 R317). -/
def State.regrowAs (s : State) (h : Handle) (x : Session) : State :=
  let p := handlePen h
  let s1 := (((({ s with sessions := assocSet h x s.sessions }.bumpPen p .sessionFaults 1).bumpPen p .faultHomeLost 1).raise
    p 0x0303 h.toNat (faultCode .homeLost)).regLife h .regrow).1
  match s.partner.node with
  | some d => s1.request d.toNat 0x30 0
      (mirrorHeader 2 1 0 ++ natToBytes 8 h.toNat ++ natToBytes 8 x.ledgerStep) (.fetch h)
  | none => s1.finishFetch h [] none

/-- A home begins to regrow a session that it does not hold (R296). -/
def State.regrowHome (s : State) (h : Handle) : State :=
  if (s.sess? h).isSome then s else s.regrowAs h (s.sessionInFlash h)

/-! ### Registry operations from other nodes (Table 11.8) -/

/-- A registry operation on handle `h` has arrived, with a body of `n` bytes: `body` runs where this device answers for
the handle's registry node (R297). -/
def registryReceive (s : State) (p : Pkt) (op n : Nat) (body : State → Handle → State) : Out :=
  serviceReceive s p (pktOp p == op) fun s =>
    let h : Handle := BitVec.ofNat 64 (bytesAt p.body 0 8)
    if p.body.length != n then .next (s.respond p.header rsBadParam 0 0 [])
    else if s.partner.deposed && handleNode h == s.node then
      .next (s.respond p.header rsPartnerActive 0 (match s.partner.node with | some d => d.toNat | none => 0) [])
    else if !s.isSelf (handleNode h) then .next (s.respond p.header rsNotHomed 0 0 [])
    else .next (body s h)

/-- A registry operation waits until the partner has said whether it answered for the slice (R297). -/
def State.holdReg (s : State) (h : Handle) (op : Nat) (p : Pkt) : State :=
  let q : RegPending := { id := s.commons.nextReg, handle := h, op := op, body := p.body, origin := .remote p.header }
  let again := s.commons.regPending.any fun r => r.origin == .remote p.header
  if again then s
  else { s with commons := { s.commons with nextReg := s.commons.nextReg + 1, regPending := s.commons.regPending ++ [q] } }

/-- A change asked for by another node: a request already taken and not yet answered is not taken again. -/
def State.takeReg (s : State) (h : Handle) (op : Nat) (p : Pkt) : State :=
  if s.partner.asking then s.holdReg h op p
  else if s.commons.regPending.any fun r => r.origin == .remote p.header then s
  else s.submitReg h op p.body (.remote p.header)

/-- REG_READ (Table 11.8). -/
def execRegRead (p : Pkt) (s : State) : Out :=
  registryReceive s p 0x20 8 fun s h => if s.partner.asking then s.holdReg h 0x20 p else s.answerRead h p.header

/-- REG_OFFER (Table 11.8). -/
def execRegOffer (p : Pkt) (s : State) : Out := registryReceive s p 0x21 18 fun s h => s.takeReg h 0x21 p

/-- REG_COMMIT (Table 11.8). -/
def execRegCommit (p : Pkt) (s : State) : Out := registryReceive s p 0x22 16 fun s h => s.takeReg h 0x22 p

/-- REG_WITHDRAW (Table 11.8). -/
def execRegWithdraw (p : Pkt) (s : State) : Out := registryReceive s p 0x23 16 fun s h => s.takeReg h 0x23 p

/-- REG_LIFE (Table 11.8). -/
def execRegLife (p : Pkt) (s : State) : Out := registryReceive s p 0x24 17 fun s h => s.takeReg h 0x24 p

/-- REG_RETIRE (Table 11.8). -/
def execRegRetire (p : Pkt) (s : State) : Out := registryReceive s p 0x25 16 fun s h => s.takeReg h 0x25 p

/-- REG_REGROW (R296). -/
def execRegRegrow (p : Pkt) (s : State) : Out :=
  serviceReceive s p (pktOp p == 0x26) fun s =>
    let n := p.body.length / 8
    if p.body.length != 8 * n then .next (s.respond p.header rsBadParam 0 0 [])
    else
      let hs : List Handle := (List.range n).map fun i => BitVec.ofNat 64 (bytesAt p.body (8 * i) 8)
      .next ((hs.foldl (fun t h => t.regrowHome h) s).respond p.header rsOk 0 0 [])

/-! ### Mirrors (12 R312, R329, R330) -/

/-- An entry in a slice, which continues after the indices issued. -/
def Slice.put (sl : Slice) (e : RegEntry) : Slice :=
  { sl with entries := assocSet (handleIndex e.handle) e sl.entries, next := max sl.next (handleIndex e.handle + 1) }

/-- A mirrored entry is stored: in the mirror slice of its registry node, or, coming back, in this device's own (R297). -/
def State.storeMirror (s : State) (src : Nat) (e : RegEntry) : State :=
  let n := handleNode e.handle
  if n = s.node then { s with slice := s.slice.put e }
  else if s.harvest.aliases.any fun a => a.1.toNat == n then
    { s with harvest := { s.harvest with aliases := s.harvest.aliases.map fun a =>
        if a.1.toNat = n then (a.1, a.2.put e) else a } }
  else
    let fresh := n != src && !s.harvest.aliasMirrors.any fun m => m.toNat == n
    { s with partner := { s.partner with slices := assocSet n (((assocGet n s.partner.slices).getD {}).put e)
                                           s.partner.slices },
             harvest := { s.harvest with
               aliasMirrors := if fresh then s.harvest.aliasMirrors ++ [BitVec.ofNat 13 n] else s.harvest.aliasMirrors } }

/-- REG_MIRROR (R290, R297, 12 R312). -/
def execRegMirror (p : Pkt) (s : State) : Out :=
  serviceReceive s p (pktOp p == 0x28) fun s =>
    let src := hdrField p.header 32 13
    if s.namedPartner != some src then .next (s.respond p.header rsDenied 0 0 [])
    else if p.body.length != 32 then .next (s.respond p.header rsBadParam 0 0 [])
    else if s.partner.standIn then .next (s.respond p.header rsPartnerActive 0 s.node [])
    else .next ((s.storeMirror src (parseRegEntry p.body)).respond p.header rsOk 0 0 [])

/-- The records of one group at the start of a string, and its length. -/
def parseGroup : Nat → List Byte → List Rec × Nat
  | 0, _ => ([], 0)
  | fuel + 1, bs =>
    match parseRec bs with
    | none => ([], 0)
    | some (r, last, n) =>
      if last then ([r], n)
      else let t := parseGroup fuel (bs.drop n); (r :: t.1, n + t.2)

/-- The header item at the start of a string, behind its handle, with its length: a region header that names the handle
and verifies (Table 12.1). -/
def headerLength (h : Handle) (bs : List Byte) : Option Nat :=
  if bs.length < 256 || bytesAt bs 0 8 != h.toNat || bytesAt bs 252 4 != crc32 (bs.take 252) then none
  else some (256 + 4 * ((List.range 4).map fun k =>
    let w := bytesAt bs (40 + 8 * k) 8
    if bitOf w 0 then bitsOf w 38 23 else 0).sum)

/-- The items of a RECORDS batch or of a FETCH answer: handle, LEDGER_STEP and the records' bytes; a header stands under
step 0, which no group has (R307). -/
def parseGroups : Nat → List Byte → List (Handle × Nat × List Byte)
  | 0, _ => []
  | n + 1, bs =>
    if bs.length < 8 then []
    else
      let h : Handle := BitVec.ofNat 64 (bytesAt bs 0 8)
      match headerLength h (bs.drop 8) with
      | some k => (h, 0, (bs.drop 8).take k) :: parseGroups n (bs.drop (8 + k))
      | none =>
      let g := parseGroup (bs.length / 32 + 1) (bs.drop 8)
      let step := (g.1.map (·.step)).foldl max 0
      (if g.1.isEmpty then [] else [(h, step, (bs.drop 8).take g.2)]) ++ parseGroups n (bs.drop (8 + g.2))

/-- The mirror with one item more, in place of one of the same step: a group, or the latest header. -/
def mirrorPut (m : List (Handle × List (Nat × List Byte))) (g : Handle × Nat × List Byte) :
    List (Handle × List (Nat × List Byte)) :=
  assocSet g.1 (assocSet g.2.1 g.2.2 ((assocGet g.1 m).getD [])) m

/-- One batch is applied and acknowledged (12 R312). -/
def State.applyBatch (s : State) (h : BitVec 512) (body : List Byte) : State :=
  let v := bytesToNat (body.take 16)
  let gs := parseGroups (bitsOf v 16 16) (body.drop 16)
  let seq := bitsOf v 64 64
  ({ s with partner := { s.partner with applied := seq, mirror := gs.foldl mirrorPut s.partner.mirror } }).respond h rsOk 0
    seq []

/-- Batches held in order behind the one just applied. -/
def State.drainBatches : Nat → State → State
  | 0, s => s
  | n + 1, s =>
    match s.partner.heldBatches.find? fun b => b.1 == s.partner.applied + 1 with
    | none => s
    | some b =>
      let s1 := { s with partner := { s.partner with heldBatches := s.partner.heldBatches.filter fun q => q.1 != b.1 } }
      State.drainBatches n (s1.applyBatch b.2.1 b.2.2)

/-- A LEDGER_MIRROR packet of a MOP that `mine` takes, from the named partner (12 R312). -/
def mirrorReceive (s : State) (p : Pkt) (mine : Nat → Bool) (body : State → State) : Out :=
  serviceReceive s p (pktOp p == 0x30 && mine (bytesAt p.body 0 1 % 16)) fun s =>
    if s.namedPartner != some (hdrField p.header 32 13) then .next (s.respond p.header rsDenied 0 0 [])
    else if p.body.length < 16 then .next (s.respond p.header rsBadParam 0 0 [])
    else .next (body s)

/-- RECORDS (12 R312): in MIRROR_SEQ order, with up to 1 MiB of later batches held. A MOP that Table 12.3 does not give is
answered BAD_PARAM here. -/
def execRecords (p : Pkt) (s : State) : Out :=
  mirrorReceive s p (fun m => m != 2 && m != 3) fun s =>
    let seq := bytesAt p.body 8 8
    let held := (s.partner.heldBatches.map fun b => b.2.2.length).sum
    if bytesAt p.body 0 1 % 16 != 1 then s.respond p.header rsBadParam 0 0 []
    else if seq ≤ s.partner.applied then s.respond p.header rsOk 0 s.partner.applied []
    else if seq = s.partner.applied + 1 then
      State.drainBatches (s.partner.heldBatches.length + 1) (s.applyBatch p.header p.body)
    else if (s.partner.heldBatches.any fun b => b.1 == seq) || decide (1048576 < held + p.body.length) then s
    else { s with partner := { s.partner with heldBatches := s.partner.heldBatches ++ [(seq, p.header, p.body)] } }

/-- FETCH (Table 12.3): the mirrored groups of each listed handle above its step, and the latest header (R317). -/
def execFetchRecords (p : Pkt) (s : State) : Out :=
  mirrorReceive s p (· == 2) fun s =>
    let n := bytesAt p.body 2 2
    let groups := (List.range n).flatMap fun i =>
      let h : Handle := BitVec.ofNat 64 (bytesAt p.body (16 + 16 * i) 8)
      let step := bytesAt p.body (24 + 16 * i) 8
      let here := (assocGet h s.partner.mirror).getD ((assocGet h s.partner.flashMirror).getD [])
      (sortBy (fun a b => decide (a.1 ≤ b.1)) (here.filter fun g => g.1 == 0 || decide (step < g.1))).flatMap fun g =>
        natToBytes 8 h.toNat ++ g.2
    if p.body.length != 16 + 16 * n then s.respond p.header rsBadParam 0 0 []
    else s.respond p.header rsOk 0 0 groups

/-- Mirrored groups of handles are forgotten; a DROP that lists none stands for everything (Table 12.3, 12 R316, R330). -/
def State.dropMirror (s : State) (all : Bool) (hs : List Handle) : State :=
  let keep (m : List (Handle × List (Nat × List Byte))) := if all then [] else m.filter fun g => !hs.contains g.1
  { s with partner := { s.partner with mirror := keep s.partner.mirror, flashMirror := keep s.partner.flashMirror,
                                       slices := if all then [] else s.partner.slices,
                                       flashSlices := if all then [] else s.partner.flashSlices,
                                       standIn := s.partner.standIn && !all },
           harvest := { s.harvest with aliasMirrors := if all then [] else s.harvest.aliasMirrors } }

/-- DROP (Table 12.3). -/
def execDrop (p : Pkt) (s : State) : Out :=
  mirrorReceive s p (· == 3) fun s =>
    let n := bytesAt p.body 2 2
    let hs : List Handle := (List.range n).map fun i => BitVec.ofNat 64 (bytesAt p.body (16 + 8 * i) 8)
    if p.body.length != 16 + 8 * n then s.respond p.header rsBadParam 0 0 []
    else (s.dropMirror (n == 0) hs).respond p.header rsOk 0 0 []

/-! ### Notices (Table 11.8) -/

/-- A NOTICE of kind `k`. -/
def noticeReceive (s : State) (p : Pkt) (k : Nat) (body : State → Handle → State) : Out :=
  serviceReceive s p (pktOp p == 0x27 && bytesAt p.body 0 8 == k) fun s =>
    if p.body.length < 16 then .next (s.respond p.header rsBadParam 0 0 [])
    else .next (body s (BitVec.ofNat 64 (bytesAt p.body 8 8)))

/-- The answer to a HANDOFF_ASK that reserved space: the counter, and the staging offset above it. -/
def State.answerAsk (s : State) (hdr : BitVec 512) (i : Incoming) : State :=
  s.respond hdr rsOk 0 (i.counter + 65536 * i.offset) []

/-- HANDOFF_ASK (R291): space is reserved, or refused. -/
def execHandoffAsk (p : Pkt) (s : State) : Out :=
  noticeReceive s p nHandoffAsk fun s h =>
    let src := hdrField p.header 32 13
    let bytes := bytesAt p.body 16 8
    let same := s.commons.incoming.find? fun i => i.handle == h && i.source.toNat == src && i.bytes == bytes
    if (s.sess? h).isSome then s.respond p.header rsConflict 0 0 []
    else match same with
      | some i => s.answerAsk p.header i
      | none => match s.reserveIncoming src h bytes with
        | .error st => s.respond p.header st 0 0 []
        | .ok (s1, i) => s1.answerAsk p.header i

/-- HOME_CHANGED (R291): the source frees its copy. -/
def execHomeChanged (p : Pkt) (s : State) : Out :=
  noticeReceive s p nHomeChanged fun s h =>
    let v := bytesAt p.body 16 8
    let s1 := match s.sess? h with
      | none => s
      | some x =>
        if v ≤ x.homeVersion then s
        else match x.handover with
          | some hd => s.homeLeft h hd.dest.toNat v
          | none => s.regCall h 0x20 (natToBytes 8 h.toNat) (.registry h)
    s1.respond p.header rsOk 0 0 []

/-- The mirror slices go back to their node, and this device stops answering (R297). -/
def State.giveBack (s : State) (d : Nat) (hdr : BitVec 512) : State :=
  let es := s.partner.slices.flatMap fun sl => sl.2.entries.map (·.2)
  let s1 := { s with partner := { s.partner with standIn := false } }
  if es.isEmpty then s1.respond hdr rsOk 0 0 []
  else es.foldl (fun t e => t.request d 0x28 0 e.bytes (.giveBack hdr)) s1

/-- RESTARTED (R295, R297): the partner's mirror slice goes back to it before it answers for its slice again. -/
def execRestarted (p : Pkt) (s : State) : Out :=
  noticeReceive s p nRestarted fun s _ =>
    let src := hdrField p.header 32 13
    let busy := s.commons.requests.any fun r => match r.use with | .giveBack _ => true | _ => false
    if s.partner.node.map (·.toNat) != some src then s.respond p.header rsOk 0 0 []
    else if busy then s
    else s.giveBack src p.header

/-- NOTICE RESTARTED to a node (R295). -/
def State.sendRestarted (s : State) (d : Nat) : State := s.request d 0x27 0 (noticeBody nRestarted nullHandle []) .restarted

/-! ### Timers of the registry and of handoffs (R290, R291, R300) -/

/-- OFFER_EXPIRY: 2^26 cycles after the registry applied it, the offer is cleared (R290). -/
def execOfferExpiry (h : Handle) (s : State) : Out :=
  match s.entry? h with
  | none => stutter s
  | some e =>
    if e.handle == h && e.offerValid then
      .next (((s.at_ (e.offerAt + 2 ^ 26)).modEntry h fun e =>
        { e with offerNode := 0, offerValid := false, moving := false }).mirrorEntry h)
    else stutter s

/-- HANDOFF_CHECK: 2^20 cycles after its last WRITE of the data with neither notice nor fallback, the source reads the entry
(R291). -/
def execHandoffCheck (h : Handle) (s : State) : Out :=
  match (s.sess? h).bind (·.handover) with
  | none => stutter s
  | some hd =>
    let asked := s.commons.requests.any fun r => r.use == .registry h
    if hd.final && !hd.committed && !asked then
      .next ((s.at_ (hd.lastWrite + 2 ^ 20)).regCall h 0x20 (natToBytes 8 h.toNat) (.registry h))
    else stutter s

/-- A request accepted under the map before the present one has not completed. -/
def State.drainBusy (s : State) : Bool :=
  s.commons.attends.any (fun a => decide (hdrField a.1 256 64 < s.commons.epoch))
    || s.pens.any (fun q => q.2.indexes.any fun i => i.2.searches.any fun f => match f.remote with
        | some hdr => decide (hdrField hdr 256 64 < s.commons.epoch) | none => false)
    || s.commons.requests.any fun r => match r.use with
        | .copyOut hdr => decide (hdrField hdr 256 64 < s.commons.epoch) | _ => false

/-- A grant that the map removed is enforced: its extents are freed (R300). -/
def State.dropGrants (s : State) : State :=
  let gone (g : Grant) : Bool := (grantIn s.commons.map g.node.toNat g.pen).isNone
  let dead := s.commons.grants.filter gone
  let s1 := { s with commons := { s.commons with grants := s.commons.grants.filter fun g => !gone g } }
  dead.foldl (fun t g =>
    let n := (g.extents.map (·.size)).sum
    if n = 0 then t else t.raise 0 0x0606 (g.node.toNat + 65536 * g.pen) n) s1

/-- DRAIN_FENCE_END: 2^22 cycles after the epoch was installed, with nothing of the earlier map left (R300). -/
def execDrainFenceEnd (s : State) : Out :=
  match s.commons.fenceEnd with
  | none => stutter s
  | some t =>
    if s.drainBusy then stutter s
    else
      let s1 := s.at_ t
      .next ({ s1 with commons := { s1.commons with fenceEnd := none, oldMap := [] } }).dropGrants

/-! ### Routes and maps (R280, R298 to R301) -/

/-- The list has a member twice. -/
def hasDup : List Nat → Bool
  | [] => false
  | a :: l => l.contains a || hasDup l

/-- A Commons port held OFF that a route names wakes and trains (15 R370, 11 R276). -/
def State.routePort (s : State) (p : Nat) : State :=
  match assocGet p s.commons.ports with
  | some q =>
    if q.state = .off then
      (s.askWake 3 (85 + p)).modPort (.commons p) fun q =>
        { q with state := .training, since := s.clock.now, attempts := 0 }
    else s
  | none => s

/-- ROUTE_SET (R280, R295). -/
def execRouteSet (mb : Mb) (s : State) : Out :=
  mbRun s mb 0x0040 fun s c =>
    let n := operand c.desc 0 2
    let ports := (List.range 4).map fun i => operand c.desc (2 + i) 1
    let used := ports.filter (· != 0xFF)
    unlessBad s [(16, decide (0x1FFF < n) || n == s.node), (18, hasDup used || used.any fun p => decide (18 ≤ p))]
      (if used.isEmpty then .now { s with commons := { s.commons with routes := assocDel n s.commons.routes } } rOk
      else
        let s1 := { s with commons := { s.commons with routes := assocSet n used s.commons.routes } }
        let s2 := if assocHas n s.commons.routes then s1 else s1.sendRestarted n
        .now (used.foldl State.routePort s2).joinRoute rOk)

/-- A composition map record (Table 11.10). -/
def parseMapRec (bs : List Byte) : MapRec :=
  let v := bytesToNat bs
  { kind := bitsOf v 0 4, node := BitVec.ofNat 13 (bitsOf v 8 13), raw := bs }

/-- Bits of a record that its KIND does not use (Table 11.10). -/
def MapRec.reserved (r : MapRec) : Bool :=
  let v := bytesToNat r.raw
  bitsOf v 21 3 != 0 || bitsOf v 34 6 != 0 || bitsOf v 50 14 != 0 || bitsOf v 77 3 != 0
    || (match r.kind with
      | 1 => bitsOf v 24 26 != 0 || bitsOf v 64 64 != 0
      | 2 => bitsOf v 64 13 != 0
      | 3 => bitsOf v 4 4 != 0 || bitsOf v 24 26 != 0 || bitsOf v 80 48 != 0
      | _ => bitsOf v 4 4 != 0 || bitsOf v 24 26 != 0 || bitsOf v 64 64 != 0)

/-- Two GRANT records name one node and pen. -/
def dupGrant (m : List MapRec) : Bool :=
  let keys := (m.filter fun r => r.kind == 2).map fun r => r.node.toNat * 1024 + bitsOf (bytesToNat r.raw) 24 10
  hasDup keys

/-- A map that R299 refuses. -/
def State.mapBad (s : State) (m : List MapRec) : Bool :=
  let gateways := (match s.harvest.checkpoint with | some c => [c.gateway] | none => [])
    ++ (match s.harvest.restore with | some r => [r.gateway] | none => [])
  (m.any fun r => r.kind == 0 || decide (4 < r.kind) || r.reserved || r.node.toNat == s.node)
    || dupGrant m
    || (m.any fun r => r.kind == 2 && (s.pen? r.localPen).isNone)
    || (s.sessions.any fun x => x.2.localPen.isSome && match x.2.handedFrom with
        | some n => (grantIn m n.toNat (handlePen x.1)).isNone | none => false)
    || (gateways.any fun g => !m.any fun r => r.kind == 4 && r.node == g)

/-- Pools that a new map no longer names: open moves to them are abandoned, and their sheaves are lost (R300, R301). -/
def State.losePools (s : State) (old : List MapRec) : State :=
  let named (n : Nat) : Bool := s.commons.map.any fun r => r.kind == 1 && r.node.toNat == n
  let gone := ((old.filter fun r => r.kind == 1).map (·.node.toNat)).filter fun n => !named n
  let s1 := (s.moves.filter fun m => (m.src == .t3 || m.dst == .t3) && m.state != .freeing && gone.contains m.dstNode.toNat).foldl
    State.abandonMove s
  let lost (f : Sheaf) : Bool := !f.shared && f.tier == .t3 && gone.contains f.node.toNat
  (s1.sessions.filter fun x => x.2.map.any lost).foldl (fun t x => t.faultSession x.1 .homeLost lost) s1

/-- What a leaving pool asks of its client (R301): every sheaf there is moved home by ordinary moves. -/
def State.leavePools (s : State) : State :=
  let leaving := s.leavingPools
  let s1 := s.sessions.foldl (fun t x =>
    (x.2.map.filter fun f => f.owner == x.1 && !f.shared && f.tier == .t3 && leaving.contains f.node.toNat).foldl (fun t f =>
      t.queueMove (.sheaf f.owner f.layer f.ordinal) .t3 (if 0 < t.quota (handlePen x.1) .t2 then .t2 else .t1) none) t) s
  leaving.foldl (fun t n => t.checkDrained n) s1

/-- A checkpoint or restore's gateway, and what waits for the map: COMPOSITION_SET installs it (R298 to R301). -/
def State.installMap (s : State) (epoch : Nat) (m : List MapRec) : State :=
  let old := s.commons.map
  let keep := match s.commons.fenceEnd with | some _ => s.commons.oldMap | none => old
  let s1 := { s with commons := { s.commons with
    epoch := epoch, map := m, oldMap := if s.commons.fenceEnd.isSome then keep else old,
    fenceEnd := some (s.clock.now + 2 ^ 22) } }
  ((s1.losePools old).leavePools).handBackAll

/-- COMPOSITION_SET (R298 to R301). `map`: the bytes at MAP. -/
def execCompositionSet (mb : Mb) (map : List Byte) (s : State) : Out :=
  mbRun s mb 0x0041 fun s c =>
    let epoch := operand c.desc 0 8
    let len := operand c.desc 16 4
    let m := (chunks 16 (len / 16) (map.take len)).map parseMapRec
    unlessBad s [(16, decide (epoch ≤ s.commons.epoch)), (32, len % 16 != 0 || decide (262144 < len))]
      (.now (s.installMap epoch m) rOk) [(24, s.mapBad m)]

end Sys2Proof.Machine
end

