-- ==== Sys2Proof/Machine/Harvest.lean ====
section
/-!
DEFINITION. Harvest checkpoints and restore (12_ledger_and_harvest R319 to R326, 16_security R394, R399, R400).
-/
namespace Sys2Proof.Machine

/-! ### Names (R321) -/

/-- Bytes as hex digits in their order. -/
def hexBytes (bs : List Byte) : List Byte := bs.flatMap fun b => hexOf 2 b.toNat

/-- The store key of a content object: "c/" and the name in hex. -/
def contentKey (name : List Byte) : List Byte := [99, 47] ++ hexBytes name

/-- The store key of a manifest part, and of the leftover list. -/
def partKey (stem : List Byte) (k : Nat) : List Byte := stem ++ [47, 109, 47] ++ hexOf 4 k
def leftoverKey (stem : List Byte) : List Byte := stem ++ [47, 120]

/-- The value of a hex digit, and the name that a content key spells. -/
def hexVal (b : Byte) : Nat := if b.toNat < 58 then b.toNat - 48 else b.toNat - 87
def nameOfKey (key : List Byte) : List Byte :=
  (chunks 2 32 (key.drop 2)).map fun d => BitVec.ofNat 8 (hexVal (d.getD 0 0) * 16 + hexVal (d.getD 1 0))

/-- A convergent object as stored (16 R400). -/
def convObject (name plain : List Byte) : List Byte := Config.sealObject (convKey name) name none plain

/-! ### Store verbs (11 R304, Table 11.11) -/

/-- The parts of a PUT or PUT_IF_ABSENT of an object: each with PART_OFFSET, the FINAL flag and its data. -/
def State.storePut (s : State) (gw op : Nat) (key data : List Byte) : State :=
  let n := max 1 (ceilDiv data.length 8388608)
  (List.range n).foldl (fun t i =>
    t.request gw op 0 (natToBytes 2 key.length ++ key ++ natToBytes 8 (i * 8388608) ++ natToBytes 1 (bitNat (i + 1 == n))
      ++ (data.drop (i * 8388608)).take 8388608) (.store key)) s

/-- A COMMIT of a name to a target, expecting a target or none. -/
def commitBody (name target : List Byte) (expected : List Byte) : List Byte :=
  natToBytes 2 name.length ++ name ++ natToBytes 2 target.length ++ target ++ natToBytes 2 expected.length ++ expected

/-- A verb of Harvest is unanswered. -/
def State.storeBusy (s : State) : Bool := s.commons.requests.any fun r => match r.use with
  | .store _ => true | .harvestRead .. => true | .storeCommit => true | _ => false

/-! ### Content of a capture (R320) -/

/-- The content of a map entry at capture: its owner's captured sheaf, or the sheaf as it stands. -/
def State.capturedContent (s : State) (f : Sheaf) : Option Sheaf :=
  let named (g : Sheaf) : Bool := g.owner == f.owner && !g.shared && g.layer == f.layer && g.ordinal == f.ordinal
  let a := (assocGet f.owner s.harvest.capturing).bind fun x => x.map.find? fun g => named g && !g.payload.isEmpty
  a.or ((s.sheafAt f).bind fun g => if g.payload.isEmpty then none else some g)

/-- The convergent name of a map entry's sealed sheaf: zeros where its content is not held here. -/
def State.entryName (s : State) (f : Sheaf) : List Byte :=
  match s.capturedContent f with
  | some g => if f.isSealed then convName (handlePen f.owner) g.format g.count g.payload else List.replicate 32 0
  | none => List.replicate 32 0

/-- The plaintext of a session object (Table 12.4). -/
def State.sessionObject (s : State) (h : Handle) (x : Session) : List Byte :=
  let m := mapOrder x.map
  x.region.header h x.ledgerStep ++ encodeRecs x.region.recs ++ x.bytes h
    ++ m.flatMap (fun f => f.entryBytes true ++ s.entryName f)
    ++ (m.filter fun f => !f.isSealed && !f.shared).flatMap (·.payload)

/-- The sealed sheaves that a captured session owns. -/
def Session.ownSealed (x : Session) (h : Handle) : List Sheaf :=
  x.map.filter fun f => f.owner == h && !f.shared && f.isSealed && !f.missing

/-- Content that is at a pool is read from it first: one READ at a time for a sheaf. -/
def State.readContent (s : State) (h : Handle) (x : Session) : State :=
  match s.layout? x.layout with
  | none => s
  | some l => ((x.ownSealed h).filter fun f => f.tier == .t3 && decide (f.payload.length < sheafBytes l f)).foldl (fun t f =>
      if t.commons.requests.any fun r => r.use == .harvestRead h f.layer f.ordinal then t
      else t.request f.node.toNat 2 (handlePen h)
        (readBody (4096 * f.location + f.payload.length) (min 8388608 (sheafBytes l f - f.payload.length)))
        (.harvestRead h f.layer f.ordinal)) s

/-- Every sheaf's content of a captured session is here. -/
def State.contentHere (s : State) (h : Handle) (x : Session) : Bool :=
  match s.layout? x.layout with
  | none => true
  | some l => (x.ownSealed h).all fun f => f.tier != .t3 || decide (sheafBytes l f ≤ f.payload.length)

/-- One content object goes to the gateway, unless it is known to be there (R321). -/
def State.writeContent (s : State) (gw pen : Nat) (name plain : List Byte) : State :=
  let obj := convObject name plain
  if ((assocGet gw s.harvest.known).getD []).contains name then s.bumpPen pen .ckptDedupBytes obj.length
  else (s.storePut gw 0x41 (contentKey name) obj).bumpPen pen .ckptBytes obj.length

/-- A captured session's objects go to the gateway: sheaves, then the session object. -/
def State.writeSession (s : State) (c : Checkpoint) (h : Handle) (x : Session) : State :=
  let gw := c.gateway.toNat
  let p := handlePen h
  let s1 := (x.ownSealed h).foldl (fun t f => t.writeContent gw p (convName p f.format f.count f.payload) f.payload) s
  let key := sessionKey (ckptPrefix c.name s.node c.seq) h
  let d := s1.draw
  let obj := Config.sealObject (ckptKey p) key (some d.1) (s.sessionObject h x)
  let s2 := (d.2.storePut gw 0x40 key obj).bumpPen p .ckptBytes obj.length
  { s2 with harvest := { s2.harvest with checkpoint := s2.harvest.checkpoint.map fun c =>
      { c with keys := c.keys ++ [key], objects := c.objects ++ [(h, obj.length, sha256 obj)] } } }

/-! ### Index objects (Table 12.4) -/

/-- A version as a flash sketch entry (08 Table 8.6). -/
def IndexVersion.entry (v : IndexVersion) (params : BitVec 64) : List Byte :=
  packBytes (sketchEntryBytes params) [(48, v.item), (16, v.label), (48, v.insSeq.getD 0), (16, 0),
    (48, v.delSeq.getD 0xFFFFFFFFFFFF), (16, 0), (indexSketchBits params, v.sketch.toNat)]

/-- The strips of the committed generation that hold anything: their bytes, entries and then vectors. -/
def Index.stripObjects (x : Index) : List (List Byte) :=
  ((x.versions.filterMap fun v => x.stripIn x.generation v).eraseDups).map fun t =>
    let vs := x.versions.filter fun v => x.stripIn x.generation v == some t
    vs.flatMap (fun v => v.entry x.params) ++ vs.flatMap (·.vector)

/-- The plaintext of an index object: PARAMS, commit sequence, the counts of the side list, the tombstones and the strip
names, and these. -/
def Index.object (x : Index) (pen : Nat) : List Byte :=
  let side := x.versions.filter fun v => v.gen.isNone
  let dead := x.versions.filter fun v => v.gen.isSome && match v.delSeq with | some d => decide (x.genSeq < d) | none => false
  let names := x.stripObjects.map fun b => convName pen 0xFF 0 b
  packBytes 40 [(64, x.params.toNat), (64, x.commitSeq), (64, side.length), (64, dead.length), (64, names.length)]
    ++ side.flatMap (fun v => v.entry x.params ++ v.vector)
    ++ dead.flatMap (fun v => packBytes 16 [(48, v.item), (16, 0), (48, v.delSeq.getD 0), (16, 0)]) ++ names.flatten

/-- Every index's objects go to the gateway. -/
def State.writeIndexes (s : State) (c : Checkpoint) : State :=
  let gw := c.gateway.toNat
  let stem := ckptPrefix c.name s.node c.seq
  let all := s.pens.flatMap fun q => q.2.indexes.map fun i => (q.1, i.1, i.2)
  let s1 := all.foldl (fun t i =>
    let t1 := i.2.2.stripObjects.foldl (fun t b => t.writeContent gw i.1 (convName i.1 0xFF 0 b) b) t
    let key := stem ++ [47, 105, 47] ++ hexOf 4 i.1 ++ hexOf 8 i.2.1
    let d := t1.draw
    let obj := Config.sealObject (ckptKey i.1) key (some d.1) (i.2.2.object i.1)
    let t2 := (d.2.storePut gw 0x40 key obj).bumpPen i.1 .ckptBytes obj.length
    { t2 with harvest := { t2.harvest with checkpoint := t2.harvest.checkpoint.map fun c => { c with keys := c.keys ++ [key] } } }) s
  { s1 with harvest := { s1.harvest with checkpoint := s1.harvest.checkpoint.map fun c => { c with indexes := true } } }

/-! ### Manifests (R324, Tables 12.6 and 12.7) -/

/-- A pen as the manifest holds it: the PEN_CREATE operands and 16 reserved bytes. -/
def PenCfg.manifest (c : PenCfg) (p : Nat) : List Byte :=
  packBytes 64 [(16, p), (48, 0), (64, c.t1Quota), (64, c.t2Quota), (64, c.t3Quota), (32, c.sessionsMax), (16, c.ringsMax),
    (8, c.fidelity), (8, 0), (32, c.energyFloor), (32, 0), (128, 0)]

/-- The settings back from a manifest's bytes. -/
def penCfgFrom (bs : List Byte) : Nat × PenCfg :=
  let v := bytesToNat (bs.take 48)
  (bitsOf v 0 16, { t1Quota := bitsOf v 64 64, t2Quota := bitsOf v 128 64, t3Quota := bitsOf v 192 64,
                    sessionsMax := bitsOf v 256 32, ringsMax := bitsOf v 288 16, fidelity := bitsOf v 304 8,
                    energyFloor := bitsOf v 320 32 })

/-- The registry entries that a manifest carries. -/
def State.manifestEntries (s : State) : List RegEntry :=
  (s.slice :: s.harvest.aliases.map (·.2)).flatMap fun sl => (sl.entries.map (·.2)).filter fun e => e.life != .free

/-- A session's entry (Table 12.7). -/
def manifestSession (x : Session) (o : Handle × Nat × List Byte) : List Byte :=
  packBytes 32 [(64, o.1.toNat), (64, x.ledgerStep), (28, x.positions), (4, 0), (28, x.kvPositions), (3, 0),
    (1, bitNat (x.state == .closed)), (64, o.2.1)] ++ o.2.2

/-- The sections end to end. -/
def State.manifestSections (s : State) (c : Checkpoint) : List Byte :=
  let os := sortBy (fun a b => decide (a.1.toNat ≤ b.1.toNat)) c.objects
  s.pens.flatMap (fun q => q.2.cfg.manifest q.1) ++ s.layouts.flatMap (fun l => l.2.raw)
    ++ s.pens.flatMap (fun q => q.2.constraints.flatMap fun k =>
        natToBytes 2 k.1 ++ natToBytes 2 q.1 ++ natToBytes 4 k.2.source.length ++ k.2.source)
    ++ s.manifestEntries.flatMap RegEntry.bytes
    ++ os.flatMap (fun o => match assocGet o.1 s.harvest.capturing with | some x => manifestSession x o | none => [])
    ++ s.pens.flatMap (fun q => q.2.indexes.flatMap fun i =>
        packBytes 32 [(32, i.1), (16, q.1), (16, 0), (64, i.2.params.toNat), (64, i.2.commitSeq), (64, 0)])
    ++ s.harvest.aliases.flatMap fun a => natToBytes 2 a.1.toNat

/-- The header of Table 12.6. -/
def State.manifestHeader (s : State) (c : Checkpoint) : List Byte :=
  let prev := match (s.harvest.committed.find? fun k => k.1 == c.name) with
    | some k => k.2.2.2 | none => List.replicate 32 0
  packBytes 72 [(32, 0x4C594D46), (8, 1), (8, 0), (1, 0), (15, 0), (13, s.node), (51, 0), (64, Config.serial.toNat),
    (32, s.commons.incarnation.toNat), (32, 0), (64, c.seq), (24, s.fwVersion), (40, 0), (32, c.parts.length + 1),
    (32, c.objects.length), (32, s.manifestEntries.length), (16, s.pens.length), (8, s.layouts.length),
    (8, s.harvest.aliases.length), (16, (s.pens.map fun q => q.2.indexes.length).sum), (16, 0),
    (32, (s.pens.map fun q => q.2.constraints.length).sum)]
    ++ prev ++ List.replicate 152 0

/-- Part 0: header, digests, signature, certificate. -/
def State.manifestPart0 (s : State) (c : Checkpoint) : List Byte :=
  let front := s.manifestHeader c ++ c.parts.flatMap sha256
  front ++ natToBytes 64 (Config.sign front).toNat ++ natToBytes 4 Config.certificate.length ++ Config.certificate

/-! ### An attempt (R322) -/

/-- Change the attempt in progress. -/
def State.modCheckpoint (s : State) (g : Checkpoint → Checkpoint) : State :=
  { s with harvest := { s.harvest with checkpoint := s.harvest.checkpoint.map g } }

/-- A leftover list, as bytes. -/
def leftoverBytes (keys : List (List Byte)) : List Byte := keys.flatMap fun k => natToBytes 2 k.length ++ k

/-- No session counts as captured. -/
def State.uncapture (s : State) : State :=
  let free (x : Handle × Session) : Handle × Session := (x.1, { x.2 with captured := false })
  { s with sessions := s.sessions.map free }

/-- Keys of a leftover list that its gateway could not take wait for the next checkpoint there (R322). -/
def State.oweLeftover (s : State) (gw : Nat) (keys : List (List Byte)) : State :=
  { s with harvest := { s.harvest with
      leftover := assocSet gw ((assocGet gw s.harvest.leftover).getD [] ++ keys) s.harvest.leftover } }

/-- The map in force names a node as GATEWAY: only such a node is sent store verbs (11 R304). -/
def State.gatewayNamed (s : State) (gw : BitVec 13) : Bool := s.commons.map.any fun r => r.kind == 4 && r.node == gw

/-- The attempt ends (R322): outcome 0 OK, 1 CONFLICT, 2 FAILED. -/
def State.endCheckpoint (s : State) (outcome : Nat) : State :=
  match s.harvest.checkpoint with
  | none => s
  | some c =>
    let gw := c.gateway.toNat
    let stem := ckptPrefix c.name s.node c.seq
    let mine (u : ReqUse) : Bool := match u with
      | .store _ => true | .harvestRead .. => true | .storeCommit => true | _ => false
    let s1 := State.uncapture { s with
      commons := { s.commons with requests := s.commons.requests.filter fun r => !mine r.use },
      harvest := { s.harvest with checkpoint := none, capturing := [] } }
    let s2 := if outcome = 0 then
        (match assocGet gw s1.harvest.leftover with
        | some ks => ({ s1 with harvest := { s1.harvest with leftover := assocDel gw s1.harvest.leftover } }).storePut gw 0x40
            (leftoverKey stem) (leftoverBytes ks)
        | none => s1)
      else if s1.gatewayNamed c.gateway then s1.storePut gw 0x40 (leftoverKey stem) (leftoverBytes c.keys)
      else s1.oweLeftover gw c.keys
    s2.raise 0 0x0705 c.seq outcome

/-- Objects are written: the slice is captured last, and the manifest's later parts go out (R320, R322). -/
def State.startManifest (s : State) (c : Checkpoint) : State :=
  let b := s.manifestSections c
  let parts := chunks 8388608 (ceilDiv b.length 8388608) b
  let stem := ckptPrefix c.name s.node c.seq
  let s1 := (parts.zipIdx).foldl (fun t p => t.storePut c.gateway.toNat 0x40 (partKey stem (p.2 + 1)) p.1) s
  s1.modCheckpoint fun c => { c with phase := 1, parts := parts,
                                     keys := c.keys ++ (List.range parts.length).map fun i => partKey stem (i + 1) }

/-- Harvest's share of a service step for a checkpoint in progress (R128, R320 to R322). What needs fresh random values is
held while the entropy source fails (16 R393). -/
def State.checkpointStep (s : State) : State :=
  match s.harvest.checkpoint with
  | none => s
  | some c =>
    let stem := ckptPrefix c.name s.node c.seq
    let gw := c.gateway.toNat
    if !s.gatewayNamed c.gateway then s.endCheckpoint 2
    else if !s.security.entropyOk then s
    else match c.phase with
      | 0 =>
        let s1 := (s.sessions.filter fun x => x.2.flock.isNone).foldl (fun t x => t.captureSession x.1) s
        let s2 := s1.harvest.capturing.foldl (fun t x =>
          if c.objects.any fun o => o.1 == x.1 then t
          else if t.contentHere x.1 x.2 then t.writeSession c x.1 x.2
          else t.readContent x.1 x.2) s1
        let s3 := if c.indexes then s2 else s2.writeIndexes c
        let left := s3.sessions.any fun x => !x.2.captured && x.2.state != .faulted
        match s3.harvest.checkpoint with
        | some c3 =>
          if left || s3.storeBusy || s3.harvest.capturing.any (fun x => !c3.objects.any fun o => o.1 == x.1) then s3
          else s3.startManifest c3
        | none => s3
      | 1 =>
        if s.storeBusy then s
        else
          let p0 := s.manifestPart0 c
          (s.storePut gw 0x40 (partKey stem 0) p0).modCheckpoint fun c =>
            { c with phase := 2, header := p0, keys := c.keys ++ [partKey stem 0] }
      | 2 =>
        if s.storeBusy then s
        else
          let old := match s.harvest.committed.find? fun k => k.1 == c.name with
            | some k => partKey (ckptPrefix c.name s.node k.2.2.1) 0
            | none => []
          (s.request gw 0x43 0 (commitBody (c.name ++ [47] ++ hexOf 4 s.node) (partKey stem 0) old) .storeCommit).modCheckpoint
            fun c => { c with phase := 3 }
      | _ => s

/-- A PUT of the attempt is answered. -/
def State.storeAnswered (s : State) (gw : Nat) (key : List Byte) (ok : Bool) : State :=
  let list_ := key.drop (key.length - 2) == [47, 120]
  if ok then
    (if key.take 2 == [99, 47] then
      -- the key is the name in hex: it joins the set of names known stored
      let name := nameOfKey key
      let ks := (assocGet gw s.harvest.known).getD []
      if ks.contains name then s
      else { s with harvest := { s.harvest with known := assocSet gw (ks ++ [name]) s.harvest.known } }
    else s)
  else if list_ then s
  else s.endCheckpoint 2

/-- A leftover list that its gateway could not take waits for the next checkpoint there (R322). -/
def State.keepLeftover (s : State) (gw : Nat) (body : List Byte) : State :=
  let key := (body.drop 2).take (bytesAt body 0 2)
  let data := body.drop (2 + key.length + 9)
  s.oweLeftover gw (parse data.length data)
where
  /-- The keys of a leftover list. -/
  parse : Nat → List Byte → List (List Byte)
    | 0, _ => []
    | n + 1, bs => if bs.length < 2 then [] else
        ((bs.drop 2).take (bytesAt bs 0 2)) :: parse n (bs.drop (2 + bytesAt bs 0 2))

/-- COMMIT is answered (R322). -/
def State.commitAnswered (s : State) (status : Nat) : State :=
  match s.harvest.checkpoint with
  | none => s
  | some c =>
    if status = rsOk then
      let stem := ckptPrefix c.name s.node c.seq
      let rec_ := (c.name, c.gateway, c.seq, sha256 c.header)
      let kept := s.harvest.capturing.filter fun x => c.objects.any fun o => o.1 == x.1
      let done := (s.harvest.committed.filter fun k => k.1 != c.name) ++ [rec_]
      let h := { s.harvest with committed := done, last := some (stem, c.gateway), captured := kept }
      ({ s with harvest := h }).endCheckpoint 0
    else s.endCheckpoint (if status = rsConflict then 1 else 2)

/-- What a pool returns of a sheaf that is being captured; a session whose sheaf cannot be had is left out. -/
def State.harvestGot (s : State) (h : Handle) (ly o : Nat) (data : Option (List Byte)) : State :=
  match data with
  | some d =>
    let more (x : Session) : Session := x.modSheaf h ly o fun f => { f with payload := f.payload ++ d }
    { s with harvest := { s.harvest with capturing := assocMod h more s.harvest.capturing } }
  | none => { s with harvest := { s.harvest with capturing := assocDel h s.harvest.capturing } }

/-- CHECKPOINT (R319). `name`: the bytes at NAME. -/
def execCheckpoint (mb : Mb) (name : List Byte) (s : State) : Out :=
  mbRun s mb 0x0050 fun s c =>
    let gw := operand c.desc 0 2
    let n := operand c.desc 16 4
    unlessBad s [(16, !s.commons.map.any fun r => r.kind == 4 && r.node.toNat == gw), (32, n == 0 || decide (128 < n))]
      (if s.harvest.checkpoint.isSome || s.harvest.restore.isSome then (let r := retryLater s; .now r.1 r.2)
      else
        let seq := s.harvest.seq + 1
        let k : Checkpoint := { gateway := BitVec.ofNat 13 gw, seq := seq,
                                name := name.take n ++ List.replicate (n - name.length) 0 }
        .now (State.uncapture { s with harvest := { s.harvest with seq := seq, checkpoint := some k, capturing := [] } })
          { result := seq })

/-! ### Restore (R325, R326) -/

/-- A manifest's part 0 in its pieces: header, digests, what is signed, signature, and what follows. -/
structure Part0 where
  magic : Nat
  major : Nat
  abaper : Bool
  node : Nat
  serial : Nat
  seq : Nat
  partCount : Nat
  sessions : Nat
  entries : Nat
  pens : Nat
  layouts : Nat
  aliases : Nat
  indexes : Nat
  sets : Nat
  digests : List (List Byte)
  signed : List Byte
  signature : BitVec 512
  certLength : Nat
  key : BitVec 512
  deriving DecidableEq, Repr

/-- Part 0 as read (Table 12.6). -/
def parsePart0 (bs : List Byte) : Part0 :=
  let v := bytesToNat (bs.take 256)
  let n := bitsOf v 384 32
  let d := 32 * (n - 1)
  { magic := bitsOf v 0 32, major := bitsOf v 32 8, abaper := bitOf v 48, node := bitsOf v 64 13, serial := bitsOf v 128 64,
    seq := bitsOf v 256 64, partCount := n, sessions := bitsOf v 416 32, entries := bitsOf v 448 32, pens := bitsOf v 480 16,
    layouts := bitsOf v 496 8, aliases := bitsOf v 504 8, indexes := bitsOf v 512 16, sets := bitsOf v 544 32,
    digests := chunks 32 (n - 1) ((bs.drop 256).take d), signed := bs.take (256 + d),
    signature := BitVec.ofNat 512 (bytesAt bs (256 + d) 64), certLength := bytesAt bs (320 + d) 4,
    key := BitVec.ofNat 512 (bytesAt bs (324 + d) 64) }

/-- The manifest does not authenticate (R325). `certOk`: for KIND DEVICE, the certificate chains to Ebunlon's CA and the
signature verifies under it. -/
def State.manifestForged (s : State) (p : Part0) (certOk : Bool) : Bool :=
  p.magic != 0x4C594D46 || p.major != 1
    || (if p.abaper then !(s.security.operatorKeys.any fun k => k.2 == p.key
          && Config.ecdsaVerifies k.2 (sha256Nat p.signed) p.signature)
        else !certOk)

/-- A key's prefix before "/m/0000", or the prefix that a binding name leads to: the name, "/", and the sequence. -/
def manifestStem (name : List Byte) (p : Part0) : List Byte :=
  let cut := name.length - 7
  if 7 ≤ name.length && name.drop cut == [47, 109, 47, 48, 48, 48, 48] then name.take cut
  else name ++ [47] ++ hexOf 16 p.seq

/-- RESTORE ends (R326): outcome 0 OK, 1 CONFLICT, 2 FAILED. -/
def State.endRestore (s : State) (outcome : Nat) : State :=
  ({ s with harvest := { s.harvest with restore := none, gets := [] } }).raise 0 0x0706 0 outcome

/-- RESTORE (R325). `name`: the bytes at MANIFEST; `part0`: what the gateway returns for it. -/
def execRestore (mb : Mb) (name part0 : List Byte) (certOk : Bool) (s : State) : Out :=
  mbRun s mb 0x0051 fun s c =>
    let gw := operand c.desc 0 2
    let n := operand c.desc 16 4
    unlessBad s [(16, !s.commons.map.any fun r => r.kind == 4 && r.node.toNat == gw), (32, n == 0 || decide (255 < n))]
      (if s.harvest.checkpoint.isSome || s.harvest.restore.isSome then (let r := retryLater s; .now r.1 r.2)
      else
        let p := parsePart0 part0
        if s.manifestForged p certOk then .now s (rStatus .failedAuth)
        else if p.node != s.node || (p.serial != 0 && p.serial != Config.serial.toNat) then .now s (rBad 24)
        else if !s.sessions.isEmpty || s.slice.entries.any (fun e => e.2.life == .live || e.2.life == .regrow) then
          .now s (rBad 0xFFFF)
        else
          let stem := manifestStem (name.take n) p
          let r : Restore := { gateway := BitVec.ofNat 13 gw, stem := stem, part0 := part0 }
          let s1 := { s with harvest := { s.harvest with restore := some r, gets := [] } }
          .now ((List.range (p.partCount - 1)).foldl (fun t k =>
            t.request gw 0x42 0 (getBody (partKey stem (k + 1)) 0 8388608) (.storeGet (.part (k + 1)))) s1) rOk)

/-- The constraint sets of a manifest: SET_ID, pen and source, and the bytes they took. -/
def manifestSets : Nat → List Byte → List (Nat × Nat × List Byte) × Nat
  | 0, _ => ([], 0)
  | n + 1, bs =>
    let len := bytesAt bs 4 4
    let r := manifestSets n (bs.drop (8 + len))
    ((bytesAt bs 0 2, bytesAt bs 2 2, (bs.drop 8).take len) :: r.1, 8 + len + r.2)

/-- Steps 2 and 3 of R326: pens, layouts, constraint sets and registry entries; none where a LAYOUT_ID or SET_ID is
present with different content. -/
def State.installManifest (s : State) (p : Part0) (bs : List Byte) : Option (State × List (Handle × Session)) :=
  let pens := (chunks 64 p.pens bs).map penCfgFrom
  let b1 := bs.drop (64 * p.pens)
  let layouts := (chunks 256 p.layouts b1).map layoutOf
  let sets := manifestSets p.sets (b1.drop (256 * p.layouts))
  let b3 := b1.drop (256 * p.layouts + sets.2)
  let entries := (chunks 32 p.entries b3).map parseRegEntry
  let b4 := b3.drop (32 * p.entries)
  let stub (e : List Byte) : Handle × Session :=
    let v := bytesToNat (e.take 32)
    (BitVec.ofNat 64 (bitsOf v 0 64), { layout := 0, ledgerStep := bitsOf v 64 64, positions := bitsOf v 128 28,
                                        kvPositions := bitsOf v 160 28 })
  let sess := (chunks 64 p.sessions b4).map stub
  let al := (chunks 2 p.aliases (b4.drop (64 * p.sessions + 32 * p.indexes))).map fun a => BitVec.ofNat 13 (bytesToNat a)
  let clash := layouts.any (fun l => match s.layout? l.id with | some o => o.raw != l.raw | none => false)
    || sets.1.any fun k => match (s.pen? k.2.1).bind fun q => assocGet k.1 q.constraints with
      | some o => o.source != k.2.2 | none => false
  if clash then none
  else
    let s1 := pens.foldl (fun t c => if (t.pen? c.1).isSome then t
      else { t with pens := assocSet c.1 { cfg := c.2, createdAt := s.clock.now } t.pens,
                    penGens := assocSet c.1 ((assocGet c.1 t.penGens).getD 0 + 1) t.penGens }) s
    let s2 := layouts.foldl (fun t l => { t with layouts := assocSet l.id l t.layouts }) s1
    let s3 := sets.1.foldl (fun t k => match compileSource k.2.2 with
      | some c => t.modPen k.2.1 fun q => { q with constraints := assocSet k.1 c q.constraints }
      | none => t) s2
    let put (t : State) (e : RegEntry) : State :=
      let n := handleNode e.handle
      if n = t.node then { t with slice := t.slice.put e }
      else { t with harvest := { t.harvest with aliases := t.harvest.aliases.map fun a =>
        if a.1.toNat = n then (a.1, a.2.put e) else a } }
    -- aliases change only by an Abaper manifest; a device that holds none takes those it is restored with (R329)
    let s4 := if p.abaper || s3.harvest.aliases.isEmpty then
        { s3 with harvest := { s3.harvest with aliases := al.map fun a => (a, {}) } } else s3
    some (entries.foldl (fun t e => (put t e).mirrorEntry e.handle) s4, sess)

/-- Nothing of a restore is outstanding: it ends. -/
def State.tryEndRestore (s : State) : State :=
  match s.harvest.restore with
  | none => s
  | some r =>
    let busy := s.commons.requests.any fun q => match q.use with
      | .storeGet _ => true | .fetch _ => true | _ => false
    if r.step = 4 && !busy then s.endRestore 0 else s

/-- Step 4 of R326 for one session: held in FAULTED with cause RESTORE, with what the Ledger area and the partner hold of
its groups. -/
def State.restoreSession (s : State) (h : Handle) : State :=
  let f : FlashCopy := (assocGet h s.flash).getD {}
  let x := s.sessionFrom h { recs := f.recs, outputPos := f.outputPos, streams := f.streams }
  let p := handlePen h
  let s1 := (((({ s with sessions := assocSet h { x with faultCause := some .restore } s.sessions }.bumpPen p .sessionFaults
    1).bumpPen p .faultRestore 1).raise p 0x0303 h.toNat (faultCode .restore)).regLife h .regrow).1
  match s.partner.node with
  | some d => s1.request d.toNat 0x30 0
      (mirrorHeader 2 1 0 ++ natToBytes 8 h.toNat ++ natToBytes 8 x.ledgerStep) (.fetch h)
  | none => s1.recover h fun _ => true

/-- Steps 2 to 4 of R326, once every part is here and checked. -/
def State.applyManifest (s : State) (r : Restore) : State :=
  let p := parsePart0 r.part0
  let bs := (List.range (p.partCount - 1)).flatMap fun k => (assocGet (.part (k + 1)) s.harvest.gets).getD []
  match s.installManifest p bs with
  | none => s.endRestore 1
  | some (t, sess) =>
    let t1 := { t with harvest := { t.harvest with restore := some { r with step := 4 }, gets := [], captured := sess,
                                                   last := some (r.stem, r.gateway) } }
    let mine := (t1.manifestEntries.filter fun e => e.life == .live && t1.isOwn e.home.toNat).map (·.handle)
    (mine.foldl (fun u h => u.restoreSession h) t1).tryEndRestore

/-- A manifest part is whole: it is checked against its digest (step 1 of R326). -/
def State.partGot (s : State) (k : Nat) : State :=
  match s.harvest.restore with
  | none => s
  | some r =>
    let p := parsePart0 r.part0
    let b := (assocGet (.part k) s.harvest.gets).getD []
    if (p.digests.getD (k - 1) []) != sha256 b then s.endRestore 2
    else if s.commons.requests.any fun q => match q.use with | .storeGet (.part _) => true | _ => false then s
    else s.applyManifest r

/-! ### Session and sheaf objects (R317, R326) -/

/-- How many map entries a session object holds: the entries and the tails fill what is left of it. -/
def entryCount (l : Layout) (rest : List Byte) : Nat → Nat → Nat → Nat
  | 0, k, _ => k
  | fuel + 1, k, tails =>
    if rest.length ≤ 96 * k + tails then k
    else
      let f := parseEntry (rest.drop (96 * k))
      entryCount l rest fuel (k + 1) (tails + if f.isSealed || f.shared then 0 else sheafBytes l f)

/-- A session object's plaintext: the session, and the name of each map entry's sheaf. -/
def State.parseObject (s : State) (bs : List Byte) : Option (Handle × Session × List (List Byte)) :=
  let hv := bytesToNat (bs.take 256)
  let rb := bitsOf hv 256 64
  let (h, x) := parseSession (bs.drop (256 + rb))
  match s.layout? x.layout with
  | none => none
  | some l =>
    let recs := parseRecs rb ((bs.drop 256).take rb)
    let streams := parseStreams hv [0, 1, 2, 3] []
    let rest := bs.drop (512 + rb)
    let n := entryCount l rest (rest.length / 96 + 1) 0 0
    let m := (List.range n).map fun i => parseEntry (rest.drop (96 * i))
    let names := (List.range n).map fun i => (rest.drop (96 * i + 64)).take 32
    let m1 := fillPayloads l (fun f => !f.isSealed && !f.shared) m (rest.drop (96 * n))
    some (h, { x with map := m1, region := { recs := recs, outputPos := bitsOf hv 192 28, streams := streams } }, names)

/-- A session object has come: record, map and tails from it, the CONFIG and HOST records of the Ledger above it, and its
sheaves are fetched (R317, R326). -/
def State.sessionGot (s : State) (h : Handle) (bs : List Byte) : State :=
  match s.sess? h, s.harvest.last with
  | some x, some (_, gw) =>
    match s.parseObject bs with
    | none => s.recoverFromLedger h
    | some (_, o, names) =>
      let region := if x.ledgerStep < o.ledgerStep then o.region else x.region
      let above := region.recs.filter fun r => decide (o.ledgerStep < r.step) && !r.inherited
      let smp := (above.filter fun r => r.kind == kConfig).foldl (fun t r =>
        samplerFrom t r.body fun i => bitOf (bytesAt r.body 32 2) i) o.sampler
      let step := max o.ledgerStep x.ledgerStep
      let t2 := decide (0 < s.quota (handlePen h) .t2)
      let own (f : Sheaf) : Sheaf :=
        if f.shared then f
        else if f.isSealed then { f with missing := true, payload := [], tier := if t2 then .t2 else .t1, run := 0, bale := false,
                                         node := s.ident.nodeNumber, refcount := max 1 f.refcount, sketchValid := false }
        else { f with tier := .t1, run := 0, bale := false, node := s.ident.nodeNumber, refcount := 1,
                      location := t1Location h f.ordinal f.layer }
      let y : Session := { o with state := .faulted, faultCause := some .restore, parkCause := none, sampler := smp,
                                  parkRecorded := x.parkRecorded, map := o.map.map own, tier := .t1, ledgerStep := step,
                                  region := { region with localStep := step }, faultedSince := x.faultedSince,
                                  homeVersion := x.homeVersion, moving := false, anchored := false, captured := x.captured,
                                  localPen := x.localPen, handedFrom := x.handedFrom, tailFill := o.tailFill }
      match s.layout? y.layout with
      | none => s.recoverFromLedger h
      | some l =>
        let z := y.rebuild l (s.setOf h y)
        let z1 := { z with inputPending := !z.region.unplaced.isEmpty, inputEnd := z.positions,
                           kvPositions := min o.kvPositions z.positions }
        let s1 := (s.modSess h fun _ => z1).bumpPen (handlePen h) .restored 1
        let want := (z1.map.zip names).filter fun f => f.1.missing
        let pen := (y.localPen).getD (handlePen h)
        -- in a restore what does not fit the pen's quota is recovered by R317 (R326)
        if s.harvest.restore.isSome && decide (s1.quota pen .t1 < s1.used pen .t1) then s.recoverFromLedger h
        else if want.isEmpty then s1.planRegrowth h
        else want.foldl (fun t f => t.request gw.toNat 0x42 0 (getBody (contentKey f.2) 0 8388608)
          (.storeGet (.sheaf h f.1.layer f.1.ordinal))) s1
  | _, _ => s

/-- A sheaf object of a session being restored has come: it is taken when its content has the name it was asked for, and
fits the pen's quota; once none is outstanding, what is still missing regrows (R317, R326). -/
def State.sheafGot (s : State) (h : Handle) (ly o : Nat) (name : List Byte) (plain : Option (List Byte)) : State :=
  let p := handlePen h
  let s1 := match plain, s.sess? h with
    | some b, some x =>
      match x.map.find? (fun f => f.owner == h && !f.shared && f.layer == ly && f.ordinal == o), s.layout? x.layout with
      | some f, some l =>
        let fits := decide (s.used p f.tier + b.length ≤ s.quota p f.tier)
        if convName p f.format f.count b == name && b.length == sheafBytes l f && fits then
          -- in T2 it takes a page run; with no group open it is not taken (06 R135)
          match (if f.tier = .t2 then s.newRun b.length else some (0, s)) with
          | none => s
          | some (run, s1) =>
            s1.modSess h fun x => x.modSheaf h ly o fun f =>
              let g := { f with payload := b, missing := false, run := run,
                                location := if run = 0 then t1Location h o ly else runLocation run }
              { g with sketch := sheafSketch l (g.positions l), sketchValid := true }
        else s
      | _, _ => s
    | _, _ => s
  if s1.commons.requests.any fun q => match q.use with | .storeGet (.sheaf k _ _) => k == h | _ => false then s1
  else s1.planRegrowth h

/-- A GET is answered: `data` is none when it failed (11 Table 11.11). A full part asks for the next one. -/
def State.getAnswered (s : State) (gw : Nat) (what : GetUse) (body : List Byte) (data : Option (List Byte)) : State :=
  let key := (body.drop 2).take (bytesAt body 0 2)
  let off := bytesAt body (2 + key.length) 8
  match data with
  | some d =>
    let all := (assocGet what s.harvest.gets).getD [] ++ d
    let keep (s : State) : State := { s with harvest := { s.harvest with gets := assocSet what all s.harvest.gets } }
    let drop (s : State) : State := { s with harvest := { s.harvest with gets := assocDel what s.harvest.gets } }
    if d.length = 8388608 then (keep s).request gw 0x42 0 (getBody key (off + 8388608) 8388608) (.storeGet what)
    else
      match what with
      | .part k => (keep s).partGot k
      | .session h => ((match Config.openObject (ckptKey (handlePen h)) key true all with
        | some p => (drop s).sessionGot h p
        | none => (drop s).recoverFromLedger h)).tryEndRestore
      | .sheaf h ly o =>
        let name := nameOfKey key
        ((drop s).sheafGot h ly o name (Config.openObject (convKey name) name false all)).tryEndRestore
  | none =>
    -- NOT_FOUND ends an object whose length is a whole number of parts
    let drop (s : State) : State := { s with harvest := { s.harvest with gets := assocDel what s.harvest.gets } }
    let all := (assocGet what s.harvest.gets).getD []
    match what with
    | .part k => if all.isEmpty then s.endRestore 2 else s.partGot k
    | .session h => (((drop s)).recoverFromLedger h).tryEndRestore
    | .sheaf h ly o => ((drop s).sheafGot h ly o (nameOfKey key) none).tryEndRestore

end Sys2Proof.Machine
end

