-- ==== Sys2Proof/Machine/Answers.lean ====
section
/-!
DEFINITION. What the answers to this device's own Commons requests settle, and what their absence does (11_commons_fabric
R281, R284 to R291, R297, R300, R304; 06_tiers_and_drovers R137; 07_split_attention R189; 12_ledger_and_harvest R312 to
R317, R322).
-/
namespace Sys2Proof.Machine

/-- The outstanding request of an id. -/
def State.request? (s : State) (id : Nat) : Option Request := s.commons.requests.find? fun r => r.pktId == id

/-- A request leaves the table. -/
def State.forgetRequest (s : State) (id : Nat) : State :=
  { s with commons := { s.commons with requests := s.commons.requests.filter fun r => r.pktId != id } }

/-- Change an outstanding request. -/
def State.modRequest (s : State) (id : Nat) (g : Request → Request) : State :=
  { s with commons := { s.commons with requests := s.commons.requests.map fun r => if r.pktId = id then g r else r } }

/-- A registry operation that this device sent (Table 11.8). -/
def Request.isRegistry (r : Request) : Bool :=
  let op := hdrField r.header 0 8
  decide (0x20 ≤ op) && decide (op ≤ 0x25)

/-- The partner node of the PARTNER record for node `n` (Table 11.10). -/
def State.partnerRecord (s : State) (n : Nat) : Option Nat :=
  (s.commons.map.find? fun r => r.kind == 3 && r.node.toNat == n).map fun r => bitsOf (bytesToNat r.raw) 64 13

/-! ### R297: the partner answers -/

/-- A registry operation whose node does not answer for its slice goes to the partner that the map names, or waits
(R297). -/
def State.askElsewhere (s : State) (r : Request) : State :=
  let h : Handle := BitVec.ofNat 64 (bytesAt r.body 0 8)
  let op := hdrField r.header 0 8
  let wait (s : State) : State := s.modRequest r.pktId fun q =>
    { q with retries := 0, busyUntil := none, sent := s.clock.now,
             waiting := if q.waiting.isSome then some s.clock.now else none }
  match s.partnerRecord (handleNode h) with
  | none => wait s
  | some d =>
    if s.isSelf (handleNode h) then (s.forgetRequest r.pktId).regCall h op r.body r.use
    else if d = s.node || d = r.dest.toNat then wait s
    else (s.forgetRequest r.pktId).request d op 0 r.body r.use

/-- The partner answers for this device's slice: every change that waits is answered PARTNER_ACTIVE, or asked for
there (R297). -/
def State.depose (s : State) (d : Nat) : State :=
  if s.partner.node.map (·.toNat) != some d then s
  else
    let own (q : RegPending) : Bool := handleNode q.handle == s.node
    let held := s.commons.regPending.filter own
    let s1 := { s with partner := { s.partner with deposed := true },
                       commons := { s.commons with regPending := s.commons.regPending.filter fun q => !own q } }
    held.foldl (fun t q => match q.origin with
      | .remote hdr => t.respond hdr rsPartnerActive 0 d []
      | .here use => t.request d q.op 0 q.body use) s1

/-! ### Sheaves at a pool -/

/-- The sessions of pen `p` with sheaves at node `d` lose them (R300). -/
def State.loseAt (s : State) (p d : Nat) : State :=
  let lost (f : Sheaf) : Bool := !f.shared && f.tier == .t3 && f.node.toNat == d
  (s.sessions.filter fun x => handlePen x.1 == p && x.2.map.any lost).foldl
    (fun t x => t.faultSession x.1 .homeLost lost) s

/-- Every session whose map names a sheaf faults with HOME_LOST: the pool no longer maps its extent (R300). -/
def State.loseSheaf (s : State) (h : Handle) (ly o : Nat) : State :=
  let hit (f : Sheaf) : Bool := f.owner == h && f.layer == ly && f.ordinal == o
  (s.sessions.filter fun x => x.2.map.any hit).foldl (fun t x => t.faultSession x.1 .homeLost hit) s

/-- ALLOC is answered OK: the payload goes out, at most 8 MiB in a WRITE (R137, R283). -/
def State.poolAllocated (s : State) (m : Move) (off : Nat) : State :=
  match s.subjectSheaves m.subject, (s.sess? m.subject.owner).bind fun x => s.layout? x.layout with
  | f :: _, some l =>
    let data := match m.format with | some t => transcodePayload l f t | none => f.payload
    let s1 := s.modMove m.id fun m => { m with extent := some (off / 4096) }
    (List.range (ceilDiv data.length 8388608)).foldl (fun t i =>
      t.request m.dstNode.toNat 1 (s.movePen m.subject)
        (writeBody (off + i * 8388608) 0xFFFF ((data.drop (i * 8388608)).take 8388608)) (.poolWrite m.id)) s1
  | _, _ => s.abandonMove { m with extent := some (off / 4096) }

/-- A pool refuses a move: it is abandoned, and the next pool in the map's order, if there is one, is tried (R137). -/
def State.poolRefused (s : State) (m : Move) : State :=
  let s1 := s.bumpPen (s.movePen m.subject) .t3Refused 1
  let tried := some m.dstNode.toNat
  if (s1.nextPool tried).isSome then s1.askAgain m m.retries tried else s1.abandonMove m

/-- A move's request at a pool is answered; `ok` has the bytes of a READ. -/
def State.poolAnswered (s : State) (m : Move) (status off : Nat) (data : List Byte) : State :=
  if status = rsOk then s.modMove m.id fun m => { m with parts := assocSet off data m.parts }
  else
    let s1 := s.abandonMove m
    match m.subject with
    | .session _ => s1
    | .bale .. => s1
    | .sheaf h ly o =>
      if status = rsDataFault then s1.faultSheaf h ly o
      else if status = rsDenied then s1.loseAt (handlePen h) m.dstNode.toNat
      else if status = rsNotMapped then s1.loseSheaf h ly o
      else s1

/-! ### Attention replies (07 R189) -/

/-- A pool's reply to an attention request: the header of Table 7.7, then its partial groups. -/
def State.attendAnswered (s : State) (f i ly node : Nat) (body : List Byte) (status : Nat) (payload : List Byte) : State :=
  match s.planEntry? f i with
  | none => s
  | some e =>
    if e.sitOut.isSome then s
    else
      let owner : Handle := BitVec.ofNat 64 (bytesAt body 8 8)
      let p := handlePen e.handle
      if status = rsOk then
        ((s.modPlanEntry f i fun e => { e with pool := e.pool ++ [(ly, node, owner, payload.drop 32)] }).deliver f i
          ly).tryEndStalls
      else
        let s1 := s.bumpPen p .remoteRefused 1
        if status = rsDataFault then s1.faultSheaf owner ly (bitsOf (bytesToNat (payload.take 32)) 128 20)
        else if status = rsNotHomed && !s1.regIsHere owner then
          -- the owner has moved: its registry node tells where (02 R49); the partials do not arrive (R189)
          s1.regAway owner 0x20 (natToBytes 8 owner.toNat) (.owner owner)
        else s1

/-! ### Settling a request -/

/-- Another request of the kind `p` is outstanding. -/
def State.outstanding (s : State) (p : ReqUse → Bool) : Bool := s.commons.requests.any fun r => p r.use

/-- The records of the groups that a FETCH brings. -/
def fetchedRecs (payload : List Byte) : List Rec :=
  ((parseGroups (payload.length / 8 + 1) payload).filter fun g => g.2.1 != 0).flatMap fun g =>
    parseRecs (g.2.2.length / 32 + 1) g.2.2

/-- The latest header that a FETCH brings. -/
def fetchedHeader (payload : List Byte) : Option (List Byte) :=
  (((parseGroups (payload.length / 8 + 1) payload).filter fun g => g.2.1 == 0).getLast?).map (·.2.2)

/-- A handoff's destination has reserved space, or refused (R291). -/
def State.askAnswered (s : State) (h : Handle) (status result : Nat) : State :=
  match (s.sess? h).bind (·.handover) with
  | none => s
  | some hd =>
    if status = rsOk && s.mayOffer h then
      let hd1 := { hd with counter := result % 65536, base := result / 65536 }
      (s.modSess h fun x => { x with handover := some hd1 }).regCall h 0x21
        (s.registryBody h ++ natToBytes 2 hd.dest.toNat) (.offer h)
    else s.stopHandoff h

/-- The groups of a session that came over are at the own partner, or the partner is lost: REG_COMMIT follows (R316). -/
def State.incomingAnswered (s : State) (h : Handle) : State :=
  if s.outstanding fun u => u == .incoming h then s else s.commitHandoff h

/-- An entry of the mirror slice is back at its node (R297). -/
def State.givenBack (s : State) (hdr : BitVec 512) : State :=
  if s.outstanding fun u => u == .giveBack hdr then s else s.respond hdr rsOk 0 0 []

/-- A request is answered with a status that ends it. -/
def State.settle (s0 : State) (r : Request) (status result : Nat) (payload : List Byte) : State :=
  let d := r.dest.toNat
  let op := hdrField r.header 0 8
  let s := s0.forgetRequest r.pktId
  let entry := if 32 ≤ payload.length then some (parseRegEntry payload) else none
  let move (id : Nat) (g : Move → State) : State := match s.moves.find? fun m => m.id == id with
    | some m => g m | none => s
  match r.use with
  | .registry _ => s.settleReg r.use op status result entry
  | .offer _ => s.settleReg r.use op status result entry
  | .commit _ => s.settleReg r.use op status result entry
  | .life .. => s.settleReg r.use op status result entry
  | .owner _ => s.settleReg r.use op status result entry
  | .ask h => s.askAnswered h status result
  | .mirror => if status = rsOk then s.syncStep else if status = rsPartnerActive then s.depose d else s.mirrorFailed d
  | .regMirror id =>
    if status = rsOk then s.regMirrored id else if status = rsPartnerActive then s.depose d else s.mirrorFailed d
  | .records _ _ => if status = rsOk then s.recordsAcked d result else s.mirrorFailed d
  | .incoming h => if status = rsOk then s.incomingAnswered h else (s0.mirrorFailed d).forgetRequest r.pktId
  | .fetch h => (if status = rsOk then s.finishFetch h (fetchedRecs payload) (fetchedHeader payload)
      else s.finishFetch h [] none).tryEndRestore
  | .restarted => if s.partner.node.map (·.toNat) = some d && s.partner.asking then s.registryFree else s
  | .giveBack hdr => s.givenBack hdr
  | .poolAlloc id => move id fun m => if status = rsOk then s.poolAllocated m result else s.poolRefused m
  | .poolWrite id => move id fun m => if status = rsOk then s else s.abandonMove m
  | .poolRead id off => move id fun m => s.poolAnswered m status off payload
  | .poolFree _ n _ => s.checkDrained n
  | .attend f i ly n => s.attendAnswered f i ly n r.body status payload
  | .copyOut hdr => s.respond hdr status 0 0 []
  | .store key =>
    let ok := status = rsOk || status = rsExists
    -- EXISTS decides on the first part and ends the later ones (Table 11.11)
    let s := if status = rsExists then s.dropRequests d (· == .store key) else s
    let s1 := s.storeAnswered d key ok
    if !ok && key.drop (key.length - 2) == [47, 120] then s1.keepLeftover d r.body else s1
  | .storeCommit => s.commitAnswered status
  | .storeGet what => s.getAnswered d what r.body (if status = rsOk then some payload else none)
  | .harvestRead h ly o => s.harvestGot h ly o (if status = rsOk then some payload else none)
  | .notice => s
  | .dropReq => s
  | .other => s

/-! ### Failure (R281, R286) -/

/-- A request has failed: no answer came (R286). -/
def State.failRequest (s0 : State) (r : Request) : State :=
  let d := r.dest.toNat
  let s := s0.forgetRequest r.pktId
  let move (s : State) (id : Nat) : State := match s.moves.find? fun m => m.id == id with
    | some m => s.abandonMove m | none => s
  if r.isRegistry then s0.askElsewhere r
  else match r.use with
  | .ask h => s.stopHandoff h
  | .mirror => s.mirrorFailed d
  | .regMirror _ => s.mirrorFailed d
  | .records _ _ => s.mirrorFailed d
  | .incoming _ => (s0.mirrorFailed d).forgetRequest r.pktId
  | .fetch h => (s.finishFetch h [] none).tryEndRestore
  | .restarted => if s.partner.node.map (·.toNat) = some d && s.partner.asking then s.sendRestarted d else s
  | .giveBack hdr => { s with commons := { s.commons with requests := s.commons.requests.filter fun q => q.use != .giveBack hdr } }
  | .poolAlloc id => move (s.bumpDev .unknownOut 1) id
  | .poolWrite id => move s id
  | .poolRead id _ => move s id
  | .poolFree _ n _ => (s.bumpDev .unknownOut 1).checkDrained n
  | .store key =>
    let s1 := s.storeAnswered d key false
    if key.drop (key.length - 2) == [47, 120] then s1.keepLeftover d r.body else s1
  | .storeCommit => s.commitAnswered rsNotFound
  | .storeGet what => s.getAnswered d what r.body none
  | .harvestRead h ly o => s.harvestGot h ly o none
  | .attend .. => s
  | .copyOut _ => s
  | .registry _ => s
  | .owner _ => s
  | .offer _ => s
  | .commit _ => s
  | .life _ _ => s
  | .notice => s
  | .dropReq => s
  | .other => s

/-- A STALE answer (Table 11.7, R286): an ATOMIC below the low-water mark ends there; otherwise the destination has
another incarnation, which the answer tells: a new stream begins, every memory request to the old one fails, and a service
request goes out again. -/
def State.staleAnswer (s : State) (r : Request) (inc : Nat) : State :=
  let d := r.dest.toNat
  let old (q : Request) : Bool := q.dest == r.dest && opMemory (hdrField q.header 0 8) && hdrField q.header 160 32 != inc
  let s1 := if (s.outStream d).incarnation = some (BitVec.ofNat 32 inc) then s else
    { s with commons := { s.commons with
      outs := assocSet d { pseq := 0, incarnation := some (BitVec.ofNat 32 inc) } s.commons.outs } }
  let s2 := (s.commons.requests.filter old).foldl (fun t q => t.failRequest q) s1
  match s2.request? r.pktId with
  | none => s2
  | some q => if opMemory (hdrField q.header 0 8) then s2.failRequest q else s2.reissue q

/-! ### Commands -/

/-- A response reaches the request it answers (R284, R285). -/
def State.answered (s : State) (r : Request) (status hint result : Nat) (payload : List Byte) : State :=
  -- a CONFLICT to a registry operation is counted where it is settled, as one answered inside this device is
  let s := if status = rsConflict && !r.isRegistry then s.bumpDev .conflicts 1 else s
  if status = rsBusy then s.modRequest r.pktId fun q => { q with busyUntil := some (s.clock.now + 1024 * hint) }
  else if status = rsStale then s.staleAnswer r result
  else if status = rsEpochStale then s.reissue r
  else if status = rsPartnerActive && r.isRegistry then s.askElsewhere r
  else s.settle r status result payload

/-- COMMONS_RESPONSE (R277, R284, Table 11.6). A response that matches no outstanding request changes nothing. -/
def execCommonsResponse (p : Pkt) (s : State) : Out :=
  pktReceive s p (pktOp p == 0x80) fun s =>
    let src := hdrField p.header 32 13
    if p.body.length < 32 then .next (s.bumpDev .msgDiscards 1)
    else
      let v := bytesToNat (p.body.take 32)
      match s.request? (hdrField p.header 384 64) with
      | none => .next (s.learn src (hdrField p.header 128 32))
      | some r =>
        if r.dest.toNat != src then .next (s.learn src (hdrField p.header 128 32))
        else .next ((s.answered r (bitsOf v 0 8) (bitsOf v 16 16) (bitsOf v 128 64) (p.body.drop 32)).learn src
          (hdrField p.header 128 32))

/-- REQUEST_RETRANSMIT (R286): 2^14 cycles after it was sent a request without a response goes out again, up to 8 times,
and then fails; one answered BUSY goes out again after its RETRY_HINT. -/
def execRequestRetransmit (pktId : Nat) (s : State) : Out :=
  match s.request? pktId with
  | none => stutter s
  | some r =>
    if r.waiting.isSome then stutter s
    else match r.busyUntil with
      | some t => .next (((s.at_ t).modRequest pktId fun q => { q with busyUntil := none }).resendRequest { r with busyUntil := none })
      | none =>
        let s1 := s.at_ (r.sent + 2 ^ 14)
        if r.retries < 8 then
          .next ((s1.modRequest pktId fun q => { q with retries := q.retries + 1 }).resendRequest r)
        else .next (s1.failRequest r)

/-- ROUTE_WAIT_EXPIRY (R281): a request that has waited 2^20 cycles fails. -/
def execRouteWaitExpiry (pktId : Nat) (s : State) : Out :=
  match s.request? pktId with
  | none => stutter s
  | some r =>
    match r.waiting with
    | none => stutter s
    | some t =>
      let s1 := s.at_ (t + 2 ^ 20)
      let d := r.dest.toNat
      let s2 := if (s1.nextRoute d).isSome then s1 else (s1.bumpDev .unreachable 1).raise 0 0x0604 d 0
      .next (s2.failRequest r)

end Sys2Proof.Machine
end

