-- ==== Sys2Proof/Machine/Service.lean ====
section
/-!
DEFINITION. The service plan (05_shepherd_planning R128; 06 R135, R136, R149, R151, R156; 07 R188; 08 R206, R207, R211;
12 R320 to R322; 15 R378; 00_scope R453): what one of its steps does.
-/
namespace Sys2Proof.Machine

/-- An entry of the service plan, in the order of R128. -/
inductive ServiceEntry where
  /-- A remote attention request. -/
  | attend (header : BitVec 512) (body : List Byte) (failed : Option Nat)
  /-- The searches of an index that come from rings of one class, or from other nodes. -/
  | scan (pen index : Nat) (latencyCritical : Bool)
  /-- A background move of a session bound to no step, or of none. -/
  | move (id : Nat)
  deriving DecidableEq, Repr

/-- A search comes from a latency-critical ring. -/
def State.searchUrgent (s : State) (q : Search) : Bool :=
  match q.cmd with
  | some c => (match s.ring? c.pen c.ring with | some g => g.latencyCritical | none => false)
  | none => false

/-- Pens and indexes. -/
def State.allIndexes (s : State) : List (Nat × Nat) := s.pens.flatMap fun q => q.2.indexes.map fun i => (q.1, i.1)

/-- The entries of a service step in order. An index goes with the class of its most urgent search. -/
def State.serviceEntries (s : State) : List ServiceEntry :=
  let scans := s.pens.flatMap fun q => (q.2.indexes.filter fun i => !i.2.searches.isEmpty).map fun i =>
    ServiceEntry.scan q.1 i.1 (i.2.searches.any s.searchUrgent)
  let urgent (e : ServiceEntry) : Bool := match e with | .scan _ _ b => b | _ => false
  s.commons.attends.map (fun a => ServiceEntry.attend a.1 a.2.1 a.2.2) ++ scans.filter urgent
    ++ (scans.filter fun e => !urgent e) ++ (s.backgroundMoves none).map fun m => ServiceEntry.move m.id

/-- The price of an entry (R111, 15 R381: the price model is the device's): kinds 3 and 4 after those of Table 5.4. Scans are in
the fixed part. -/
def State.servicePrice (s : State) : ServiceEntry → Nat
  | .attend _ body _ =>
    let n := (attendOrdinals body).length
    Config.price 3 false (bitsOf (bytesToNat (body.take 64)) 320 17) false [(bucketOf (128 * n), n)] 0
  | .scan .. => 0
  | .move id => match s.moves.find? fun m => m.id == id with
    | some m => Config.price 4 false (s.slotsOf [m]) false [] 0
    | none => 0

/-- The domains an entry needs: drovers, ox pairs and HBM stacks for attention, gleaners for a scan. -/
def serviceDomains : ServiceEntry → List Nat
  | .attend .. => (List.range 36).map (· + 13) ++ (List.range 12).map (· + 65)
  | .scan .. => (List.range 16).map (· + 49)
  | .move _ => []

/-- One domain at least of each kind of unit that an entry needs is in RUN, and what a request attends is in T1. A move wakes its
drover when it takes it. -/
def State.serviceReady (s : State) (e : ServiceEntry) : Bool :=
  let some_ (a n : Nat) : Bool := (List.range n).any fun i => s.domainRuns (a + i)
  match e with
  | .attend h body _ => some_ 13 4 && some_ 17 32 && some_ 65 12 && s.attendHome h body
  | .scan .. => some_ 49 16
  | .move _ => true

/-- Run one entry. -/
def State.serveEntry (s : State) : ServiceEntry → State
  | .attend h body failed =>
    ({ s with commons := { s.commons with attends := s.commons.attends.erase (h, body, failed) } }).serveAttend h body failed
  | .scan p id _ => s.searchStep p id
  | .move id => s.modMove id fun m => { m with placed := true }

/-- What an entry that cannot run yet waits for: its units' wake, and the promotion of what it attends. -/
def State.readyEntry (s : State) (e : ServiceEntry) : State :=
  let s1 := s.askWakes 2 (serviceDomains e)
  match e with
  | .attend h body _ => s1.promoteAttend h body
  | _ => s1

/-- Entries run in order, first-fit as a flock plan admits (R111, R128): one that the grant does not cover is passed over; one
whose units sleep wakes them and waits (15 R371). -/
def State.serveEntries : List ServiceEntry → Nat → State → State
  | [], _, s => s
  | e :: es, left, s =>
    let c := s.servicePrice e
    if left < c then State.serveEntries es left s
    else if s.serviceReady e then State.serveEntries es (left - c) (s.serveEntry e)
    else State.serveEntries es left (s.readyEntry e)

/-- Accepted PEN_CONFIGs take effect at a service-plan boundary, and complete (R453). -/
def State.applyPenConfigs (s : State) : State :=
  s.pens.foldl (fun t q => q.2.pendingCfg.foldl (fun t c =>
    (t.modPen q.1 fun r => { r with cfg := c.1, pendingCfg := r.pendingCfg.drop 1 }).mbFinish c.2 rOk) t) s

/-- A session is an entry of a step in progress, or of a plan delivered. -/
def State.inStep (s : State) (h : Handle) : Bool :=
  s.flocks.any fun k =>
    (match k.2.run with | some r => r.plan.entries.any fun e => e.handle == h | none => false)
      || (k.2.delivered.isSome && match k.2.next with | some p => p.entries.any fun e => e.handle == h | none => false)

/-- SESSION_CONFIGs of sessions in no step (R453). -/
def State.applySessionConfigs (s : State) : State :=
  (s.sessions.filter fun x => !x.2.configs.isEmpty && !s.inStep x.1).foldl (fun t x => t.applyConfigs x.1) s

/-- Reservations whose handoff never came are given up: the offer they wait for has expired (11 R290). -/
def State.expireIncoming (s : State) : State :=
  (s.commons.incoming.filter fun i => !i.committing && decide (i.asked + 2 ^ 26 < s.clock.now)).foldl
    (fun t i => t.dropIncoming i.handle) s

/-- What the service plan does in every step, whatever its grant: configurations, commits, the watermarks. -/
def State.serviceUpkeep (s : State) : State :=
  let s1 := s.applyPenConfigs.applySessionConfigs
  let s2 := s1.ageCommits.retryCommits.demoteAll.expireIncoming.handBackAll
  -- a flock that runs no step has no boundary of its own: its ending leases and the handovers of sessions in no step go here
  let s3 := (s2.flocks.filter fun k => k.2.run.isNone).foldl (fun t k => t.cancelLeases k.1 (·.ending)) s2
  let s4 := (s3.sessions.filter fun x => x.2.handover.isSome && !s3.inStep x.1).foldl (fun t x => t.handoverStep x.1) s3
  s4.flocks.foldl (fun t k => t.restage k.1) s4

/-! ### Flash channels that leave the census (13 R338) -/

/-- A unit that self-test finds lost leaves the census (R337, R338, R341). -/
def Recovery.dropUnit (r : Recovery) : ResetUnit → Recovery
  | .ox i => { r with oxen := r.oxen.filter (· != i) }
  | .drover i => { r with drovers := r.drovers.filter (· != i) }
  | .gleaner i => { r with gleaners := r.gleaners.filter (· != i) }
  | .flashController i =>
    { r with channels := r.channels.filter (· != i),
             lostChannels := if r.channels.contains i then r.lostChannels ++ [i] else r.lostChannels }
  | _ => r

/-- What a channel that leaves takes with it (06 R136): its data is read through parity and rewritten; the log of its group goes on
in a new stripe. A second channel of its group, lost before the rewrite is complete, loses the group; sessions with data in
stripes that both held fault. -/
def State.channelGone (s : State) (c : Nat) : State :=
  let g := c / 16
  let gone := s.recovery.lostChannels.filter fun d => d / 16 == g
  let left := { s with recovery := s.recovery.dropUnit (.flashController c) }
  let head := (assocGet g s.t2.heads).getD (0, 0)
  let closed := if head.2 = 0 then head else (head.1 + 1, 0)
  let s1 := { left with t2 := { left.t2 with heads := assocSet g closed left.t2.heads } }
  if gone.isEmpty || !s.recovery.channels.contains c then s1
  else
    let ids := s1.lostRuns g (c :: gone)
    let s2 := { s1 with t2 := { s1.t2 with lost := if s1.t2.lost.contains g then s1.t2.lost else s1.t2.lost ++ [g] } }
    let hit (x : Session) : Bool := (x.tier == .t2 && ids.contains x.run) || x.map.any (Sheaf.inRuns ids)
    (s2.sessions.filter fun x => hit x.2).foldl (fun t x => t.faultSession x.1 .homeLost (Sheaf.inRuns ids)) s2

/-- Moves that copy to a tier whose channel or stack has left, or on a drover that reset, are abandoned and queued again
(06 Table 6.8, Table 13.2). -/
def State.requeue (s : State) (p : Move → Bool) : State :=
  (s.moves.filter fun m => (m.state == .copying || m.state == .committing) && p m).foldl
    (fun t m => t.askAgain m m.retries none) s

/-- The group of a flash channel holds runs that a move is writing. -/
def State.writesGroup (s : State) (g : Nat) (m : Move) : Bool :=
  m.dst == .t2 && m.runs.any fun i => s.t2.runs.any fun r => r.id == i && r.group == g

/-- A flash channel leaves the census (R338). -/
def State.channelLeaves (s : State) (c : Nat) : State := ((s.requeue (s.writesGroup (c / 16))).channelGone c).censusChange true

/-- Blocks that a channel retires in a service step (06 R135): how many, wear decides. -/
def State.retireBlocks (s : State) : State :=
  let (n, s1) := s.draw
  s1.recovery.channels.foldl (fun t c =>
    let k := Config.blocksRetired n c
    ({ t with t2 := { t.t2 with retired := tallyAdd t.t2.retired c k 64 } }).bumpDev .blocksRetired k) s1

/-- Retired blocks exceed 1/8 of the channel's raw capacity (13 Table 13.4). -/
def State.wornOut (s : State) (c : Nat) : Bool := decide (Config.channelBlocks c < 8 * tallyGet s.t2.retired c)

/-- A channel whose retired blocks exceed 1/8 of its raw capacity leaves the census (13 R338). -/
def State.dropWorn (s : State) : State := (s.recovery.channels.filter s.wornOut).foldl State.channelLeaves s

/-- The work that the grant pays for: attention, scans, flash management, compaction and Harvest (R128). -/
def State.serviceWork (s : State) (left : Nat) : State :=
  let entries := s.serviceEntries
  let s0 := { s with moves := s.moves.map fun m => { m with placed := false } }
  let s1 := State.serveEntries entries left s0
  let s2 := s1.manageFlash.retireBlocks.dropWorn
  let s3 := s2.allIndexes.foldl (fun t i => (t.compact i.1 i.2).tryDestroyIndex i.1 i.2) s2
  let s4 := (s3.sessions.filter fun x => x.2.flock.isNone).foldl (fun t x => t.sketchForked x.1) s3
  s4.checkpointStep

/-- SERVICE_PLAN_STEP: every 2^15 cycles (R128), with a grant of its own (15 R378). -/
def execServicePlanStep (s : State) : Out :=
  let due := s.clock.serviceStep + 2 ^ 15
  let s1 := s.at_ due
  let s2 := ({ s1 with clock := { s1.clock with serviceStep := due } }).serviceUpkeep
  let entries := s2.serviceEntries
  let isScan (e : ServiceEntry) : Bool := match e with | .scan .. => true | _ => false
  -- the fixed part: the scans placed, and the wakes of what the entries need (R111)
  let fixed0 := Config.fixedPrice 0 (entries.filter isScan).length (s2.wakesFor (entries.flatMap serviceDomains).eraseDups)
  let request := fixed0 + (entries.map s2.servicePrice).sum
  let g := s2.grant serviceKey (2 ^ 15) 512 request fixed0
  if g.2.hearth.truncated then .next g.2.tryEndStalls
  else .next (g.2.serviceWork (g.1 - fixed0)).tryEndStalls

end Sys2Proof.Machine
end

