-- ==== Sys2Proof/Machine/Identity.lean ====
section
/-!
DEFINITION. The identity and global status registers (03_nirvex_interface Table 3.2).
-/
namespace Sys2Proof.Machine

/-- IDENTITY (+0x00). -/
def State.identityReg (s : State) : Nat :=
  packNat [(16, 0xEB10), (16, 0x4160), (8, if s.ident.pc then 2 else 1), (8, 0xB0), (16, 0)]

/-- VERSIONS (+0x08). -/
def State.versionsReg (s : State) : Nat :=
  packNat [(24, s.fwVersion), (8, 0), (8, s.nirvexMinor), (8, 1), (7, s.security.rollback), (9, 0)]

/-- NODE (+0x18). -/
def State.nodeReg (s : State) : Nat := packNat [(13, s.node), (1, bitNat s.ident.nodeValid), (50, 0)]

/-- CENSUS (+0x20). -/
def State.censusReg (s : State) : Nat :=
  packNat [(7, s.recovery.oxen.length), (1, 0), (8, s.recovery.gleaners.length), (5, s.recovery.drovers.length), (3, 0),
    (8, s.recovery.channels.length), (4, s.recovery.hbmStacks.length), (4, s.stepPortCount), (5, s.commonsPortCount),
    (1, bitNat s.partner.node.isNone), (1, bitNat s.degraded), (1, 0), (16, s.ident.censusGeneration.toNat)]

/-- HEALTH (+0x28). -/
def State.healthReg (s : State) : Nat :=
  packNat [(3, devStateCode s.ident.devState), (1, bitNat s.ident.thermalTruncate), (1, bitNat s.ident.powerCapped),
    (2, s.debugPort.level), (25, 0), (32, s.ident.reeveHeartbeat.toNat)]

/-- The count of a HOST_ERRORS counter. -/
def Ident.hostError (x : Ident) (c : HostErr) : Nat := tallyGet x.hostErrors c

/-- HOST_ERRORS (+0x30). -/
def State.hostErrorsReg (s : State) : Nat :=
  packNat [(16, s.ident.hostError .accessDenied), (16, s.ident.hostError .unmapped), (16, s.ident.hostError .badWrite),
    (16, s.ident.hostError .rsvdNonzero)]

/-- A register of the identity block by its offset; HOST_CONTROL and what is reserved read zero. -/
def State.identReg (s : State) : Nat → Nat
  | 0x00 => s.identityReg
  | 0x08 => s.versionsReg
  | 0x10 => Config.serial.toNat
  | 0x18 => s.nodeReg
  | 0x20 => s.censusReg
  | 0x28 => s.healthReg
  | 0x30 => s.hostErrorsReg
  | _ => 0

/-- The first 64 bytes of the identity block, which hold every register; the other 1,984 read zero. -/
def State.identBytes (s : State) : List Byte := (List.range 8).flatMap fun i => natToBytes 8 (s.identReg (8 * i))

end Sys2Proof.Machine
end

