-- ==== Sys2Proof/Machine/Recovery.lean ====
section
/-!
DEFINITION. The recovery ladder (13_faults_and_recovery R334 to R352): PEN_REINIT, unit resets, units that leave the
census, warm resets and power cycles.
-/
namespace Sys2Proof.Machine

/-! ### Commands still owed a completion -/

/-- The ring command that a group completes when it commits. -/
def Group.cmd? (g : Group) : Option RingCmd :=
  match g.effect with
  | .append c _ => some c
  | .header c _ _ => some c
  | .opened c _ => some c
  | .host c => some c
  | .command c => some c
  | .sampled => none
  | .none => none

/-- The ring commands that wait in a session. -/
def Session.openCmds (x : Session) : List RingCmd :=
  x.configs ++ x.deferred ++ x.buffers.map (·.cmd) ++ (match x.handover with | some d => d.waiting | none => [])
    ++ x.region.waiting.filterMap Group.cmd?

/-- The ring commands that wait in a pen: held and admitted ones. -/
def Pen.waitingCmds (q : Pen) : List RingCmd := q.rings.flatMap fun g => g.2.held.toList ++ g.2.admitted

/-- Every ring command of pen `p` that is owed a completion. -/
def State.openCmds (s : State) (p : Nat) : List RingCmd :=
  let inPen := match s.pen? p with
    | none => []
    | some q => q.waitingCmds ++ q.indexes.flatMap fun i => i.2.searches.filterMap (·.cmd)
  (inPen ++ s.dispatched ++ s.sessions.flatMap fun x => x.2.openCmds).filter fun c => c.pen == p

/-- A session without the waiting commands of pen `p`. -/
def Session.forgetCmds (x : Session) (p : Nat) : Session :=
  let keep (c : RingCmd) : Bool := c.pen != p
  { x with configs := x.configs.filter keep, deferred := x.deferred.filter keep,
           buffers := x.buffers.filter fun b => keep b.cmd,
           handover := x.handover.map fun d => { d with waiting := d.waiting.filter keep } }

/-- Held and admitted commands leave the rings; a THROTTLE run goes on to its end (04 R90). -/
def Ring.unqueue (g : Ring) : Ring := { g.unhold with admitted := [] }

/-- Searches of ring commands leave an index. -/
def Index.unqueue (x : Index) : Index := { x with searches := x.searches.filter fun c => c.cmd.isNone }

/-- The work of pen `p`'s commands is cancelled: none of them reaches its final update (R335, R345). -/
def State.forgetCmds (s : State) (p : Nat) : State :=
  let other (c : RingCmd) : Bool := c.pen != p
  let s1 := { s with dispatched := s.dispatched.filter other, sessions := mapVals (·.forgetCmds p) s.sessions }
  let s2 := s1.modPen p fun q =>
    { q with rings := mapVals Ring.unqueue q.rings, indexes := mapVals Index.unqueue q.indexes }
  match s2.pen? p with
  | none => s2
  | some q => q.indexes.foldl (fun t i => (t.freeGenerations p i.1).tryDestroyIndex p i.1) s2

/-! ### Rewind (R345, R348) -/

/-- A session whose first group never committed is undone (R335): its references, its registry entry and its index. -/
def State.undoOpen (s : State) (h : Handle) (x : Session) : State :=
  let s1 := (x.map.filter fun f => f.shared).foldl (fun t f => t.dropRef f.owner f.layer f.ordinal) s
  let s2 := (s1.modSess x.parent fun p => { p with childRefs := p.childRefs - 1 }).retire h
  let s3 := { s2 with flash := assocDel h s2.flash }
  let s4 := match s3.mirroredTo with
    | some d => s3.request d 0x30 0 (mirrorHeader 3 1 0 ++ natToBytes 8 h.toNat) .dropReq
    | none => s3
  (s4.modSess h fun x => { x with state := .closed, map := [] }).reap h

/-- A session returns to its last committed Ledger step. -/
def State.rewind (s : State) (h : Handle) : State :=
  match s.sess? h with
  | none => s
  | some x =>
    let unborn := x.region.waiting.any fun g => match g.effect with | .opened .. => true | _ => false
    if unborn then s.undoOpen h x else s.modSess h fun _ => s.committedSession h x

/-! ### PEN_REINIT -/

/-- PEN_REINIT of pen `p` is accepted: fetch and dispatch stop, and what is not dispatched is aborted (R345). -/
def State.startReinit (s : State) (p : Nat) (ladder : Bool) : State :=
  let waiting := match s.pen? p with | some q => q.waitingCmds | none => []
  let s1 := s.modPen p fun q =>
    { q with reinit := some { since := s.clock.now, viaLadder := ladder },
             rings := mapVals Ring.unqueue q.rings }
  waiting.foldl (fun t c => t.complete c (rStatus .abortedRetryable)) s1

/-- A warm reset has been triggered and has not reached SERVING. -/
def State.warmPending (s : State) : Bool := s.recovery.warm.isSome

/-- PEN_REINIT through a mailbox (R345, R346, Table 13.8): it completes on acceptance. -/
def execPenReinit (mb : Mb) (s : State) : Out :=
  mbRun s mb 0x0005 fun s c =>
    withPen s mb c.desc 0 fun p q =>
      if q.reinit.isSome || s.warmPending then (let r := retryLater s; .now r.1 r.2)
      else .now (s.startReinit p false) rOk

/-- A ring restarted: all four counters at 0, full buckets, the next PHASE 1 (R77, R95, R345). -/
def Ring.restart (g : Ring) : Ring :=
  { g with sqTail := 0, fetched := 0, cqHead := 0, written := 0, inflight := [], tc := g.toll.cbs, tp := g.toll.pbs,
           held := none, run := none, admitted := [], visible := [], loud := false }

/-- The pen's mailbox is cleared (R345): a command still in it completes with UNKNOWN first. -/
def State.clearMailbox (s : State) (p : Nat) : State :=
  let s1 := match s.mb? (.pen p) with
    | some m => if m.busy then s.mbWrite (.pen p) m.submit (match m.cmd with | some c => c.desc | none => m.desc)
        (rStatus .unknown) else s
    | none => s
  s1.modMb (.pen p) fun m => { m with busy := false, overrun := false, desc := 0, payload := [], cmd := none, late := [] }

/-- PEN_REINIT_RESTART (R345): Abort and Rewind have ended. What is left is aborted, sessions stand at their last committed
steps, their entries in steps in progress sit out, rings and mailbox restart. -/
def execPenReinitRestart (p : Nat) (s : State) : Out :=
  match (s.pen? p).bind (·.reinit) with
  | none => stutter s
  | some r =>
    let owed := s.openCmds p
    let s1 := (owed.foldl (fun t c => t.complete c (rStatus .abortedRetryable)) s).clearMailbox p
    let hs := (s1.sessions.filter fun x => handlePen x.1 == p).map (·.1)
    let s2 := (hs.foldl (fun t h => (t.rewind h).sitOutSession h .fault) s1).forgetCmds p
    let s3 := s2.modPen p fun q => { q with reinit := none, rings := mapVals Ring.restart q.rings }
    let s4 := (s3.bumpPen p .penReinits 1).bumpDev .penReinits 1
    let s5 := if r.viaLadder then { s4 with ladder := { s4.ladder with busy := false } } else s4
    .next (s5.raise p 0x0401 p 0)

/-! ### Starting a warm reset, and power cycles -/

/-- LAST_RUNG and LAST_CAUSE (Table 13.13). -/
def State.rungTaken (s : State) (rung cause : Nat) : State :=
  { s with recovery := { s.recovery with lastRung := rung, lastCause := cause } }

/-- PWR_CYCLE_L is driven low (R350): the main side goes down. The hold after which it may rise is counted from here, and
the power cycle is counted in the boot device. -/
def State.driveLow (s : State) : State :=
  { s.emit (.pwrCycle true) with board := { s.board with
      pwrCycleLow := true, pwrCycleSince := s.clock.now, powerCycles := satBits 16 (s.board.powerCycles + 1),
      powerOn := none, booting := false, lastIdent := s.identBytes } }

/-! ### What power takes away (18 R440, R351) -/

/-- An event ring's and a Crier block's state after power-on (14 R369). -/
def freshCrier : Crier := { restartHeld := true }

/-- A ring through a power cycle: its configuration stands, it restarts, its counters read 0. -/
def Ring.powerOn (g : Ring) : Ring :=
  { g.restart with config := [], destroying := none, ctrs := [], serviced := false }

/-- An index through a power cycle: searches and deferred commands are gone (the model's choice: its versions stand). -/
def Index.powerOn (x : Index) : Index := { x with searches := [], destroying := none }

/-- A pen through a power cycle (R351): configuration survives; mailbox, Crier block, heartbeat and counters start anew. -/
def Pen.powerOn (q : Pen) : Pen :=
  { cfg := q.cfg, crier := freshCrier, rings := mapVals Ring.powerOn q.rings, constraints := q.constraints,
    indexes := mapVals Index.powerOn q.indexes, createdAt := q.createdAt }

/-- A flock through a reset: its configuration survives; plans, steps and leases are gone. -/
def Flock.restart (k : Flock) : Flock :=
  { k with pending := [], destroying := none, anchors := [], run := none, next := none, delivered := none, lastRan := [],
           stopped := true, resync := [], rejoin := true, staging := [], leases := [] }

/-- A flock through a power cycle: its counters read 0 too. -/
def Flock.powerOn (k : Flock) : Flock := { k.restart with ctrs := [] }

/-- The session as the flash copy tells it, with what other records and the configuration say of it. -/
def State.inFlashLike (s : State) (h : Handle) (x : Session) : Session :=
  let y := s.sessionInFlash h
  { y with homeVersion := x.homeVersion, childRefs := x.childRefs, localPen := x.localPen, handedFrom := x.handedFrom,
           anchored := x.anchored, anchorFlock := x.anchorFlock }

/-- What T1 held of a session is lost (R351), its Ledger region with it: a session homed there falls back on its flash copy;
one homed in T2 keeps its record, with the history that the flash copy holds (01 R26). -/
def State.unpowered (s : State) (h : Handle) (x : Session) : Session :=
  let lost (f : Sheaf) : Bool := f.tier == .t1
  if x.state = .closed then x.loseSheaves h lost
  else if x.tier = .t2 then
    let f : FlashCopy := (assocGet h s.flash).getD {}
    { x.loseSheaves h lost with
      buffers := [], deferred := [], configs := [], handover := none
      region := { recs := f.recs, outputPos := f.outputPos, streams := f.streams, localStep := x.ledgerStep,
                  hist := historyOf f.recs, flashed := x.ledgerStep } }
  else s.inFlashLike h x

/-- A grant's extents that lie in T2. -/
def Grant.inFlash (g : Grant) : Grant := { g with extents := g.extents.filter fun e => e.tier != .t1 }

/-- The Commons endpoint after a reset: streams, requests and receptions are gone; routes, the map and extents stand. -/
def Commons.restart (c : Commons) : Commons :=
  { c with roundRobin := [], outs := [], requests := [], ins := [], staging := [], incoming := [], regPending := [],
           attends := [], arrivals := [], oldMap := [], fenceEnd := none }

/-- The partnership after a reset: what was being sent is sent anew, and the partner is asked whether it has answered for
the slice (11 R297). -/
def Partner.restart (p : Partner) : Partner :=
  { p with heldBatches := [], syncing := false, deposed := false, asking := p.node.isSome }

/-- The main side without power: what is left is configuration, flash, the boot device, the fuses, the always-on domain and
the Watchman. STATE reads BOOT. -/
def State.powerLoss (s : State) : State :=
  let slices := s.flashSlice
  { s with
    ident := { pc := s.ident.pc }
    ladder := {}, adminMb := {}, sbMb := {}, reeveQueue := [], crierArea := [], fetchArb := {}, dispatchLast := []
    dispatched := [], pens := mapVals Pen.powerOn s.pens
    sessions := s.sessions.map fun (x : Handle × Session) => (x.1, s.unpowered x.1 x.2)
    slice := slices
    flocks := mapVals Flock.powerOn s.flocks
    moves := [], stepPorts := []
    commons := { s.commons.restart with ports := [], grants := s.commons.grants.map Grant.inFlash }
    partner := { s.partner.restart with slices := s.partner.flashSlices, mirror := s.partner.flashMirror }
    harvest := { s.harvest with checkpoint := none, capturing := [], gets := [], restore := none }
    recovery := { lastRung := s.recovery.lastRung, lastCause := s.recovery.lastCause }
    hearth := { sustained := s.hearth.sustained, burst := s.hearth.burst }
    security := { s.security with activating := none, watchmanWrite := none, conn := [], handshaking := false,
                                  session := false, locked := false, tagFails := 0, held := [], heldFresh := [] }
    debugPort := { bscanMode := s.debugPort.bscanMode, tap := s.debugPort.tap, bscan := s.debugPort.bscan }
    watchman := { s.watchman with record := none, attention := [] }
    board := { s.board with served := false, noReeve := false } }

/-- The device goes through PWR_CYCLE_L (R350): rung 4. -/
def State.powerCycle (s : State) (cause : Nat) : State :=
  (s.rungTaken 4 cause).driveLow.powerLoss

/-- A warm reset is triggered (R347): ignored before the device first serves, and while one runs (18 R440, Table 13.8); the
third within 2^31 cycles is a power cycle instead (R350). -/
def State.triggerWarm (s : State) (cause : Nat) : State :=
  if s.warmPending || s.ident.devState = .boot then s
  else
    let hist := (s.recovery.warmHistory.filter fun t => decide (s.clock.now < t + 2 ^ 31)) ++ [s.clock.now]
    if 3 ≤ hist.length then s.powerCycle 7
    else
      let s1 := s.rungTaken 3 cause
      { s1 with recovery := { s1.recovery with warm := some (s.clock.now, 0), warmHistory := hist } }

/-- PEN_REINIT_OVERRUN (R347). -/
def execPenReinitOverrun (p : Nat) (s : State) : Out :=
  match (s.pen? p).bind (·.reinit) with
  | none => stutter s
  | some r => .next ((s.at_ (r.since + 2 ^ 21)).triggerWarm 4)

/-- The Watchman runs its firmware: the debug port does not hold it halted (17 R429). -/
def State.watchmanRuns (s : State) : Bool :=
  !(match assocGet 16 s.debugPort.harts with | some h => h.halted | none => false)

/-- REEVE_WATCHDOG (R347): REEVE_HEARTBEAT unchanged for 2^22 cycles; the watchdog rests while a Reeve hart is halted
(17 R428). -/
def execReeveWatchdog (s : State) : Out :=
  if !s.watchmanRuns || s.debugPort.harts.any (fun h => h.1 < 16 && h.2.halted) || s.warmPending || s.ident.devState = .boot then stutter s
  else .next ((s.at_ (max s.ident.reeveHeartbeatChanged s.watchman.watchFrom + 2 ^ 22)).triggerWarm 3)

/-! ### Warm reset (R348, R349) -/

/-- Abort: every command that is owed a completion is recorded. -/
def State.abortAll (s : State) : State :=
  let owed := s.pens.flatMap fun q => s.openCmds q.1
  let s1 := { s with recovery := { s.recovery with recorded := s.recovery.recorded ++ owed } }
  s.pens.foldl (fun t q => t.forgetCmds q.1) s1

/-- A mailbox through a warm reset: a command in it is never executed, and the bound of R73 completes it. -/
def Mailbox.restart (m : Mailbox) : Mailbox := { m with cmd := none, late := [], ticket := 0 }

/-- A pen through a warm reset (R349): configuration, rings and counters survive; commands waiting for a boundary do not. -/
def Pen.warmReset (q : Pen) : Pen :=
  { q with pendingCfg := [], reinit := none, mailbox := q.mailbox.restart,
           rings := mapVals (fun g => { g with config := [], destroying := none }) q.rings,
           indexes := mapVals (fun i => { i with searches := [], destroying := none }) q.indexes }

/-- A session after Quiesce: no step, plan or handoff holds it. -/
def Session.quiesce (x : Session) : Session :=
  { x with state := if x.state = .running then .runnable else x.state, flock := none, runLength := 0, handover := none,
           moving := false }

/-- A checkpoint or restore in progress ends FAILED (12 Table 12.5); what the attempt wrote is left to the next leftover
list. -/
def State.endHarvest (s : State) : State :=
  let s1 := match s.harvest.checkpoint with
    | some c =>
      let gw := c.gateway.toNat
      let old := (assocGet gw s.harvest.leftover).getD []
      let s0 := State.uncapture { s with harvest := { s.harvest with
        checkpoint := none, capturing := [], leftover := assocSet gw (old ++ c.keys) s.harvest.leftover } }
      s0.raise 0 0x0705 c.seq 2
    | none => s
  if s1.harvest.restore.isSome then s1.endRestore 2 else s1

/-- Quiesce: steps are truncated, groups dropped, uncommitted moves abandoned (Table 13.7). -/
def State.quiesce (s : State) : State :=
  let s1 := s.flocks.foldl (fun t k => (t.cutStep k.1 false).clearLeases k.1) s
  let s2 := (s1.sessions.map (·.1)).foldl (fun t h => t.rewind h) s1
  let s3 := (s2.moves.filter fun m => m.state != .freeing).foldl (fun t m => t.abandonMove m) s2
  { s3 with sessions := mapVals Session.quiesce s3.sessions }

/-- A live update that a warm reset meets is abandoned (Table 13.8). -/
def State.cutUpdate (s : State) : State :=
  if s.ident.liveUpdate.isSome then
    { s with ident := { s.ident with liveUpdate := none }, security := { s.security with activating := none },
             recovery := { s.recovery with abandonedUpdate := true } }
  else s

/-- The incarnation rises (11 R273). -/
def State.riseIncarnation (s : State) : State :=
  let n := s.board.incarnation
  let m := if n = 0xFFFFFFFF then n else n + 1
  { s with board := { s.board with incarnation := m },
           commons := { s.commons with incarnation := m, exhausted := m == 0xFFFFFFFF } }

/-- A port in training after a reset: its counters and its place in the census stay. -/
def Port.retrainAll (now : Nat) (q : Port) : Port :=
  { state := if q.state = .off || q.state = .failed then q.state else .training, census := q.census, known := q.known, retried := q.retried,
    since := now, ctrs := q.ctrs }

/-- The domains climb the wake ladder from OFF (15 R373): each is in RUN at its end, but the debug domain and, on a
LYS4160-PC, the Step Link ports. -/
def State.climb (s : State) : State :=
  let up (d : Nat) : Bool := d != 105 && !(s.ident.pc && decide (77 ≤ d) && decide (d ≤ 84))
  let all := (List.range 106).map fun d =>
    (d, ({ state := if up d then .run else .off, idleSince := s.clock.now } : Domain))
  { s with hearth := { s.hearth with domains := all, changes := [], nextIssue := s.clock.now } }

/-- Power limits of the configuration take effect: the burst store is full (15 R380). -/
def Hearth.applyLimits (h : Hearth) : Hearth :=
  if h.sustained = 600 && h.burst = 600 then { h with limitsApplied := false, store := 0 }
  else { h with limitsApplied := true, store := h.capacity }

/-- The Reeve's harts after a reset: those that are to halt on reset are halted (17 R428). -/
def Debug.resetHarts (d : Debug) : Debug :=
  let reset (h : Hart) : Hart := { h with halted := h.haltOnReset, resumeAck := false, haveReset := true }
  { d with harts := (List.range 16).foldl (fun l i => assocSet i (reset ((assocGet i l).getD {})) l) d.harts }

/-- Reset: every domain but the always-on domain and HBM (Table 13.7). -/
def State.resetMain (s : State) : State :=
  let s1 := s.riseIncarnation
  let s2 := { s1 with
    board := { s1.board with warmResets := satBits 16 (s1.board.warmResets + 1) }
    ident := { s1.ident with reeveHeartbeat := 0, reeveHeartbeatChanged := s1.clock.now, powerCapped := false }
    pens := mapVals Pen.warmReset s1.pens
    adminMb := s1.adminMb.restart, sbMb := s1.sbMb.restart, reeveQueue := [], fetchArb := {}, dispatchLast := []
    flocks := mapVals Flock.restart s1.flocks
    stepPorts := mapVals (Port.retrainAll s1.clock.now) s1.stepPorts
    commons := { s1.commons.restart with ports := mapVals (Port.retrainAll s1.clock.now) s1.commons.ports }
    partner := s1.partner.restart
    harvest := { s1.harvest with gets := [] }
    hearth := ({ s1.hearth with grants := [], counts := [], multipliers := [] }).applyLimits
    security := { s1.security with conn := [], handshaking := false, session := false, locked := false, tagFails := 0, held := [],
                                   heldFresh := [] }
    debugPort := s1.debugPort.resetHarts }
  s2.climb

/-- WARM_RESET (R348): Abort, Quiesce, Reset, wake, self-test and verify. HBM that fails to leave self-refresh is a power
cycle (R350). -/
def execWarmReset (leavesSelfRefresh : Bool) (s : State) : Out :=
  match s.recovery.warm with
  | some (t, 0) =>
    let s1 := { s with ident := { s.ident with devState := .warmReset } }
    let s2 := (s1.abortAll.endHarvest.quiesce.cutUpdate).resetMain
    if leavesSelfRefresh then .next { s2 with recovery := { s2.recovery with warm := some (t, 1) } }
    else .next (s2.powerCycle 8)
  | _ => stutter s

/-- A unit that self-test finds lost leaves the census. -/
def State.unitGone (s : State) (u : ResetUnit) : State :=
  match u with
  | .flashController c => s.channelGone c
  | _ => { s with recovery := s.recovery.dropUnit u }

/-- NOTICE RESTARTED to every node of the route table (11 R295). -/
def State.announce (s : State) : State := s.commons.routes.foldl (fun t r => t.sendRestarted r.1) s

/-- DEVICE_RESTARTED in every pen, of a rung (14 Table 14.3). -/
def State.deviceRestarted (s : State) (rung : Nat) : State :=
  s.pens.foldl (fun t q => (t.raise q.1 0x0003 rung 0).bumpPen q.1 .deviceRestarts 1) s

/-- Ring `k` of pen `p` fails verification: it restarts, and its open commands have the outcome UNKNOWN (R349). -/
def State.ringLost (s : State) (p k : Nat) : State :=
  let keep (c : RingCmd) : Bool := !(c.pen == p && c.ring == k)
  let s1 := { s with recovery := { s.recovery with recorded := s.recovery.recorded.filter keep } }
  (s1.modRing p k Ring.restart).raiseTo p 0x0203 k 0 ((s.ring? p k).bind (·.eventRing))

/-- A session that fails verification (R349): HOME_LOST, regrown from the flash copy and the partner. -/
def State.homeLost (s : State) (h : Handle) : State :=
  match s.sess? h with
  | none => s
  | some x =>
    if x.state = .closed then s.modSess h fun x => x.loseSheaves h fun _ => true
    else s.regrowAs h (s.inFlashLike h x)

/-- Sources of committed moves are freed once a reset completes (06 Table 6.8). -/
def State.freeSources (s : State) : State :=
  (s.moves.filter fun m => m.state == .freeing).foldl (fun t m => t.freeSource m) s

/-- STATE reads SERVING, or HALTED: below the minimum census (R342), and while the keys are erased (16 R412). -/
def State.serve (s : State) : State :=
  if s.debugPort.keysErased then { s with ident := { s.ident with devState := .halted } }
  else
    let s1 := ({ s with ident := { s.ident with devState := .serving } }).checkHalted
    if s1.ident.devState = .serving then { s1 with board := { s1.board with served := true } } else s1

/-- WARM_RESET_REJOIN (R348, R349): the device serves again. -/
def execWarmResetRejoin (lostUnits : List ResetUnit) (badRings : List (Nat × Nat)) (badSessions : List Handle) (s : State) :
    Out :=
  match s.recovery.warm with
  | some (_, 1) =>
    let s1 := { s with recovery := { s.recovery with warm := none } }
    let s2 := badRings.foldl (fun t b => t.ringLost b.1 b.2) s1
    let s3 := (badSessions.foldl (fun t h => t.homeLost h) s2).announce
    let s4 := s3.recovery.recorded.foldl (fun t c => t.complete c (rStatus .abortedRetryable))
      { s3 with recovery := { s3.recovery with recorded := [] } }
    let s5 := (s4.freeSources.serve).deviceRestarted 3
    let s6 := if s5.recovery.abandonedUpdate then
        (({ s5 with recovery := { s5.recovery with abandonedUpdate := false } }).raiseAll 0x0002 s5.fwVersion 1) else s5
    let s7 := if s6.commons.exhausted then s6.raise 0 0x0605 0 0 else s6
    let s8 := { s7 with ladder := { s7.ladder with busy := false, waiting := none } }
    let s9 := lostUnits.foldl State.unitGone s8
    if s9.recovery = s8.recovery then .next s8 else .next (s9.censusChange true)
  | _ => stutter s

/-- WARM_RESET_TIMEOUT (R350): not SERVING 2^27 cycles after a warm reset began. -/
def execWarmResetTimeout (s : State) : Out :=
  match s.recovery.warm with
  | none => stutter s
  | some (t, _) =>
    if s.watchmanRuns then .next ((s.at_ (max t s.watchman.watchFrom + 2 ^ 27)).powerCycle 6) else stutter s

/-! ### Power cycle (R350) -/

/-- PWR_CYCLE_L rises and the main side powers on: the boot begins (18 R440). -/
def State.riseAgain (s : State) : State :=
  let s1 := s.emit (.pwrCycle false)
  { s1 with board := { s1.board with
    pwrCycleLow := false, hold := 0, powerOn := some s1.clock.now, booting := true } }

/-- PWR_CYCLE_RELEASE: after 2^26 cycles, unless the pin is held until RELEASE (R350, 15 R384, 17 R420). -/
def execPwrCycleRelease (s : State) : Out :=
  if s.board.pwrCycleLow && (s.board.hold == 0 || s.board.hold == 3) then
    .next (s.at_ (s.board.pwrCycleSince + 2 ^ 26)).riseAgain
  else stutter s

/-- POWER_CYCLE_TIMEOUT: not SERVING 2^32 cycles after PWR_CYCLE_L rose; the third failure holds the device down (R350). -/
def execPowerCycleTimeout (s : State) : Out :=
  match s.board.powerOn with
  | none => stutter s
  | some t =>
    if !s.watchmanRuns then stutter s else
    let s1 := s.at_ (max t s.watchman.watchFrom + 2 ^ 32)
    let n := s1.board.powerTries + 1
    if 3 ≤ n then
      let s2 := s1.driveLow.powerLoss
      .next { s2 with board := { s2.board with powerTries := n, hold := 2 },
                      ident := { s2.ident with devState := .halted } }
    else
      let s2 := s1.powerCycle s1.recovery.lastCause
      .next { s2 with board := { s2.board with powerTries := n } }

/-! ### Units that leave the census (R337, R338) -/

/-- FLASH_CHANNEL_SILENT (R338): no die of the channel has answered for 2^20 cycles. -/
def execFlashChannelSilent (channel : Nat) (s : State) : Out :=
  if 128 ≤ channel then .fault .noSuchUnit
  else if s.recovery.channels.contains channel then .next (s.channelLeaves channel) else stutter s

/-- HBM_STACK_FAIL (R338): T1 shrinks, and the sessions with data in the stack are lost. `lost`: those sessions. -/
def execHbmStackFail (stack : Nat) (lost : List Handle) (s : State) : Out :=
  if 12 ≤ stack then .fault .noSuchUnit
  else if !s.recovery.hbmStacks.contains stack then stutter s
  else
    let inT1 (h : Handle) : Bool := match s.sess? h with
      | some x => x.tier == .t1 || x.map.any fun f => f.tier == .t1
      | none => false
    let s1 := { s with recovery := { s.recovery with hbmStacks := s.recovery.hbmStacks.filter (· != stack) } }
    let s2 := (s1.requeue fun m => m.dst == .t1).censusChange true
    .next ((lost.filter inT1).foldl (fun t h => t.faultSession h .homeLost fun f => f.tier == .t1) s2)

/-! ### Unit resets (R334 to R337) -/

/-- The unit exists (Table 13.2). -/
def unitExists : ResetUnit → Bool
  | .ox i => decide (i < 64)
  | .drover i => decide (i < 16)
  | .gleaner i => decide (i < 128)
  | .flashController i => decide (i < 128)
  | .weaverLane i => decide (i < 4)
  | .shepherdSlice i => decide (i < 4)
  | .crypto i => decide (i < 4)
  | .reeveCore i => decide (i < 16)
  | .ledgerHarvest => true
  | .unresettable => true

/-- The unit is in the census. -/
def Recovery.holds (r : Recovery) : ResetUnit → Bool
  | .ox i => r.oxen.contains i
  | .drover i => r.drovers.contains i
  | .gleaner i => r.gleaners.contains i
  | .flashController i => r.channels.contains i
  | _ => true

/-- A unit's record. -/
def Recovery.unit (r : Recovery) (u : ResetUnit) : UnitRec := (assocGet u r.units).getD {}

/-- The dispatched ring commands that `p` names complete with RETRY_UNIT_RESET, without effect (R335). -/
def State.retryDispatched (s : State) (p : RingCmd → Bool) : State :=
  (s.dispatched.filter p).foldl (fun t c => (t.ringTake c).complete c (rStatus .retryUnitReset)) s

/-- The mailbox commands that the Reeve core was executing complete with RETRY_UNIT_RESET. -/
def State.retryMailboxes (s : State) (core : Nat) : State :=
  (Mb.admin :: Mb.sideBand :: s.pens.map fun q => Mb.pen q.1).foldl (fun t mb =>
    match (t.mb? mb).bind (·.cmd) with
    | some c => if Config.reeveCore c.ticket % 16 = core then (t.mbTake mb c).mbFinish ⟨mb, c⟩ (rStatus .retryUnitReset) else t
    | none => t) s

/-- Entries whose logits a Weaver lane held unsampled sit out (Table 13.2): the lane is that of the quadrant whose port received
them (09 R214). -/
def State.loseLogits (s : State) (lane : Nat) : State :=
  let (n, s0) := s.draw
  (s0.flocks.filter fun k => k.2.ports.any fun p => p / 2 == lane).foldl (fun t k =>
    match k.2.run with
    | none => t
    | some r => (List.range r.plan.entries.length).foldl (fun t i =>
        match t.planEntry? k.1 i, t.sess? ((r.plan.entries[i]?).map (·.handle) |>.getD 0) with
        | some e, some x => if Config.heldLogits n i && e.owesRows x && e.verdict.isNone then
            t.sitOut k.1 i 0x3FF .logitsMissing else t
        | _, _ => t) t) s0

/-- The entry whose pass a unit ran, if there is one: which, the spec leaves to the device. -/
def State.passOf (s : State) : Option (Nat × Nat) × State :=
  let (n, s1) := s.draw
  let e := Config.passEntry n
  ((s1.planEntry? e.1 e.2).map fun _ => e, s1)

/-- The passes that may be running in a layer of an entry: its tiles' next ones. -/
def State.passesOf (s : State) (e : PlanEntry) (x : Session) (l : Layout) (ly : Nat) : List (Nat × PassTurn) :=
  (((e.deviceSource x ly).map fun g => g.ordinal / 512).eraseDups).filterMap fun tile =>
    (s.passTurn e x l ly tile).map fun t => (tile, t)

/-- The passes that may be running: flock, entry, layer, tile, and the pass. -/
def State.runningPasses (s : State) : List (Nat × Nat × Nat × Nat × PassTurn) :=
  s.flocks.flatMap fun k => match k.2.run with
    | none => []
    | some r => (List.range r.plan.entries.length).flatMap fun i =>
      match s.planEntry? k.1 i, s.layout? r.plan.layout with
      | some e, some l => (match s.sess? e.handle with
        | some x => if e.sitOut.isSome then [] else (List.range l.layers).flatMap fun ly =>
            (s.passesOf e x l ly).map fun t => (k.1, i, ly, t.1, t.2)
        | none => [])
      | _, _ => []

/-- The pass that a unit ran, if there is one, runs again on another ox within the layer's fallback reserve (07 R184): which it
is, the spec leaves to the device. -/
def State.rerunPass (s : State) : State :=
  let (n, s1) := s.draw
  match s1.runningPasses[Config.passPlace n]? with
  | none => s1
  | some (f, i, ly, tile, t) =>
    match s1.planEntry? f i, (s1.run? f).bind fun r => s1.layout? r.plan.layout with
    | some e, some l =>
      let q := chunkRows (e.rowCount l) t.cut t.chunk
      ((s1.modPlanEntry f i fun e => { e with reruns := e.reruns ++ [(ly, tile, t.chunk, t.scoring)] }).claim f ly
        (28 * l.passBound t.sheaves q.1 q.2)).bumpPen (handlePen e.handle) .passReruns 1
    | _, _ => s1

/-- An ox's loft holds nothing after its reset. -/
def State.clearLoft (s : State) (i : Nat) : State :=
  { s with recovery := { s.recovery with lofts := assocDel i s.recovery.lofts } }

/-- Work in flight in a unit when it resets (Table 13.2). -/
def State.unitLoses (s : State) : ResetUnit → State
  | .ox i => (s.clearLoft i).rerunPass
  | .drover i =>
    let s1 := s.requeue fun m => m.drover == some i
    (match s1.passOf with
    | (some (f, i), s2) => (match s2.run? f, s2.planEntry? f i with
      | some r, some e => s2.sitOut f i (e.nextLayer r.plan.layers.length) .fault
      | _, _ => s2)
    | (none, s2) => s2)
  | .gleaner _ => s
  | .flashController _ => s
  | .weaverLane i =>
    (s.retryDispatched fun c => unitOfOp (descOpcode c.desc) == .weaver && handleIndex (descHandle c.desc) % 4 == i).loseLogits i
  | .shepherdSlice i =>
    (s.flocks.filter fun k => Config.shepherdSlice k.1 % 4 == i && k.2.run.isSome).foldl (fun t k => t.abandonStep k.1) s
  | .crypto i => (s.requeue fun m => match m.drover with | some d => d / 4 == i | none => false).rerunPass
  | .reeveCore i =>
    (s.retryDispatched fun c => unitOfOp (descOpcode c.desc) == .reeve && Config.reeveCore c.serial % 16 == i).retryMailboxes i
  | .ledgerHarvest =>
    let mine (r : Request) : Bool := match r.use with | .records .. => true | _ => false
    ((s.commons.requests.filter mine).foldl (fun t r => t.resendRequest r) s).endCheckpoint 2
  | .unresettable => s

/-- Replies to the unit's old incarnation, discarded in Drain: how many come, the spec leaves open (Table 13.3). -/
def State.oldReplies (s : State) : State :=
  let (n, s1) := s.draw
  s1.bumpDev .oldIncarnationReplies (Config.oldReplies n)

/-- Work in flight when a unit resets, and the replies that come for it (Tables 13.2 and 13.3). -/
def State.unitWork (s : State) (u : ResetUnit) : State := (s.unitLoses u).oldReplies

/-- Whether repeat failure takes the unit out of the census rather than causing a warm reset (R337). -/
def leavesCensus : ResetUnit → Bool
  | .ox _ => true
  | .drover _ => true
  | .gleaner _ => true
  | .flashController _ => true
  | _ => false

/-- A unit in repeat failure (R337). -/
def State.unitFails (s : State) (u : ResetUnit) : State :=
  match u with
  | .flashController c => s.channelLeaves c
  | _ => if leavesCensus u then { s with recovery := s.recovery.dropUnit u }.censusChange true else s.triggerWarm 5

/-- UNIT_RESET (R334 to R337): fence, drain, reset, self-test and rejoin of one unit. -/
def execUnitReset (unit : ResetUnit) (selfTestOk : Bool) (s : State) : Out :=
  if !unitExists unit then .fault .noSuchUnit
  else if s.ident.devState = .boot || !s.recovery.holds unit then stutter s
  else if unit = .unresettable then .next (s.triggerWarm 5)
  else
    let r := s.recovery.unit unit
    let resets := (r.resets.filter fun t => decide (s.clock.now ≤ t + 2 ^ 26)) ++ [s.clock.now]
    let r1 : UnitRec := { incarnation := r.incarnation + 1, resets := resets }
    let s1 := ({ s with recovery := { s.recovery with units := assocSet unit r1 s.recovery.units } }).bumpDev .unitResets 1
    let s2 := s1.unitWork unit
    if selfTestOk && decide (resets.length < 3) then .next s2 else .next (s2.unitFails unit)

end Sys2Proof.Machine
end

