-- ==== Sys2Proof/Machine/Thermal.lean ====
section
/-!
DEFINITION. The Hearth's tick (15_hearth_power R380 to R385): sensors, the derate, the burst store, truncation and thermal
shutdown.
-/
namespace Sys2Proof.Machine

/-- Truncation of a flock's step (05 R124): at its next layer boundary while one is left, else at once, as for a plan that
has been delivered and has no GO. -/
def State.truncateFlock (s : State) (f : Nat) : State :=
  match assocGet f s.flocks with
  | none => s
  | some k =>
    match k.run with
    | some r =>
      if (List.range r.plan.layers.length).any fun ly =>
          decide (s.clock.now ≤ r.go + dueOffset r ly .pool) then
        s.modRun f fun r => { r with truncating := true }
      else s.cutThermal f
    | none => if k.delivered.isSome then s.cutThermal f else s

/-- A sensor is at or above its truncate threshold, as `hot` names it (R383): every step is truncated, and the truncation
state is entered. -/
def State.truncate (s : State) (hot : Nat) : State :=
  let s1 := if s.hearth.truncated then s
    else ({ s with hearth := { s.hearth with truncated := true } }).raise 0 0x0902 hot (sensorWord hot (s.hearth.reading hot))
  s1.flocks.foldl (fun t k => t.truncateFlock k.1) s1

/-- Entering or leaving truncation at a tick (R383). -/
def State.thermalTick (s : State) : State :=
  match s.hearth.hottest with
  | some i => s.truncate i
  | none =>
    if s.hearth.truncated && s.hearth.allClear then
      ({ s with hearth := { s.hearth with truncated := false } }).raise 0 0x0903 0 0
    else s

/-- Thermal shutdown (R384): the Watchman holds the device down until RELEASE. -/
def State.thermalShutdown (s : State) : State :=
  let s1 := s.driveLow.powerLoss
  { s1 with board := { s1.board with hold := 1 } }

/-- HEARTH_TICK (R380 to R385): every 1,024 cycles. `samples`: what the 80 sensors report, none where one did not update;
`energy`: the package energy metered over the tick, in µJ. -/
def execHearthTick (samples : List (Option Int)) (energy : Nat) (s : State) : Out :=
  let due := s.clock.hearthTick + 1024
  let s1 := s.at_ due
  let h := { s1.hearth.refill energy with lastEnergy := energy }
  let s2 := { s1 with clock := { s1.clock with hearthTick := due }, hearth := h }
  let s3 := (s2.sampleSensors samples).setDerate.thermalTick
  if s3.hearth.shutdown && !s3.board.pwrCycleLow then .next s3.thermalShutdown else .next s3

end Sys2Proof.Machine
end

