-- ==== Sys2Proof/Machine/Arbiter.lean ====
section
/-!
DEFINITION. Dispatch from the rings to the units (04_tollgate R96, R98; 15 R371).
-/
namespace Sys2Proof.Machine

/-- The head admitted command of a ring, if it may start: with FENCE, only after every earlier command of the ring has
completed (03 Table 3.4). -/
def Ring.ready (g : Ring) : Option RingCmd :=
  match g.admitted with
  | [] => none
  | c :: _ => if descFlag c.desc 16 && g.inflight.head? != some c.serial then none else some c

/-- The rings whose head command goes to unit `u`, with whether they lie in its latency-critical set (R96). Rings of a pen
under PEN_REINIT give nothing (13 R345). -/
def State.ringsFor (s : State) (u : CmdUnit) : List ((Nat × Nat) × Bool) :=
  s.pens.flatMap fun q =>
    if q.2.reinit.isSome then []
    else q.2.rings.filterMap fun g =>
      match g.2.ready with
      | some c => if unitOfOp (descOpcode c.desc) = u then some ((q.1, g.1), g.2.latencyCritical && c.colour == .green)
          else none
      | none => none

/-- A unit's arbitration: last ring of the latency-critical set, last ring of the best-effort set, and consecutive
latency-critical dispatches. -/
def State.turn (s : State) (u : CmdUnit) : (Nat × Nat) × (Nat × Nat) × Nat :=
  (assocGet u s.dispatchLast).getD ((1024, 0), (1024, 0), 0)

/-- The ring that unit `u` takes next, and the arbitration after it (R96). -/
def State.nextFor (s : State) (u : CmdUnit) : Option ((Nat × Nat) × (Nat × Nat) × (Nat × Nat) × Nat) :=
  let rs := s.ringsFor u
  let lc := (rs.filter (·.2)).map (·.1)
  let be := (rs.filter fun r => !r.2).map (·.1)
  let t := s.turn u
  let useBe := lc.isEmpty || (decide (7 ≤ t.2.2) && !be.isEmpty)
  if useBe then (nextRing t.2.1 be).map fun r => (r, t.1, r, 0)
  else (nextRing t.1 lc).map fun r => (r, r, t.2.1, t.2.2 + 1)

/-- The domains of a unit that may sleep (15 Table 15.1): first and number. -/
def unitDomains : CmdUnit → Nat × Nat
  | .weaver => (9, 4)
  | .gleaners => (49, 16)
  | _ => (1, 0)

/-- A domain of the unit is in RUN; units without a domain that sleeps always are. -/
def State.unitAwake (s : State) (u : CmdUnit) : Bool :=
  let d := unitDomains u
  d.2 == 0 || (List.range d.2).any fun i => s.domainRuns (d.1 + i)

/-- DISPATCH (R96): the Tollgate hands the head command of the unit's next ring to it; a unit asleep holds it and is woken
(15 R371). -/
def execDispatch (unit : CmdUnit) (pen ring : Nat) (s : State) : Out :=
  match s.nextFor unit with
  | none => stutter s
  | some (r, lc, be, n) =>
    if r != (pen, ring) || !s.fetches then stutter s
    else if !s.unitAwake unit then .next (s.askWake 3 (unitDomains unit).1)
    else match (s.ring? pen ring).bind (·.ready) with
      | none => stutter s
      | some c =>
        let s1 := s.modRing pen ring fun g => { g with admitted := g.admitted.drop 1, serviced := true }
        .next { s1 with dispatched := s1.dispatched ++ [c], dispatchLast := assocSet unit (lc, be, n) s1.dispatchLast }

end Sys2Proof.Machine
end

