-- ==== Sys2Proof/Machine/Firmware.lean ====
section
/-!
DEFINITION. Firmware images and live updates (16_security R402 to R404, 03 R82, 18 R442).
-/
namespace Sys2Proof.Machine

/-- The header of an image (Table 16.4), as a number. -/
def imageHeader (bs : List Byte) : Nat := bytesToNat (bs.take 128)

/-- Header LENGTH. -/
def imageLength (bs : List Byte) : Nat := bitsOf (imageHeader bs) 96 32

/-- Check 1 of R403, against the LENGTH operand. -/
def imageBadLength (length : Nat) (bs : List Byte) : Bool :=
  length != 128 + imageLength bs || imageLength bs == 0 || decide (16777216 < imageLength bs)

/-- Checks 2 to 4 of R403. -/
def imageForged (rollback : Nat) (bs : List Byte) : Bool :=
  let h := imageHeader bs
  let target := bitsOf h 32 8
  let svn := bitsOf h 40 8
  bitsOf h 0 32 != 0x4C594657 || !(target == 1 || target == 2) || bitsOf h 48 16 != 0x4160 || bitsOf h 88 8 != 0
    || bitsOf h 896 128 != 0
    || (bs.drop 16).take 32 != sha256 ((bs.drop 128).take (imageLength bs))
    || !Config.ecdsaVerifies Config.imageKey (sha256Nat (bs.take 48)) (BitVec.ofNat 512 (bitsOf h 384 512))
    || decide (64 < svn) || decide (svn < rollback)

/-- The image of these bytes (Table 16.4). -/
def imageOf (bs : List Byte) : Image :=
  let h := imageHeader bs
  { watchman := bitsOf h 32 8 == 2, version := BitVec.ofNat 24 (bitsOf h 64 24), svn := bitsOf h 40 8,
    digest := BitVec.ofNat 256 (bitsOf h 128 256) }

/-- The checks of R403 in order: the refusal, or the image. -/
def checkImage (rollback length : Nat) (bs : List Byte) : Except Status Image :=
  if imageBadLength length bs then .error .badLength
  else if imageForged rollback bs then .error .failedAuth
  else .ok (imageOf bs)

/-- The image is staged; one already staged is replaced (R403). A Reeve image is in the inactive slot (18 R442). -/
def State.stage (s : State) (i : Image) : State :=
  let sec := { s.security with staged := some i }
  { s with security := if i.watchman then sec else { sec with reeveSlots := (sec.reeveSlots.1, some i) } }

/-- What FW_STAGE finds at IMAGE: as many bytes as LENGTH says. -/
def stagedBytes (d : Desc) (image : List Byte) : List Byte := fitTo (operand d 8 4) image

/-- The write of a Reeve image has not read back: FW_STAGE does not complete (18 R442). -/
def State.stillWriting (s : State) (mb : Mb) (image : List Byte) (readsBack : Bool) : Bool :=
  !readsBack && (match mbNext s mb 0x0060 with
    | some c => (match checkImage s.security.rollback (operand c.desc 8 4) (stagedBytes c.desc image) with
      | .ok i => !i.watchman
      | .error _ => false)
    | none => false)

/-- FW_STAGE (R403). `image`: the bytes at IMAGE; `readsBack`: the write to the inactive slot has read back. -/
def execFwStage (mb : Mb) (image : List Byte) (readsBack : Bool) (s : State) : Out :=
  if s.stillWriting mb image readsBack then stutter s
  else mbRun s mb 0x0060 fun s c =>
    if s.watchman.update.isSome then (let r := retryLater s; .now r.1 r.2)
    else match checkImage s.security.rollback (operand c.desc 8 4) (stagedBytes c.desc image) with
      | .error st => .now s (rStatus st)
      | .ok i => .now (s.stage i) rOk

/-- The staged image is activated (R82, R403): a live update begins, or a Watchman image is written. -/
def State.activate (s : State) (i : Image) : State :=
  let sec := { s.security with staged := none }
  if i.watchman then { s with security := { sec with watchmanWrite := some i } }
  else { s with security := { sec with activating := some i },
                ident := { s.ident with liveUpdate := some s.clock.now, devState := .updating } }

/-- FW_ACTIVATE (R82, R403): it completes on acceptance. -/
def execFwActivate (mb : Mb) (s : State) : Out :=
  mbRun s mb 0x0061 fun s _ =>
    if s.watchman.update.isSome then (let r := retryLater s; .now r.1 r.2)
    else match s.security.staged with
      | none => .now s (rBad 0xFFFF)
      | some i =>
        if decide (i.svn < s.security.rollback) then .now s (rStatus .failedAuth) else .now (s.activate i) rOk

/-- The bound of a live update: 300 ms (R82). -/
def updateBound : Nat := 7500000

/-- A live update has ended: STATE returns to SERVING, and a PEN_REINIT that waited for its end runs (13 Table 13.8). -/
def State.endUpdate (s : State) : State :=
  let s1 := ({ s with ident := { s.ident with liveUpdate := none, devState := .serving },
                      security := { s.security with activating := none } }).reeveResumes
  match s1.ladder.waiting with
  | none => s1
  | some p =>
    let s2 := { s1 with ladder := { s1.ladder with waiting := none } }
    if (s2.pen? p).isSome then s2.startReinit p true else { s2 with ladder := { s2.ladder with busy := false } }

/-- ROLLBACK_STEP after the steps towards SVN have been tried, of which `blown` program (R404). -/
def Security.blow (x : Security) (svn blown : Nat) : Security := { x with rollback := min (max x.rollback svn) (x.rollback + blown) }

/-- A Reeve image runs from the slot that was inactive: that slot is the active one now (18 R442). -/
def Security.runNew (x : Security) (i : Image) : Security :=
  { x with running := some i, reeveSlots := (some i, x.reeveSlots.1) }

/-- LIVE_UPDATE_DONE (R82, R404): the new image runs, its slot is active, and `blown` of its rollback steps program. -/
def execLiveUpdateDone (blown : Nat) (s : State) : Out :=
  match s.ident.liveUpdate, s.security.activating with
  | some t, some i =>
    if t + updateBound < s.clock.now then stutter s
    else
      .next (({ s with security := (s.security.runNew i).blow i.svn blown }).endUpdate.raiseAll 0x0002 i.version.toNat 0)
  | _, _ => stutter s

/-- The ring commands that wait for the Reeve: dispatched to it, or admitted to its rings and not yet dispatched. -/
def State.reeveWaiting (s : State) : List RingCmd :=
  (s.dispatched ++ s.pens.flatMap fun q => q.2.rings.flatMap fun g => g.2.admitted).filter
    fun c => unitOfOp (descOpcode c.desc) == .reeve

/-- A command that waits for its unit leaves its ring and the unit. -/
def State.ringDrop (s : State) (c : RingCmd) : State :=
  (s.ringTake c).modRing c.pen c.ring fun g => { g with admitted := g.admitted.filter fun d => d.serial != c.serial }

/-- LIVE_UPDATE_ABANDON (R82): 300 ms have passed. The Reeve's ring commands complete with RETRY_LATER, and the old image
runs on. -/
def execLiveUpdateAbandon (s : State) : Out :=
  match s.ident.liveUpdate with
  | none => stutter s
  | some t =>
    let s1 := s.at_ (t + updateBound)
    let s2 := s1.reeveWaiting.foldl (fun t c => let r := retryLater (t.ringDrop c); r.1.complete c r.2) s1
    .next (s2.endUpdate.raiseAll 0x0002 s2.fwVersion 1)

/-- WATCHMAN_IMAGE_WRITTEN (R403): the write of a Watchman image has ended. -/
def execWatchmanImageWritten (readsBack : Bool) (s : State) : Out :=
  match s.security.watchmanWrite with
  | none => stutter s
  | some i =>
    let s1 := { s with security := { s.security with watchmanWrite := none } }
    if readsBack then
      let slots := (some i, s1.security.watchmanSlots.1)
      .next (({ s1 with security := { s1.security with watchmanSlots := slots } }).raiseAll 0x0002 i.version.toNat 2)
    else .next (s1.raiseAll 0x0002 i.version.toNat 3)

end Sys2Proof.Machine
end

