-- ==== Sys2Proof/Machine/Crier.lean ====
section
/-!
DEFINITION. The registers of the Crier block and the moderation timer (14_crier_events R361 to R369): what each
host-port write does once the access is allowed.
-/
namespace Sys2Proof.Machine

/-- Change the Crier block of pen `p`. -/
def State.modCrier (s : State) (p : Nat) (f : Crier → Crier) : State :=
  s.modPen p fun q => { q with crier := f q.crier }

/-- The Crier block of pen `p`, at reset values where the pen does not exist. -/
def State.crierOf (s : State) (p : Nat) : Crier := ((s.pen? p).map (·.crier)).getD {}

/-- A write to EVENT_MASK (R366). -/
def State.writeEventMask (s : State) (p : Nat) (v : BitVec 64) : State :=
  s.modCrier p fun c => { c with eventMask := v.setWidth 16 }

/-- Send the signals of the rings of `bits`, lowest first. -/
def State.signalEach (s : State) (p bits : Nat) : State :=
  (List.range 16).foldl (fun t r => if bitOf bits r then t.attnSignal p r else t) s

/-- The rings of pen `p` whose ATTN_PENDING bit the Crier updated in the present cycle, as `b` names it. -/
def State.attnNow (s : State) (p : Nat) (b : Nat → Nat → HwBit) : BitVec 16 :=
  (List.range 16).foldl (fun m r => if s.hwNow (b p r) then setBit16 m r else m) 0

/-- A write to ATTN_PENDING: bits that go from 0 to 1 while unmasked send their signal (R364, R367). A Crier set of this
cycle comes after the write and stands, and makes a transition of its own of a bit that the write clears (R12). -/
def State.writeAttnPending (s : State) (p : Nat) (v : BitVec 64) : State :=
  let c := s.crierOf p
  let written := v.setWidth 16
  let again := s.attnNow p .attentionAgain
  let new := written ||| s.attnNow p .attention ||| again
  let s1 := s.modCrier p fun c => { c with attnPending := new }
  s1.signalEach p (((new &&& ~~~c.attnPending) ||| (again &&& ~~~written)) &&& ~~~c.attnMask).toNat

/-- A write to ATTN_MASK: bits that go from 1 to 0 while pending send their signal (R364). -/
def State.writeAttnMask (s : State) (p : Nat) (v : BitVec 64) : State :=
  let c := s.crierOf p
  let new := v.setWidth 16
  let s1 := s.modCrier p fun c => { c with attnMask := new }
  s1.signalEach p (c.attnMask &&& ~~~new &&& c.attnPending).toNat

/-- A write to CLASS_ROUTE (R360). -/
def State.writeClassRoute (s : State) (p : Nat) (v : BitVec 64) : State :=
  s.modCrier p fun c => { c with classRoute := v }

/-- A write to EV_BASE (R365). -/
def EventRing.writeBase (e : EventRing) (v : BitVec 64) : EventRing :=
  if e.enable then { e with pairIgnored := e.pairIgnored || v != e.base } else { e with base := v }

/-- Whether the stored pair may be enabled in pen `p` (R365). -/
def EventRing.pairOk (e : EventRing) (p : Nat) : Bool :=
  decide (6 ≤ e.sizeLog2) && decide (e.sizeLog2 ≤ 16) && decide (e.base.toNat % 4096 = 0)
    && (!e.reeve || (p == 0 && decide (e.base.toNat + 32 * 2 ^ e.sizeLog2 ≤ 262144)))

/-- A write to EV_CTRL (R365). -/
def EventRing.writeCtrl (e : EventRing) (p : Nat) (v : BitVec 64) : EventRing :=
  let en := bitOf v.toNat 0
  let loc := bitOf v.toNat 1
  let sz := bitsOf v.toNat 4 5
  if e.enable then
    let e1 := { e with pairIgnored := e.pairIgnored || loc != e.reeve || sz != e.sizeLog2 }
    if en then e1 else { e1 with enable := false, active := false, n := 0, timer := none }
  else
    let e1 := { e with reeve := loc, sizeLog2 := sz }
    if !en then e1
    else if e1.pairOk p then
      { e1 with enable := true, active := true, written := 0, head := 0, n := 0, timer := none, lostPending := 0,
                idle := false, cqPending := [] }
    else { e1 with configRejected := true }

/-- A write to EV_CTRL, and DEVICE_RESTARTED held for the first ring enabled for class DEVICE (R365, R369). -/
def State.writeEvCtrl (s : State) (p r : Nat) (v : BitVec 64) : State :=
  let was := ((s.crierOf p).ring r).enable
  let s1 := s.modEvRing p r fun e => e.writeCtrl p v
  let c := s1.crierOf p
  if !was && (c.ring r).enable && c.restartHeld && c.route 0x0003 == r then
    ((s1.modCrier p fun c => { c with restartHeld := false }).raise p 0x0003 4 0).bumpPen p .deviceRestarts 1
  else s1

/-- A write to MODERATION is in range (R362). -/
def moderationOk (v : BitVec 64) : Bool :=
  decide (bitsOf v.toNat 0 13 ≤ 4096) && decide (bitsOf v.toNat 16 25 ≤ 16777216)

/-- An accepted write to MODERATION (R362). -/
def State.writeModeration (s : State) (p r : Nat) (v : BitVec 64) : State :=
  s.modEvRing p r fun e => { e with count := bitsOf v.toNat 0 13, time := bitsOf v.toNat 16 25 }

/-- The test of a CONSUMER write (R363). -/
def EventRing.consumerOk (e : EventRing) (v : BitVec 64) : Bool :=
  decide (sub32 e.written (bitsOf v.toNat 0 32) ≤ sub32 e.written e.head)

/-- An accepted CONSUMER write on the ring (R362, R363). -/
def EventRing.consume (e : EventRing) (v : BitVec 64) : EventRing :=
  let h := bitsOf v.toNat 0 32
  let drained := h == e.written
  { e with head := h, idle := bitOf v.toNat 32,
           n := if drained then 0 else e.n, timer := if drained then none else e.timer,
           cqPending := e.cqPending.filter fun x => decide (sub32 e.written x.2 ≤ sub32 e.written h) }

/-- An accepted CONSUMER write, then EVENTS_LOST (R361, R363). A record written in this cycle comes after the write: it
finds the IDLE that the write sets, clears it and fires the ring (R12, R363). -/
def State.writeConsumer (s : State) (p r : Nat) (v : BitVec 64) : State :=
  if s.hwNow (.idle p r) then
    let s1 := s.modEvRing p r fun e => { e.consume v with idle := false }
    (if bitOf v.toNat 32 then s1.evFire p r else s1).evReportLost p r
  else (s.modEvRing p r fun e => e.consume v).evReportLost p r

/-- A write to EV_STATUS clears the bits written 1 (Table 14.5, R11), but OVERFLOWED stands when it was set in this cycle
(R12). -/
def State.writeEvStatus (s : State) (p r : Nat) (v : BitVec 64) : State :=
  s.modEvRing p r fun e =>
    { e with pairIgnored := e.pairIgnored && !bitOf v.toNat 0, configRejected := e.configRejected && !bitOf v.toNat 1,
             headInvalid := e.headInvalid && !bitOf v.toNat 2, overflowed := e.overflowed && (!bitOf v.toNat 3 || s.hwNow (.overflowed p r)) }

/-- The cycle at which a ring's moderation fires: its timer's end, or the next timer cycle where a MODERATION write has brought
COUNT to the records already written (R362). -/
def EventRing.firesAt (e : EventRing) (start now : Nat) : Nat :=
  if 0 < e.count ∧ e.count ≤ e.n then now else start + e.time

/-- MODERATION_TIMER: the ring's timer reaches TIME and the ring fires (R362). -/
def execModerationTimer (p r : Nat) (s : State) : Out :=
  let e := (s.crierOf p).ring r
  match e.timer with
  | some t =>
    if 16 ≤ r then .fault .noSuchUnit
    else if 0 < e.n then .next ((s.at_ (e.firesAt t s.clock.now)).evFire p r) else stutter s
  | none => if 16 ≤ r then .fault .noSuchUnit else stutter s

end Sys2Proof.Machine
end

