-- ==== Sys2Proof/Machine/Spdm.lean ====
section
/-!
DEFINITION. SPDM: attestation and the host-port session (16_security R392, R393, R401, R405 to R408). Request, response and
error codes, and the bits of the capability flags, are DSP0274's (PRESUMED).
-/
namespace Sys2Proof.Machine

/-- An SPDM response. -/
def State.spdmReply (s : State) (t : Transport) (code : Nat) (body : List Byte) : State := s.emit (.spdm t code body)

/-- An SPDM ERROR with its error code. -/
def State.spdmError (s : State) (t : Transport) (error : Nat) : State := s.spdmReply t 0x7F (natToBytes 1 error)

def errInvalid : Nat := 0x01
def errBusy : Nat := 0x03
def errUnexpected : Nat := 0x04
def errUnspecified : Nat := 0x05
def errDecrypt : Nat := 0x06
def errUnsupported : Nat := 0x07

/-- Messages to the device over a transport are taken up: the main side has booted; on the side band the Watchman answers
(17 R424, R429). -/
def State.spdmHears (s : State) (t : Transport) : Bool :=
  match t with
  | .hostPort => !s.board.porst && !s.board.refclkLost && !s.board.railFault && !s.board.railOrder && !s.board.pwrCycleLow && !s.debugPort.bscanMode
  | .sideBand => s.watchmanRuns && !s.watchman.recovery && !s.board.porst && !s.board.refclkLost && !s.board.railFault &&
    !s.board.railOrder && !s.debugPort.bscanMode

/-- `body`, where the transport hears. -/
def spdmWhen (s : State) (t : Transport) (body : Out) : Out := if s.spdmHears t then body else stutter s

/-- The connection state of a transport. -/
def State.spdmConn (s : State) (t : Transport) : SpdmConn := (assocGet t s.security.conn).getD {}

/-- Put back the connection state of a transport. -/
def State.setConn (s : State) (t : Transport) (c : SpdmConn) : State :=
  { s with security := { s.security with conn := assocSet t c s.security.conn } }

/-- GET_VERSION (R405): version 1.3 only; a new connection begins. -/
def execGetVersion (t : Transport) (s : State) : Out :=
  spdmWhen s t (.next ((s.setConn t { version := true }).spdmReply t 0x04 (packBytes 4 [(8, 0), (8, 1), (16, 0x1300)])))

/-- The capability flags of R405: CERT, CHAL, MEAS with signature, MEAS_FRESH, ENCRYPT, MAC, KEY_EX, HBEAT, KEY_UPD. -/
def spdmFlags : Nat := 0x62F6

/-- GET_CAPABILITIES (R405). -/
def execGetCapabilities (t : Transport) (s : State) : Out :=
  let c := s.spdmConn t
  spdmWhen s t (.next (if c.version then (s.setConn t { c with capabilities := true }).spdmReply t 0x61 (natToBytes 4 spdmFlags)
    else s.spdmError t errUnexpected))

/-- NEGOTIATE_ALGORITHMS (R405): `matchesTable` says that it selects the algorithms of Table 16.5. -/
def execNegotiateAlgorithms (t : Transport) (matchesTable : Bool) (s : State) : Out :=
  let c := s.spdmConn t
  spdmWhen s t (.next (if !c.capabilities then s.spdmError t errUnexpected
    else if matchesTable then (s.setConn t { c with algorithms := true }).spdmReply t 0x63 []
    else (s.setConn t {}).spdmError t errInvalid))

/-- A request that needs negotiated algorithms. -/
def spdmAfter (s : State) (t : Transport) (body : State) : Out :=
  spdmWhen s t (.next (if (s.spdmConn t).algorithms then body else s.spdmError t errUnexpected))

/-- GET_DIGESTS (R406): slot 0 only, empty when the identity certificate failed its check (R392). -/
def execGetDigests (t : Transport) (s : State) : Out :=
  spdmAfter s t (s.spdmReply t 0x01 (if s.security.certValid then natToBytes 1 1 ++ sha256 Config.certificate
    else natToBytes 1 0))

/-- GET_CERTIFICATE (R406): the chain of slot 0. -/
def execGetCertificate (t : Transport) (slot : BitVec 8) (offset length : BitVec 16) (s : State) : Out :=
  let part := (Config.certificate.drop offset.toNat).take length.toNat
  let left := Config.certificate.length - offset.toNat - part.length
  spdmAfter s t (if slot != 0 || !s.security.certValid || decide (Config.certificate.length ≤ offset.toNat) then
      s.spdmError t errInvalid
    else s.spdmReply t 0x02 (natToBytes 2 part.length ++ natToBytes 2 left ++ part))

/-! ### Measurements (R407) -/

/-- BODY_DIGEST of the Reeve image that runs. -/
def State.reeveDigest (s : State) : BitVec 256 :=
  match s.security.running with | some i => i.digest | none => Config.bootDigest

/-- SVN of the Reeve image that runs. -/
def State.reeveSvn (s : State) : Nat := match s.security.running with | some i => i.svn | none => Config.bootSvn

/-- The enrolled operator keys, slots in order, an empty slot as 64 zero bytes. -/
def State.operatorKeyBytes (s : State) : List Byte :=
  (List.range 8).flatMap fun i => natToBytes 64 (match assocGet i s.security.operatorKeys with
    | some k => k.toNat | none => 0)

/-- A measurement block of Table 16.7. -/
def State.measurement (s : State) : Nat → List Byte
  | 1 => natToBytes 32 Config.bootRomDigest.toNat
  | 2 => natToBytes 32 s.reeveDigest.toNat
  | 3 => natToBytes 32 (match s.security.watchmanRunning with | some i => i.digest | none => Config.watchmanDigest).toNat
  | 4 => packBytes 2 [(8, s.security.rollback), (8, s.reeveSvn)]
  | 5 => packBytes 10 [(8, if s.ident.pc then 2 else 1), (8, 0xB0), (64, Config.serial.toNat)]
  | 6 => packBytes 4 [(8, s.debugPort.level), (8, s.debugPort.highest), (16, s.debugPort.unlocks)]
  | 7 => sha256 s.operatorKeyBytes
  | 8 => natToBytes 32 (match s.security.staged with | some i => i.digest.toNat | none => 0)
  | _ => []

/-- A fresh random value of 32 bytes (R393). -/
def State.fresh (s : State) : List Byte × State :=
  let (n, s1) := s.draw
  (natToBytes 32 (Config.random n).toNat, s1)

/-- CHALLENGE answered (R406): signed by IDENTITY_KEY over the two nonces. -/
def State.answerChallenge (s : State) (t : Transport) (nonce : BitVec 256) : State :=
  let (r, s1) := s.fresh
  s1.spdmReply t 0x03 (r ++ natToBytes 64 (Config.sign (natToBytes 32 nonce.toNat ++ r)).toNat)

/-- GET_MEASUREMENTS answered with a signature (R406, R407): it binds the requester's nonce. -/
def State.answerMeasurements (s : State) (t : Transport) (index : BitVec 8) (nonce : BitVec 256) : State :=
  let (r, s1) := s.fresh
  let blocks := if index = 0xFF then (List.range 8).flatMap fun i => s.measurement (i + 1) else s.measurement index.toNat
  s1.spdmReply t 0x60 (blocks ++ r
    ++ natToBytes 64 (Config.sign (natToBytes 32 nonce.toNat ++ blocks ++ r)).toNat)

/-- KEY_EXCHANGE answered (R406, R408): an ephemeral key and a signature; FINISH is awaited. -/
def State.answerKeyExchange (s : State) : State :=
  let (r, s1) := s.fresh
  ({ s1 with security := { s1.security with handshaking := true } }).spdmReply .hostPort 0x64
    (r ++ natToBytes 64 (Config.sign r).toNat)

/-- Hold an operation until a reseed succeeds (R393). -/
def State.holdFresh (s : State) (o : FreshOp) : State :=
  { s with security := { s.security with heldFresh := s.security.heldFresh ++ [o] } }

/-- CHALLENGE (R406): slot 0 only. -/
def execChallenge (t : Transport) (slot : BitVec 8) (nonce : BitVec 256) (s : State) : Out :=
  spdmAfter s t (if slot != 0 then s.spdmError t errInvalid
    else if !s.security.certValid then s.spdmError t errUnspecified
    else if s.security.entropyOk then s.answerChallenge t nonce
    else s.holdFresh (.challenge t nonce))

/-- GET_MEASUREMENTS (R406, R407): index 0 asks for the number of blocks, 0xFF for all; signed on request. -/
def execGetMeasurements (t : Transport) (index : BitVec 8) (signed : Bool) (nonce : BitVec 256) (s : State) : Out :=
  spdmAfter s t (if decide (8 < index.toNat) && index != 0xFF then s.spdmError t errInvalid
    else if index = 0 then s.spdmReply t 0x60 (natToBytes 1 8)
    else if !signed then
      s.spdmReply t 0x60 (if index = 0xFF then (List.range 8).flatMap fun i => s.measurement (i + 1)
        else s.measurement index.toNat)
    else if !s.security.certValid then s.spdmError t errUnspecified
    else if s.security.entropyOk then s.answerMeasurements t index nonce
    else s.holdFresh (.measurements t index nonce))

/-! ### The session (R408) -/

/-- Requests of a session come on the host port only (Table 16.6). -/
def sessionOnly (s : State) (t : Transport) (body : State) : Out :=
  spdmWhen s t (.next (match t with
    | .sideBand => s.spdmError t errUnsupported
    | .hostPort => body))

/-- KEY_EXCHANGE (R408): one session at most. -/
def execKeyExchange (t : Transport) (s : State) : Out :=
  sessionOnly s t (if s.security.session then s.spdmError t errBusy
    else if !(s.spdmConn t).algorithms then s.spdmError t errUnexpected
    else if !s.security.certValid then s.spdmError t errUnspecified
    else if s.security.entropyOk then s.answerKeyExchange
    else s.holdFresh .keyExchange)

/-- What was held for a session goes out in order (R408). -/
def State.releaseHeld (s : State) : State :=
  s.security.held.foldl (fun t o => t.emit o) { s with security := { s.security with held := [] } }

/-- The session is established: the host port is locked to it (R408). -/
def State.openSpdm (s : State) : State :=
  let s1 := { s with security := { s.security with
    handshaking := false, session := true, locked := true, tagFails := 0, lastMessage := s.clock.now } }
  (s1.spdmReply .hostPort 0x65 []).releaseHeld

/-- FINISH (R408). `verifies`: the requester's HMAC is right. -/
def execFinish (t : Transport) (verifies : Bool) (s : State) : Out :=
  sessionOnly s t (if !s.security.handshaking then s.spdmError t errUnexpected
    else if verifies then s.openSpdm
    else ({ s with security := { s.security with handshaking := false } }).spdmError t errDecrypt)

/-- The session ends (R408). -/
def State.closeSpdm (s : State) : State :=
  { s with security := { s.security with session := false, handshaking := false, tagFails := 0 } }

/-- A message of the session has come: the heartbeat period starts anew, and tag failures are no longer in succession. -/
def State.sessionMessage (s : State) : State :=
  { s with security := { s.security with lastMessage := s.clock.now, tagFails := 0 } }

/-- A request inside the session. -/
def inSession (s : State) (t : Transport) (body : State → State) : Out :=
  sessionOnly s t (if s.security.session then body s.sessionMessage else s.spdmError t errUnexpected)

/-- END_SESSION (R408). -/
def execEndSession (t : Transport) (s : State) : Out := inSession s t fun s => (s.spdmReply t 0x6C []).closeSpdm

/-- HEARTBEAT (R408). -/
def execHeartbeat (t : Transport) (s : State) : Out := inSession s t fun s => s.spdmReply t 0x68 []

/-- KEY_UPDATE (R405, R406). -/
def execKeyUpdate (t : Transport) (s : State) : Out := inSession s t fun s => s.spdmReply t 0x69 []

/-- SPDM_HEARTBEAT_TIMEOUT (R408): 4 s without a message. -/
def execSpdmHeartbeatTimeout (s : State) : Out :=
  if s.security.session then .next (s.at_ (s.security.lastMessage + 100000000)).closeSpdm else stutter s

/-- Any other request is answered UnsupportedRequest (R406). -/
def execUnsupportedRequest (t : Transport) (_code : BitVec 8) (s : State) : Out :=
  spdmWhen s t (.next (s.spdmError t errUnsupported))

/-! ### Host errors (03 R64) and bad messages -/

/-- Count a host-port error; all but RSVD_NONZERO raise HOST_ACCESS in the admin pen. -/
def State.hostError (s : State) (c : HostErr) (ctx off : Nat) : State :=
  let s1 := { s with ident := { s.ident with hostErrors := tallyAdd s.ident.hostErrors c 1 16 } }
  if c = .rsvdNonzero then s1 else s1.raise 0 0x0801 ctx off

/-- SECURED_MESSAGE_TAG_FAIL (R408): discarded, counted, and the eighth in succession ends the session. -/
def execSecuredMessageTagFail (s : State) : Out :=
  if !s.security.session then stutter s
  else
    let (n, s1) := s.draw
    let x := Config.unreadHeader n
    let s2 := s1.hostError .accessDenied x.1 x.2
    let s3 := { s2 with security := { s2.security with tagFails := s2.security.tagFails + 1 } }
    .next (if 8 ≤ s3.security.tagFails then s3.closeSpdm else s3)

/-! ### Operator keys (R401) -/

/-- The bytes an OPERATOR_KEY signature covers: slot, action, key. -/
def operatorBytes (slot : Nat) (enrol : Bool) (key : BitVec 512) : List Byte :=
  natToBytes 1 slot ++ natToBytes 1 (bitNat enrol) ++ natToBytes 64 key.toNat

/-- The request carries what R401 asks of it. -/
def State.operatorOk (s : State) (slot : Nat) (enrol : Bool) (key : BitVec 512) (signer : Option Nat)
    (signature : BitVec 512) : Bool :=
  let keys := s.security.operatorKeys
  let signed := match signer.bind fun i => assocGet i keys with
    | some k => Config.ecdsaVerifies k (sha256Nat (operatorBytes slot enrol key)) signature
    | none => false
  decide (slot < 8) && (signed || (keys.isEmpty && enrol && slot == 0))
    && (enrol || !(assocDel slot keys).isEmpty)

/-- OPERATOR_KEY (R401, Table 16.6): in a session, from the admin context. -/
def execOperatorKey (q : Req) (slot : Nat) (enrol : Bool) (key : BitVec 512) (signer : Option Nat) (signature : BitVec 512)
    (s : State) : Out :=
  spdmWhen s .hostPort (.next (
    if !(s.security.session && q.secured) then s.spdmError .hostPort errUnsupported
    else
      let s0 := s.sessionMessage
      if q.ctx = 0x400 && s0.operatorOk slot enrol key signer signature then
        let keys := if enrol then assocSet slot key s0.security.operatorKeys else assocDel slot s0.security.operatorKeys
        ({ s0 with security := { s0.security with operatorKeys := keys } }).spdmReply .hostPort 0x7E []
      else s0.spdmError .hostPort errInvalid))

end Sys2Proof.Machine
end

