-- ==== Sys2Proof/Machine/DebugPort.lean ====
section
/-!
DEFINITION. Debug authorisation, the test access port and the debug module (16_security R393, R409 to R413;
17_watchman_and_debug R425 to R429). The debug module's register map is that of RISC-V External Debug 0.13.2 (PRESUMED).
-/
namespace Sys2Proof.Machine

/-- Change the debug port. -/
def State.modDebug (s : State) (f : Debug → Debug) : State := { s with debugPort := f s.debugPort }

/-- The TAP instruction in force, and bits shifted out of its register. -/
def State.shiftOut (s : State) (code width value : Nat) : State :=
  (s.modDebug fun d => { d with tap := code }).emit (.tdo width value)

/-- The always-on domain is out of reset: REFCLK_AO runs and PORST_L is released. -/
def State.aoRuns (s : State) : Bool := !s.board.porst && !s.board.refclkLost && !s.board.railFault && !s.board.railOrder

/-- `t` while the always-on domain runs. -/
def tapWhen (s : State) (t : State) : Out := onlyIf s.aoRuns s t

/-! ### Nonces and tokens (R409, R410) -/

/-- A fresh nonce is outstanding and read out. -/
def State.giveNonce (s : State) : State :=
  let (n, s1) := s.draw
  let v := (Config.random n).setWidth 256
  (s1.modDebug fun d => { d with nonce := some v }).shiftOut 0x08 256 v.toNat

/-- DBG_NONCE (R409): each read replaces the outstanding nonce. -/
def execDbgNonce (s : State) : Out :=
  tapWhen s (if s.security.entropyOk then s.giveNonce else s.holdFresh .dbgNonce)

/-- One held operation runs after a reseed. -/
def State.runFresh (s : State) : FreshOp → State
  | .challenge t nonce => s.answerChallenge t nonce
  | .measurements t i nonce => s.answerMeasurements t i nonce
  | .keyExchange => s.answerKeyExchange
  | .dbgNonce => s.giveNonce

/-- DRBG_RESEED (R393): the entropy source's health tests, and a reseed that lets held operations run. -/
def execDrbgReseed (ok : Bool) (s : State) : Out :=
  let s1 := { s with security := { s.security with entropyOk := ok } }
  if ok then
    .next (s1.security.heldFresh.foldl (fun t o => t.runFresh o) { s1 with security := { s1.security with heldFresh := [] } })
  else .next s1

/-- A field of a token (Table 16.8). -/
def tokenField (t : BitVec 896) (lo w : Nat) : Nat := bitsOf t.toNat lo w

/-- The key a token must verify under (R410). -/
def State.tokenVerifies (s : State) (t : BitVec 896) : Bool :=
  let digest := sha256Nat (natToBytes 48 (tokenField t 0 384))
  let sig := BitVec.ofNat 512 (tokenField t 384 512)
  if tokenField t 34 1 = 0 then tokenField t 40 3 == 0 && Config.ecdsaVerifies Config.tokenKey digest sig
  else tokenField t 32 2 == 1 && (match assocGet (tokenField t 40 3) s.security.operatorKeys with
    | some k => Config.ecdsaVerifies k digest sig
    | none => false)

/-- Every field of the token checks (Table 16.8, R410). -/
def State.tokenOk (s : State) (t : BitVec 896) : Bool :=
  let level := tokenField t 32 2
  tokenField t 0 32 == 0x4C594454 && (level == 1 || level == 2) && tokenField t 35 5 == 0 && tokenField t 43 21 == 0
    && tokenField t 64 64 == Config.serial.toNat
    && (match s.debugPort.nonce with | some n => tokenField t 128 256 == n.toNat | none => false) && s.tokenVerifies t

/-- A session scrubbed out of T1 at level 2 comes back as after a power cycle. -/
def State.scrub (s : State) : State :=
  let lost (x : Handle × Session) : Handle × Session := (x.1, s.unpowered x.1 x.2)
  { s with sessions := s.sessions.map lost, adminMb := s.adminMb.restart, sbMb := s.sbMb.restart, reeveQueue := [],
           crierArea := [] }

/-- Entry to level 2 (R412): the device stops as a warm reset does up to Quiesce, keys are erased, memory is scrubbed. -/
def State.enterLevel2 (s : State) : State :=
  let s1 := (s.abortAll.endHarvest.quiesce.cutUpdate).scrub
  let s2 := { s1 with ident := { s1.ident with devState := .halted },
                      recovery := { s1.recovery with recorded := [], warm := none } }
  s2.modDebug fun d => { d with keysErased := true }

/-- An accepted token (R410, R411, R427). -/
def State.acceptToken (s : State) (level : Nat) : State :=
  let raised := decide (s.debugPort.level < level)
  let s1 := if raised && level == 2 then s.enterLevel2 else s
  (s1.modDebug fun d =>
    { d with level := max d.level level, tokenResult := 1, sessionOpen := true, highest := max d.highest level,
             unlocks := if raised then satBits 16 (d.unlocks + 1) else d.unlocks }).askWake 3 105

/-- A refused token (R410, R427). -/
def State.refuseToken (s : State) : State :=
  s.modDebug fun d =>
    { d with refusals := min 8 (d.refusals + 1), tokenResult := 2, sessionOpen := d.sessionOpen && d.level != 0 }

/-- DBG_TOKEN (R410): every token consumes the outstanding nonce; after 8 refusals every token is refused. -/
def execDbgToken (token : BitVec 896) (s : State) : Out :=
  tapWhen s (
    let s1 := s.modDebug fun d => { d with nonce := none, tap := 0x09 }
    if 8 ≤ s.debugPort.refusals then s1.modDebug fun d => { d with tokenResult := 3 }
    else if s.tokenOk token then s1.acceptToken (tokenField token 32 2)
    else s1.refuseToken)

/-- DBG_STATUS as a number (Table 17.6). -/
def Debug.status (d : Debug) : Nat :=
  packNat [(2, d.level), (2, d.tokenResult), (4, d.refusals), (1, bitNat d.bscanMode), (1, bitNat d.bscanRefused),
    (1, bitNat d.sessionOpen), (53, 0)]

/-- DBG_STATUS (Table 17.6): BSCAN_REFUSED is cleared by reading. -/
def execDbgStatus (s : State) : Out :=
  tapWhen s ((s.shiftOut 0x0A 64 s.debugPort.status).modDebug fun d => { d with bscanRefused := false })

/-- DBG_RELOCK (R413, R427): level 1 returns to level 0, and the session closes. -/
def execDbgRelock (bit : Bool) (s : State) : Out :=
  tapWhen s (s.modDebug fun d =>
    if bit && d.level == 1 then { d with tap := 0x0B, level := 0, sessionOpen := false } else { d with tap := 0x0B })

/-! ### Boundary scan (R425, R426) -/

/-- IDCODE. -/
def execIdcode (s : State) : Out := .next (s.shiftOut 0x01 32 0xB41605D7)

/-- BYPASS: one bit. -/
def execBypass (s : State) : Out := .next (s.shiftOut 0x1F 1 0)

/-- Test-Logic-Reset selects IDCODE. -/
def execTestLogicReset (s : State) : Out := .next (s.modDebug fun d => { d with tap := 0x01 })

/-- A boundary-scan instruction outside boundary-scan mode acts as BYPASS and sets BSCAN_REFUSED (R426). -/
def bscanOnly (s : State) (body : State) : Out :=
  tapWhen s (if s.debugPort.bscanMode then body
    else (s.modDebug fun d => { d with bscanRefused := true }).shiftOut 0x1F 1 0)

/-- EXTEST: the boundary-scan register drives the lands and is shifted out. -/
def execExtest (s : State) : Out := bscanOnly s (s.shiftOut 0x00 Config.bscanWidth s.debugPort.bscan)

/-- CLAMP: bypass is shifted out while the boundary-scan register drives the lands. -/
def execClamp (s : State) : Out := bscanOnly s (s.shiftOut 0x03 1 0)

/-- HIGHZ. -/
def execHighz (s : State) : Out := bscanOnly s (s.shiftOut 0x04 1 0)

/-- SAMPLE_PRELOAD: the cells capture the lands, at any level. -/
def execSamplePreload (s : State) : Out :=
  let (n, s1) := s.draw
  let v := Config.bscanCapture n % 2 ^ Config.bscanWidth
  .next ((s1.modDebug fun d => { d with bscan := v }).shiftOut 0x02 Config.bscanWidth v)

/-! ### Run control (R428, R429) -/

/-- A hart. -/
def Debug.hart (d : Debug) (i : Nat) : Hart := (assocGet i d.harts).getD {}

/-- Change a hart. -/
def State.modHart (s : State) (i : Nat) (f : Hart → Hart) : State :=
  s.modDebug fun d => { d with harts := assocSet i (f (d.hart i)) d.harts }

/-- A resume restarts every watchdog that the halt suspended (R429). -/
def State.resumeHart (s : State) (i : Nat) : State :=
  let now := s.clock.now
  let s1 := (s.modHart i fun h => { h with halted := false, resumeAck := true }).reeveResumes
  if i = 16 then { s1 with watchman := { s1.watchman with watchFrom := now, serviced := now } }
  else { s1 with ident := { s1.ident with reeveHeartbeatChanged := now } }

/-- A write to dmcontrol: the hart selected, halt and resume requests, halt on reset. -/
def State.writeDmcontrol (s : State) (v : Nat) : State :=
  let sel := bitsOf v 16 10 + 1024 * bitsOf v 6 10
  let s1 := s.modDebug fun d => { d with hartsel := sel, dmactive := bitOf v 0 }
  if !bitOf v 0 then s1.modDebug fun d => { d with cmderr := 0, data0 := 0, data1 := 0, sbControl := 0, sbError := 0 }
  else if 17 ≤ sel then s1
  else
    let s2 := if bitOf v 28 then s1.modHart sel fun h => { h with haveReset := false } else s1
    let s3 := if bitOf v 3 then s2.modHart sel fun h => { h with haltOnReset := true }
      else if bitOf v 2 then s2.modHart sel fun h => { h with haltOnReset := false } else s2
    if bitOf v 31 then s3.modHart sel fun h => { h with halted := true, resumeAck := false }
    else if bitOf v 30 && (s3.debugPort.hart sel).halted then s3.resumeHart sel
    else s3

/-- dmstatus of the hart selected: version 2, authenticated, and its state. -/
def Debug.dmstatus (d : Debug) : Nat :=
  let gone := decide (17 ≤ d.hartsel)
  let h := d.hart d.hartsel
  let two (b : Bool) : List (Nat × Nat) := [(1, bitNat b), (1, bitNat b)]
  packNat ([(4, 2), (1, 0), (1, 1), (1, 0), (1, 1)] ++ two (h.halted && !gone) ++ two (!h.halted && !gone) ++ two false
    ++ two gone ++ two (h.resumeAck && !gone) ++ two (h.haveReset && !gone) ++ [(12, 0)])

/-- The place of a hart register in the debug module's store. -/
def regKey (hart reg : Nat) : Nat := 65536 * hart + reg

/-- A hart register as the debug module reads it. -/
def Debug.readReg (d : Debug) (hart reg : Nat) : BitVec 64 :=
  (assocGet (regKey hart reg) d.regs).getD (Config.hartReg hart reg)

/-- The register that an abstract command names: trigger data registers are four per hart, selected by tselect (R428). -/
def Debug.regNamed (d : Debug) (hart reg : Nat) : Nat :=
  if 0x7A1 ≤ reg ∧ reg ≤ 0x7A3 then 0x8000 + 4 * (reg - 0x7A1) + (d.readReg hart 0x7A0).toNat % 4 else reg

/-- An abstract command: register access on a halted hart (R428). Errors: 2 not supported, 4 hart not halted. -/
def Debug.command (d : Debug) (v : Nat) : Debug :=
  let size := bitsOf v 20 3
  if d.cmderr != 0 then d
  else if bitsOf v 24 8 != 0 || bitOf v 18 || !(size == 2 || size == 3) then { d with cmderr := 2 }
  else if !(d.hart d.hartsel).halted || decide (17 ≤ d.hartsel) then { d with cmderr := 4 }
  else if !bitOf v 17 then d
  else
    let reg := d.regNamed d.hartsel (bitsOf v 0 16)
    if bitOf v 16 then
      let x := if size = 3 then d.data0.toNat + 2 ^ 32 * d.data1.toNat else d.data0.toNat
      { d with regs := assocSet (regKey d.hartsel reg) (BitVec.ofNat 64 x) d.regs }
    else
      let x := (d.readReg d.hartsel reg).toNat
      { d with data0 := BitVec.ofNat 32 x, data1 := if size = 3 then BitVec.ofNat 32 (x / 2 ^ 32) else d.data1 }

/-! ### System bus access (R428) -/

/-- Bytes of an access by sbcs. -/
def Debug.sbBytes (d : Debug) : Nat := 2 ^ bitsOf d.sbControl.toNat 17 3

/-- After an access the address moves on when sbautoincrement is set. -/
def Debug.sbAdvance (d : Debug) : Debug :=
  if bitOf d.sbControl.toNat 16 then { d with sbAddr := d.sbAddr + BitVec.ofNat 64 d.sbBytes } else d

/-- A system bus read or write: outside what the level reaches it ends with sberror 2 and has no effect. -/
def Debug.sbAccess (d : Debug) (write : Bool) : Debug :=
  let a := d.sbAddr.toNat
  if d.sbError != 0 then d
  else if !Config.debugReaches d.level a then { d with sbError := 2 }
  else if write then { d with sbMem := assocSet a d.sbData d.sbMem }.sbAdvance
  else { d with sbData := (assocGet a d.sbMem).getD (Config.debugWord a) }.sbAdvance

/-- sbcs: version 1, 64-bit addresses, accesses of 8 to 64 bits. -/
def Debug.sbcs (d : Debug) : Nat :=
  packNat [(5, 0xF), (7, 64), (3, d.sbError), (1, bitNat (bitOf d.sbControl.toNat 15)),
    (1, bitNat (bitOf d.sbControl.toNat 16)), (3, bitsOf d.sbControl.toNat 17 3),
    (1, bitNat (bitOf d.sbControl.toNat 20)), (2, 0), (6, 0), (3, 1)]

/-! ### DMI -/

/-- What a DMI read returns. -/
def Debug.read (d : Debug) : Nat → Nat
  | 0x04 => d.data0.toNat
  | 0x05 => d.data1.toNat
  | 0x10 => packNat [(1, bitNat d.dmactive), (5, 0), (10, d.hartsel / 1024), (10, d.hartsel), (6, 0)]
  | 0x11 => d.dmstatus
  | 0x16 => packNat [(4, 2), (4, 0), (3, d.cmderr), (21, 0)]
  | 0x38 => d.sbcs
  | 0x39 => bitsOf d.sbAddr.toNat 0 32
  | 0x3A => bitsOf d.sbAddr.toNat 32 32
  | 0x3C => bitsOf d.sbData.toNat 0 32
  | 0x3D => bitsOf d.sbData.toNat 32 32
  | _ => 0

/-- A read of sbdata0 reads on when sbreadondata is set. -/
def Debug.afterRead (d : Debug) (addr : Nat) : Debug :=
  if addr = 0x3C && bitOf d.sbControl.toNat 15 then d.sbAccess false else d

/-- A value with 32 of its bits replaced. -/
def setHalf (v : BitVec 64) (high : Bool) (x : Nat) : BitVec 64 :=
  if high then BitVec.ofNat 64 (bitsOf v.toNat 0 32 + 2 ^ 32 * x) else BitVec.ofNat 64 (v.toNat / 2 ^ 32 * 2 ^ 32 + x)

/-- A DMI write to a register other than dmcontrol. -/
def Debug.write (d : Debug) (addr v : Nat) : Debug :=
  match addr with
  | 0x04 => { d with data0 := BitVec.ofNat 32 v }
  | 0x05 => { d with data1 := BitVec.ofNat 32 v }
  | 0x16 => if bitsOf v 8 3 = 0 then d else { d with cmderr := 0 }
  | 0x17 => d.command v
  | 0x38 => { d with sbControl := BitVec.ofNat 32 v, sbError := if bitsOf v 12 3 = 0 then d.sbError else 0 }
  | 0x39 =>
    let d1 := { d with sbAddr := setHalf d.sbAddr false v }
    if bitOf d.sbControl.toNat 20 then d1.sbAccess false else d1
  | 0x3A => { d with sbAddr := setHalf d.sbAddr true v }
  | 0x3C => ({ d with sbData := setHalf d.sbData false v }).sbAccess true
  | 0x3D => { d with sbData := setHalf d.sbData true v }
  | _ => d

/-- DTMCS: version 1, 7 address bits, the last DMI status; dmireset clears it. -/
def execDtmcs (value : BitVec 32) (s : State) : Out :=
  tapWhen s ((s.shiftOut 0x10 32 (packNat [(4, 1), (6, 7), (2, s.debugPort.dmiStatus), (20, 0)])).modDebug fun d =>
    if bitOf value.toNat 16 || bitOf value.toNat 17 then { d with dmiStatus := 0 } else d)

/-- DMI (R427, R428): at level 0 every access fails and wakes nothing; otherwise it waits for the debug domain (15 R371).
What is shifted out is the result of the access before. -/
def execDmi (addr : BitVec 7) (data : BitVec 32) (op : BitVec 2) (s : State) : Out :=
  tapWhen s (
    let s1 := s.shiftOut 0x11 41 (packNat [(2, s.debugPort.dmiStatus), (32, s.debugPort.dmi.toNat), (7, addr.toNat)])
    if s.debugPort.level = 0 then s1.modDebug fun d => { d with dmiStatus := 2, dmi := 0 }
    else if !s.domainRuns 105 then s1.askWake 3 105
    else if op = 1 then
      s1.modDebug fun d => { d.afterRead addr.toNat with dmi := BitVec.ofNat 32 (d.read addr.toNat), dmiStatus := 0 }
    else if op = 2 then
      (if addr = 0x10 then s1.writeDmcontrol data.toNat else s1.modDebug fun d => d.write addr.toNat data.toNat).modDebug
        fun d => { d with dmiStatus := 0, dmi := data }
    else s1)

end Sys2Proof.Machine
end

