-- ==== Sys2Proof/Machine/Mailbox.lean ====
section
/-!
DEFINITION. The mailboxes' own hardware (03_nirvex_interface R71 to R73, R454): submission, status, areas, timeout and
late completions.
-/
namespace Sys2Proof.Machine

/-- What the mailbox hardware completes at once, by STATE (R454). -/
def hardwareReply (s : State) : Option Reply :=
  match s.ident.devState with
  | .boot | .warmReset => some { status := .retryLater, hint := 0xFFFF }
  | .halted => some (rStatus .failedCensus)
  | .updating => some (rStatus .busyUpdate)
  | .serving => none

/-- An accepted MB_SUBMIT (R72): BUSY, the snapshot, and what the mailbox hardware completes at once. Every other command is
the Reeve's, which completes one that its opcode, carrier or submitter refuses as soon as it comes to it (R454): at once
where nothing waits before it and no debugger holds the Reeve, for such a command has no row of its own in the table. -/
def State.submit (s : State) (mb : Mb) (seq : Nat) : State :=
  match s.mb? mb with
  | none => s
  | some m =>
    let c : MbCmd := { ticket := s.nextTicket, seq := seq, desc := m.desc, payload := m.payload, at_ := s.clock.now }
    let s1 := { s with nextTicket := s.nextTicket + 1 }
    let s2 := s1.modMb mb fun m =>
      { m with submit := seq, busy := true, done := false, cmd := some c, ticket := c.ticket, since := s.clock.now }
    match hardwareReply s with
    | some r => s2.mbReply ⟨mb, c⟩ r
    | none =>
      if mbAdmin mb then ({ s2 with reeveQueue := s2.reeveQueue ++ [(mb, c.ticket)] }).reeveNext
      else (s2.refuse mb c.ticket).getD s2

/-- A write to MB_SUBMIT: discarded with OVERRUN while BUSY (R72). -/
def State.writeMbSubmit (s : State) (mb : Mb) (v : BitVec 64) : State :=
  match s.mb? mb with
  | none => s
  | some m =>
    if m.busy then s.modMb mb fun m => { m with overrun := true } else s.submit mb (bitsOf v.toNat 0 16)

/-- A write to MB_STATUS: DONE and OVERRUN clear where written 1 (R71), but DONE stands when it was set in this cycle
(R12). -/
def State.writeMbStatus (s : State) (mb : Mb) (v : BitVec 64) : State :=
  s.modMb mb fun m => { m with done := m.done && (!bitOf v.toNat 17 || s.hwNow (.mbDone mb)), overrun := m.overrun && !bitOf v.toNat 18 }

/-- A descriptor with the bytes `bs` from byte `off` on. -/
def descWrite (d : Desc) (off : Nat) (bs : List Byte) : Desc :=
  let all := natToBytes 64 d.toNat
  BitVec.ofNat 512 (bytesToNat ((all.take off ++ bs ++ all.drop (off + bs.length)).take 64))

/-- A write to the descriptor area (offset within it): discarded with OVERRUN while BUSY (R72). -/
def State.writeMbDesc (s : State) (mb : Mb) (off : Nat) (bs : List Byte) : State :=
  s.modMb mb fun m => if m.busy then { m with overrun := true } else { m with desc := descWrite m.desc off bs }

/-- A write to the payload area (offset within it): discarded with OVERRUN while BUSY (R72). -/
def State.writeMbPayload (s : State) (mb : Mb) (off : Nat) (bs : List Byte) : State :=
  s.modMb mb fun m =>
    if m.busy then { m with overrun := true }
    else { m with payload := memWriteBytes m.payload off (bs.take (3840 - off)) }

/-- MAILBOX_TIMEOUT: at 2^18 cycles from MB_SUBMIT the hardware completes the command with UNKNOWN (R73, R454). -/
def execMailboxTimeout (mb : Mb) (s : State) : Out :=
  match s.mb? mb with
  | none => stutter s
  | some m =>
    if m.busy then
      let s1 := s.at_ (m.since + 2 ^ 18)
      let desc := match m.cmd with | some c => c.desc | none => m.desc
      let s2 := s1.modMb mb fun m => { m with late := m.late ++ m.cmd.toList }
      .next (s2.mbWrite mb m.submit desc (rStatus .unknown))
    else stutter s

/-- MB_LATE: the firmware's completion of a command already completed with UNKNOWN is discarded and counted (R73). -/
def execMbLate (mb : Mb) (s : State) : Out :=
  match s.mb? mb with
  | none => stutter s
  | some m =>
    match m.late with
    | [] => stutter s
    | c :: _ => .next ((s.mbTake mb c).mbFinish ⟨mb, c⟩ (rStatus .ok))

end Sys2Proof.Machine
end

