-- ==== Sys2Proof/Machine/SideBand.lean ====
section
/-!
DEFINITION. The side band: Ebunlon's messages, the ladder, event records, the Watchman's watchdog, MCTP control and the bus
(17_watchman_and_debug R414 to R421, R424).
-/
namespace Sys2Proof.Machine

/-! ### Answering (R417, R424, R429) -/

/-- The side band acknowledges its address: the always-on domain runs firmware and the Watchman is not halted. -/
def State.sbListens (s : State) : Bool := s.aoRuns && s.watchmanRuns && !s.debugPort.bscanMode

/-- `t` where the Watchman answers; in recovery mode it answers only what `inRecovery` marks (R424). -/
def sbWhen (s : State) (inRecovery : Bool) (t : State) : Out :=
  if s.sbListens && (inRecovery || !s.watchman.recovery) then .next t else stutter s

/-- A side-band response with its status: 0 SUCCESS, 1 NOT_READY, 2 BUSY, 3 BAD_REQUEST, 4 REFUSED (R418). -/
def State.sbReply (s : State) (command status : Nat) (rest : List Byte) : State := s.emit (.sideBand (sbBody command status rest))

/-! ### SB_MAILBOX and STATUS_READ -/

/-- SB_MAILBOX (R419): the Watchman runs the handshake of R72 on the side-band mailbox. -/
def execSbMailbox (length : Nat) (desc : Desc) (payload : List Byte) (s : State) : Out :=
  sbWhen s false (
    if 3840 < length || payload.length != length then s.sbReply 1 3 []
    else if !s.fetches then s.sbReply 1 1 []
    else if s.sbMb.busy then s.sbReply 1 2 []
    else
      let m := { s.sbMb with desc := desc, payload := memWriteBytes s.sbMb.payload 0 payload, done := false }
      ({ s with sbMb := m }).submit .sideBand ((s.sbMb.submit + 1) % 65536))

/-- The identity block as the side band reads it: as last written while the main side is down, with the present STATE
(Table 17.1). -/
def State.statusBlock (s : State) : List Byte :=
  if s.board.pwrCycleLow then
    let old := fitTo 64 s.board.lastIdent
    let health := bytesAt old 40 8 / 8 * 8 + devStateCode s.ident.devState
    old.take 40 ++ natToBytes 8 health ++ old.drop 48
  else s.identBytes

/-- STATUS_READ (Table 17.3). -/
def execStatusRead (offset count : Nat) (s : State) : Out :=
  sbWhen s false (
    if count = 0 || 1024 < count || 0x800 < offset + count then s.sbReply 2 3 []
    else s.sbReply 2 0 (((fitTo 2048 s.statusBlock).drop offset).take count))

/-! ### The ladder (R420, 03 R65, 13 Table 13.8) -/

/-- An accepted ladder action. -/
def Ladder.accept (l : Ladder) (pen action : Nat) : Ladder :=
  { l with lastPen := pen, lastAction := action, busy := true, result := 0, accepted := l.accepted + 1 }

/-- PEN_REINIT on the ladder, while BUSY is 0. -/
def State.ladderReinit (s : State) (p : Nat) : State :=
  if s.warmPending then { s with ladder := { s.ladder with result := 2 } }
  else match s.pen? p with
    | none => { s with ladder := { s.ladder with result := 1 } }
    | some q =>
      let s1 := { s with ladder := s.ladder.accept p 1 }
      if s.ident.liveUpdate.isSome then { s1 with ladder := { s1.ladder with waiting := some p } }
      else match q.reinit with
        | some r => s1.modPen p fun q => { q with reinit := some { r with viaLadder := true } }
        | none => s1.startReinit p true

/-- WARM_RESET on the ladder, while BUSY is 0. -/
def State.ladderWarm (s : State) (p cause : Nat) : State :=
  if s.warmPending then { s with ladder := { s.ladder with result := 2 } }
  else
    let s1 := ({ s with ladder := s.ladder.accept p 2 }).triggerWarm cause
    if s1.warmPending then s1 else { s1 with ladder := { s1.ladder with busy := false } }

/-- A LADDER command with its CONFIRM. -/
def sbLadder (s : State) (inRecovery : Bool) (confirm : BitVec 16) (body : State) : Out :=
  sbWhen s inRecovery (if confirm = 0xA5C3 then body else s.sbReply 3 3 [])

/-- SB_PEN_REINIT (R420): refused while the main side is down, and where Table 13.8 refuses. -/
def execSbPenReinit (pen : Nat) (confirm : BitVec 16) (s : State) : Out :=
  sbLadder s false confirm (
    if s.board.pwrCycleLow || s.ident.devState = .boot || s.ladder.busy then s.sbReply 3 4 []
    else
      let s1 := s.ladderReinit pen
      s1.sbReply 3 (if s1.ladder.busy then 0 else 4) [])

/-- SB_WARM_RESET (R420): LAST_CAUSE SIDE_BAND. -/
def execSbWarmReset (confirm : BitVec 16) (s : State) : Out :=
  sbLadder s false confirm (
    if s.ladder.busy || s.warmPending || s.ident.devState = .boot then s.sbReply 3 4 []
    else (s.ladderWarm 0 9).sbReply 3 0 [])

/-- SB_POWER_CYCLE (R420): PWR_CYCLE_L low for 2^26 cycles. -/
def execSbPowerCycle (confirm : BitVec 16) (s : State) : Out :=
  sbLadder s false confirm (
    if s.board.pwrCycleLow then s.sbReply 3 4 []
    else
      let s1 := s.powerCycle 9
      ({ s1 with board := { s1.board with hold := 3 } }).sbReply 3 0 [])

/-- RELEASE (R420): ends a hold once 2^26 cycles have passed since the assertion. -/
def execRelease (confirm : BitVec 16) (s : State) : Out :=
  sbLadder s false confirm (
    if !s.board.pwrCycleLow || decide (s.clock.now < s.board.pwrCycleSince + 2 ^ 26) then s.sbReply 3 4 []
    else s.riseAgain.sbReply 3 0 [])

/-! ### Event records (R421) -/

/-- The record after HEAD, or the next ring with an attention, or nothing: then IDLE is written (14 R367). -/
def State.serveRing (s : State) (r : Nat) : State :=
  let e := (s.crierOf 0).ring r
  if e.head != e.written then s.sendRecord r 0
  else
    let s1 := s.writeConsumer 0 r (BitVec.ofNat 64 (e.head + 2 ^ 32))
    match s1.watchman.attention with
    | [] => s1
    | r2 :: rest =>
      if s1.watchman.record.isSome then s1
      else ({ s1 with watchman := { s1.watchman with attention := rest } }).watchmanTakes r2

/-- EVENT_SUBSCRIBE (R421): 0x00 unsubscribes. A new subscriber is served the rings whose attention waits. -/
def execEventSubscribe (eid : BitVec 8) (s : State) : Out :=
  sbWhen s false (
    let s1 := s.sbReply 4 0 []
    if eid = 0 then { s1 with watchman := { s1.watchman with subscriber := none, record := none } }
    else
      let s2 := { s1 with watchman := { s1.watchman with subscriber := some eid } }
      match s2.watchman.attention with
      | [] => s2
      | r :: rest =>
        if s2.watchman.record.isSome then s2
        else ({ s2 with watchman := { s2.watchman with attention := rest } }).watchmanTakes r)

/-- EVENT_RECORD (R421): the subscriber's response; the record is consumed, and the next one goes out. -/
def execEventRecord (s : State) : Out :=
  match s.watchman.record with
  | none => stutter s
  | some (r, _, _) =>
    sbWhen s false (
      let s1 := { s with watchman := { s.watchman with record := none } }
      let e := (s1.crierOf 0).ring r
      if e.head = e.written then s1 else (s1.writeConsumer 0 r (BitVec.ofNat 64 (add32 e.head 1))).serveRing r)

/-- EVENT_RECORD_TIMEOUT (R421): sent again, up to three times; then the subscription ends. -/
def execEventRecordTimeout (s : State) : Out :=
  match s.watchman.record with
  | none => stutter s
  | some (r, t, n) =>
    if !s.sbListens then stutter s
    else
      let s1 := s.at_ (t + 2 ^ 20)
      if n < 3 then .next (s1.sendRecord r (n + 1))
      else .next { s1 with watchman := { s1.watchman with record := none, subscriber := none } }

/-! ### The Watchman itself (R418, R424) -/

/-- FW_VERSION of the Watchman image that runs. -/
def State.watchmanVersion (s : State) : Nat :=
  match s.security.watchmanRunning with | some i => i.version.toNat | none => Config.watchmanVersion.toNat

/-- WATCHMAN_STATUS (Table 17.3). -/
def execWatchmanStatus (s : State) : Out :=
  sbWhen s true (s.sbReply 6 0 (packBytes 9 [(24, s.watchmanVersion), (16, s.watchman.resetCount),
    (8, bitNat s.watchman.recovery), (8, if s.board.pwrCycleLow then s.board.hold else 0), (3, s.recovery.lastRung),
    (5, s.recovery.lastCause), (8, 0)]))

/-- SB_BAD_REQUEST (R418): an unknown COMMAND, a wrong length or a reserved byte that is not zero. -/
def execSbBadRequest (command : BitVec 8) (_operands : List Byte) (s : State) : Out :=
  sbWhen s false (s.sbReply command.toNat 3 [])

/-- The Watchman core resets at the present cycle: its watchdogs restart, what its firmware held is gone, and the third
reset within 2^26 cycles of the first enters recovery mode (R424). -/
def State.watchmanResets (s : State) : State :=
  let now := s.clock.now
  let resets := (s.watchman.resets.filter fun t => decide (now ≤ t + 2 ^ 26)) ++ [now]
  let w := { s.watchman with
    subscriber := none, record := none, attention := [], update := none, eid := none, serviced := now, watchFrom := now,
    resets := resets, resetCount := satBits 16 (s.watchman.resetCount + 1),
    recovery := s.watchman.recovery || decide (3 ≤ resets.length) }
  ({ s with watchman := w }).modHart 16 fun h => { h with halted := h.haltOnReset, resumeAck := false, haveReset := true }

/-- WATCHMAN_WATCHDOG (R424): 2^20 cycles without a service. -/
def execWatchmanWatchdog (s : State) : Out :=
  if s.sbListens then .next (s.at_ (s.watchman.serviced + 2 ^ 20)).watchmanResets else stutter s

/-! ### MCTP control (R417, Table 17.2): command and completion codes are DSP0236's (PRESUMED) -/

/-- A message to endpoint `dest` is for this device: its own EID or the null EID; before it has one, the null EID only. -/
def State.forMe (s : State) (dest : BitVec 8) : Bool :=
  dest == 0 || (match s.watchman.eid with | some e => dest == e | none => false)

/-- A control response: command, completion code, data. -/
def State.mctpReply (s : State) (command code : Nat) (rest : List Byte) : State :=
  s.emit (.sideBand (packBytes 3 [(8, 0), (8, command), (8, code)] ++ rest))

/-- `t` where a control request to `dest` is answered. -/
def mctpWhen (s : State) (dest : BitVec 8) (t : State) : Out := if s.forMe dest then sbWhen s true t else stutter s

/-- SET_ENDPOINT_ID. -/
def execSetEndpointId (dest eid : BitVec 8) (s : State) : Out :=
  mctpWhen s dest (if eid = 0 || eid = 0xFF then s.mctpReply 1 2 []
    else ({ s with watchman := { s.watchman with eid := some eid } }).mctpReply 1 0 [0, eid, 0])

/-- GET_ENDPOINT_ID. -/
def execGetEndpointId (dest : BitVec 8) (s : State) : Out :=
  mctpWhen s dest (s.mctpReply 2 0 [s.watchman.eid.getD 0, 0, 0])

/-- GET_ENDPOINT_UUID. -/
def execGetEndpointUuid (dest : BitVec 8) (s : State) : Out :=
  mctpWhen s dest (s.mctpReply 3 0 (natToBytes 16 Config.endpointUuid.toNat))

/-- The message types of Table 17.2. -/
def mctpTypes : List Byte := [0x00, 0x01, 0x05, 0x7E]

/-- GET_MCTP_VERSION_SUPPORT: for the base protocol (0xFF) or a message type. -/
def execGetMctpVersionSupport (dest : BitVec 8) (type : BitVec 8) (s : State) : Out :=
  mctpWhen s dest (if type = 0xFF || mctpTypes.contains type then s.mctpReply 4 0 (Config.mctpVersions type.toNat)
    else s.mctpReply 4 0x80 [])

/-- GET_MESSAGE_TYPE_SUPPORT. -/
def execGetMessageTypeSupport (dest : BitVec 8) (s : State) : Out :=
  mctpWhen s dest (s.mctpReply 5 0 (natToBytes 1 mctpTypes.length ++ mctpTypes))

/-- GET_VENDOR_MESSAGE_SUPPORT: one vendor id, 0xEB10. -/
def execGetVendorMessageSupport (dest : BitVec 8) (selector : BitVec 8) (s : State) : Out :=
  mctpWhen s dest (if selector = 0 then s.mctpReply 6 0 [0xFF, 0, 0x10, 0xEB] else s.mctpReply 6 2 [])

/-- A control command not in Table 17.2: ERROR_UNSUPPORTED_CMD. -/
def execUnsupportedMctpCmd (dest command : BitVec 8) (s : State) : Out :=
  if 1 ≤ command.toNat && decide (command.toNat ≤ 6) then stutter s else mctpWhen s dest (s.mctpReply command.toNat 5 [])

/-- MCTP_MESSAGE_DISCARD (R417): a message over 4,096 bytes, one that breaks reassembly, or one for another endpoint has no
effect. -/
def execMctpMessageDiscard (_dest : BitVec 8) (_length : Nat) (_reassembles : Bool) (s : State) : Out := .next s

/-! ### The bus (R416) -/

/-- The device becomes an I3C target at an address, or returns to SMBus. -/
def State.busAddress (s : State) (a : Option (BitVec 7)) : State := { s with watchman := { s.watchman with i3cAddress := a } }

/-- ENTDAA. -/
def execEntdaa (address : BitVec 7) (s : State) : Out := onlyIf s.sbListens s (s.busAddress (some address))

/-- SETDASA. -/
def execSetdasa (address : BitVec 7) (s : State) : Out := sbWhen s true (s.busAddress (some address))

/-- RSTDAA. -/
def execRstdaa (s : State) : Out := sbWhen s true (s.busAddress none)

end Sys2Proof.Machine
end

