-- ==== Sys2Proof/Machine/Pldm.lean ====
section
/-!
DEFINITION. PLDM (17_watchman_and_debug R422, R423). Command, completion and state codes are those of DSP0240, DSP0248 and
DSP0267 (PRESUMED).
-/
namespace Sys2Proof.Machine

/-- A PLDM response: type, command, completion code, data. -/
def State.pldmReply (s : State) (type command code : Nat) (rest : List Byte) : State :=
  s.emit (.sideBand (packBytes 4 [(8, 0x01), (8, type), (8, command), (8, code)] ++ rest))

/-- A PLDM request of the device to the update agent. -/
def State.pldmAsk (s : State) (command : Nat) (rest : List Byte) : State :=
  s.emit (.sideBand (packBytes 3 [(8, 0x01), (8, 5), (8, command)] ++ rest))

/-! ### Type 0 -/

/-- GetTID. -/
def execGettid (s : State) : Out := sbWhen s false (s.pldmReply 0 0x02 0 [Config.pldmTid])

/-- The PLDM types of Table 17.2. -/
def pldmTypes : List Nat := [0, 2, 5]

/-- GetPLDMVersion: the whole answer in one part. -/
def execGetpldmversion (type : BitVec 8) (s : State) : Out :=
  sbWhen s false (if pldmTypes.contains type.toNat then
      s.pldmReply 0 0x03 0 (packBytes 5 [(32, 0), (8, 5)] ++ Config.pldmVersions type.toNat)
    else s.pldmReply 0 0x03 0x83 [])

/-- GetPLDMTypes: a bit per type. -/
def execGetpldmtypes (s : State) : Out :=
  sbWhen s false (s.pldmReply 0 0x04 0 (natToBytes 8 ((pldmTypes.map fun t => 2 ^ t).sum)))

/-- The command bitmap of a type (R422). -/
def pldmCommands : Nat → Nat
  | 0 => 2 ^ 0x02 + 2 ^ 0x03 + 2 ^ 0x04 + 2 ^ 0x05
  | 2 => 2 ^ 0x11 + 2 ^ 0x21 + 2 ^ 0x50 + 2 ^ 0x51
  | _ => Config.pldmUpdateCommands.toNat

/-- GetPLDMCommands. -/
def execGetpldmcommands (type : BitVec 8) (s : State) : Out :=
  sbWhen s false (if pldmTypes.contains type.toNat then
      s.pldmReply 0 0x05 0 (natToBytes 32 (pldmCommands type.toNat))
    else s.pldmReply 0 0x05 0x83 [])

/-! ### Type 2 (Table 17.4) -/

/-- The units of the census, on which the PDR repository depends. -/
def State.censusUnits (s : State) : List (List Nat) :=
  let inCensus (ports : List (Nat × Port)) : List Nat := (ports.filter fun p => p.2.census).map (·.1)
  [s.recovery.oxen, s.recovery.gleaners, s.recovery.drovers, s.recovery.channels, s.recovery.hbmStacks,
    inCensus s.stepPorts, inCensus s.commons.ports]

/-- GetPDRRepositoryInfo: the repository is available. -/
def execGetpdrrepositoryinfo (s : State) : Out :=
  sbWhen s false (s.pldmReply 2 0x50 0 (0 :: Config.pdrInfo s.ident.pc s.censusUnits))

/-- GetPDR. -/
def execGetpdr (record : BitVec 32) (s : State) : Out :=
  sbWhen s false (match Config.pdr s.ident.pc s.censusUnits record.toNat with
    | some d => s.pldmReply 2 0x51 0 d
    | none => s.pldmReply 2 0x51 0x82 [])

/-- The present state of a temperature reading against its thresholds: NORMAL, or UPPER WARNING, CRITICAL, FATAL at the
derate, truncate and shutdown values of Table 15.4. -/
def thermalState (i : Nat) (t : Int) : Nat :=
  let (derate, truncate, _, shutdown) := sensorLimits i
  if sixteenths shutdown ≤ t then 0x0A
  else if sixteenths truncate ≤ t then 0x09
  else if sixteenths derate ≤ t then 0x08
  else 0x01

/-- A sensor answer: operational state, present state with the free previous and event states, and the reading. -/
def State.sensorReply (s : State) (size op present : Nat) (reading : List Byte) : State :=
  let (n, s1) := s.draw
  s1.pldmReply 2 0x11 0 (packBytes 6 [(8, size), (8, op), (8, 0), (8, present), (16, (Config.sensorHistory n).toNat)] ++ reading)

/-- A numeric reading of 32 bits. -/
def State.countReply (s : State) (v : Nat) : State := s.sensorReply 4 0 1 (natToBytes 4 v)

/-- Temperature sensor `i`: unavailable while its die has no power, failed with the substitute reading (R422). -/
def State.thermalReply (s : State) (i : Nat) : State :=
  if s.board.pwrCycleLow then s.sensorReply 3 2 0 (natToBytes 2 0)
  else
    let t := s.hearth.reading i
    s.sensorReply 3 (if (s.hearth.sensor i).failed then 4 else 0) (thermalState i t) (natToBytes 2 (t % 65536).toNat)

/-- Census counts 0x0110 to 0x0117. -/
def State.censusCount (s : State) : Nat → Nat
  | 0 => s.recovery.oxen.length
  | 1 => s.recovery.gleaners.length
  | 2 => s.recovery.drovers.length
  | 3 => s.recovery.channels.length
  | 4 => s.recovery.hbmStacks.length
  | 5 => s.stepPortCount
  | 6 => s.commonsPortCount
  | _ => s.ident.censusGeneration.toNat

/-- GetSensorReading: the numeric sensors of Table 17.4; power is the energy of 1,024 cycles over their 40.96 µs. -/
def execGetsensorreading (sensor : BitVec 16) (s : State) : Out :=
  let i := sensor.toNat
  sbWhen s false (
    if 1 ≤ i && i ≤ 0x50 then s.thermalReply (i - 1)
    else if i = 0x60 then s.countReply (s.hearth.lastEnergy * 25 / 1024)
    else if i = 0x61 then s.countReply s.hearth.store
    else if i = 0x62 then s.countReply (s.hearth.derate * 65536 / 320)
    else if i = 0x63 then s.countReply s.hearth.owed
    else if 0x110 ≤ i && i ≤ 0x117 then s.countReply (s.censusCount (i - 0x110))
    else s.pldmReply 2 0x11 0x80 [])

/-- The value of a state sensor (Table 17.4). -/
def State.stateSensor (s : State) : Nat → Option Nat
  | 0x100 => some (devStateCode s.ident.devState)
  | 0x101 => some s.debugPort.level
  | 0x102 => some (bitNat s.hearth.truncated)
  | _ => none

/-- GetStateSensorReadings: one sensor, its present state, and the free previous and event states. -/
def execGetstatesensorreadings (sensor : BitVec 16) (s : State) : Out :=
  sbWhen s false (match s.stateSensor sensor.toNat with
    | some v =>
      let (n, s1) := s.draw
      s1.pldmReply 2 0x21 0 (packBytes 5 [(8, 1), (8, 0), (8, v), (16, (Config.sensorHistory n).toNat)])
    | none => s.pldmReply 2 0x21 0x80 [])

/-- The commands that R422 lists, and those that DSP0267 has a firmware device answer. -/
def pldmListed : Nat → Nat → Bool
  | 0, c => [0x02, 0x03, 0x04, 0x05].contains c
  | 2, c => [0x11, 0x21, 0x50, 0x51].contains c
  | 5, c => [0x01, 0x02, 0x10, 0x13, 0x14, 0x15, 0x1A, 0x1B, 0x1C, 0x1D].contains c
  | _, _ => false

/-- UNSUPPORTED_PLDM_CMD: ERROR_UNSUPPORTED_PLDM_CMD. -/
def execUnsupportedPldmCmd (type command : BitVec 8) (s : State) : Out :=
  if pldmListed type.toNat command.toNat then stutter s
  else sbWhen s (type == 5) (s.pldmReply type.toNat command.toNat 5 [])

/-! ### Type 5: firmware update (R423, 18 R442) -/

/-- A mailbox FW_STAGE has not completed. -/
def State.stagingByMailbox (s : State) : Bool :=
  (Mb.admin :: Mb.sideBand :: s.pens.map fun q => Mb.pen q.1).any fun mb => (mbNext s mb 0x0060).isSome

/-- An update of component `c` may run: in service both components; in recovery mode the Watchman's; where both Reeve slots
failed, the Reeve's too (R424, Table 17.1, 18 R442). -/
def State.updatable (s : State) (c : Nat) : Bool :=
  if s.watchman.recovery then c == 2 else !s.board.pwrCycleLow && (s.fetches || s.board.noReeve)

/-- The request for the next block of 1,024 bytes. -/
def State.askBlock (s : State) (off : Nat) : State := s.pldmAsk 0x15 (packBytes 8 [(32, off), (32, 1024)])

/-- REQUESTUPDATE: an update of a component of `size` bytes begins. -/
def execRequestupdate (component : BitVec 16) (size : Nat) (s : State) : Out :=
  let c := component.toNat
  sbWhen s (c == 2) (
    if s.watchman.update.isSome || s.ident.liveUpdate.isSome || s.stagingByMailbox then s.pldmReply 5 0x10 0x81 []
    else if !(c == 1 || c == 2) then s.pldmReply 5 0x10 2 []
    else if !s.updatable c then s.pldmReply 5 0x10 4 []
    else
      let u : Update := { component := c, size := size, last := s.clock.now }
      (({ s with watchman := { s.watchman with update := some u } }).pldmReply 5 0x10 0 (packBytes 3 [])).askBlock 0)

/-- The whole image has come: VerifyComplete, and on success ApplyComplete with the image staged (R403). -/
def State.verifyUpdate (s : State) (u : Update) : State :=
  let s1 := s.pldmAsk 0x16 [0]
  match checkImage s.security.rollback u.size u.received with
  | .error _ => s1.pldmAsk 0x17 [1]
  | .ok i =>
    if i.watchman != (u.component == 2) then s1.pldmAsk 0x17 [1]
    else
      let s2 := (s1.pldmAsk 0x17 [0]).stage i
      ({ s2 with watchman := { s2.watchman with update := some { u with staged := true } } }).pldmAsk 0x18 [0, 0, 0]

/-- REQUESTFIRMWAREDATA: a block arrives. `readsBack`: the write of a Reeve image has read back (18 R442). -/
def execRequestfirmwaredata (block : List Byte) (readsBack : Bool) (s : State) : Out :=
  match s.watchman.update with
  | none => stutter s
  | some u =>
    if !s.updatable u.component || u.size ≤ u.received.length && u.size != 0 || u.staged then stutter s
    else
      let got := (u.received ++ fitTo 1024 block).take u.size
      if u.size ≤ got.length && u.component == 1 && !readsBack then stutter s
      else
        let u1 := { u with received := got, last := s.clock.now }
        let s1 := { s with watchman := { s.watchman with update := some u1 } }
        sbWhen s (u.component == 2) (if u.size ≤ got.length then s1.verifyUpdate u1 else s1.askBlock got.length)

/-- An image activated where no Reeve slot passed boots at once (18 R442). -/
def State.bootImage (s : State) (i : Image) : State :=
  { s with security := { s.security.runNew i with staged := none }, board := { s.board with noReeve := false, booting := true },
           ident := { s.ident with devState := .boot } }

/-- ACTIVATEFIRMWARE: as FW_ACTIVATE (R82, R403). -/
def execActivatefirmware (s : State) : Out :=
  sbWhen s true (
    match s.watchman.update with
    | none => s.pldmReply 5 0x1A 0x80 []
    | some u =>
      if !s.updatable u.component then s.pldmReply 5 0x1A 0x84 []
      else match (if u.staged then s.security.staged else none) with
        | none => s.pldmReply 5 0x1A 0x85 []
        | some i =>
          if decide (i.svn < s.security.rollback) then s.pldmReply 5 0x1A 1 []
          else
            let s1 := { s with watchman := { s.watchman with update := none } }
            let s2 := if s.board.noReeve && !i.watchman then s1.bootImage i else s1.activate i
            s2.pldmReply 5 0x1A 0 (natToBytes 2 0))

/-- The update ends without activation: what it staged is discarded. -/
def State.dropUpdate (s : State) (u : Update) : State :=
  let s1 := { s with watchman := { s.watchman with update := none } }
  if u.staged then { s1 with security := { s1.security with staged := none } } else s1

/-- CANCELUPDATE. -/
def execCancelupdate (s : State) : Out :=
  sbWhen s true (
    match s.watchman.update with
    | none => s.pldmReply 5 0x1D 0x80 []
    | some u => (s.dropUpdate u).pldmReply 5 0x1D 0 (packBytes 9 []))

/-- PLDM_UPDATE_IDLE: 2^28 cycles without a transfer. -/
def execPldmUpdateIdle (s : State) : Out :=
  match s.watchman.update with
  | none => stutter s
  | some u => .next ((s.at_ (u.last + 2 ^ 28)).dropUpdate u)

end Sys2Proof.Machine
end

