-- ==== Sys2Proof/Machine/Board.lean ====
section
/-!
DEFINITION. Reset pins, rails, clocks and boot (18_board_design R438 to R443, R447; 00_scope R451).
-/
namespace Sys2Proof.Machine

/-! ### Reset of the whole device (R440) -/

/-- Stored cycles of a ring, in a count that starts anew. -/
def Ring.rebase (now : Nat) (g : Ring) : Ring :=
  { g with createdAt := min g.createdAt now, nextSample := nextMultiple (2 ^ (10 + g.toll.sampleLog2)) now }

/-- Stored cycles of an index. -/
def Index.rebase (now : Nat) (x : Index) : Index := { x with waiting := x.waiting.map fun t => min t now }

/-- Stored cycles of a pen. -/
def Pen.rebase (now : Nat) (q : Pen) : Pen :=
  { q with createdAt := min q.createdAt now, rings := mapVals (Ring.rebase now) q.rings,
           indexes := mapVals (Index.rebase now) q.indexes }

/-- Stored cycles of a session. -/
def Session.rebase (now : Nat) (x : Session) : Session :=
  { x with faultedSince := min x.faultedSince now, parkedSince := min x.parkedSince now, readyCycle := min x.readyCycle now }

/-- Stored cycles of a registry slice. -/
def Slice.rebase (now : Nat) (x : Slice) : Slice :=
  { x with entries := mapVals (fun e : RegEntry => { e with offerAt := min e.offerAt now }) x.entries }

/-- No stored cycle is later than the present one (R451). -/
def State.rebase (s : State) : State :=
  let now := s.clock.now
  { s with pens := mapVals (Pen.rebase now) s.pens, sessions := mapVals (Session.rebase now) s.sessions,
           slice := s.slice.rebase now, flashSlice := s.flashSlice.rebase now, hwAt := [] }

/-- PORST_L acts: the whole device resets, the Watchman included, and for data the power is gone (R440). -/
def State.porstReset (s : State) : State :=
  let s1 := if s.board.pwrCycleLow then s.emit (.pwrCycle false) else s
  let s2 := { s1.powerLoss with clock := {} }
  ({ s2 with recovery := {}, watchman := {}, debugPort := { tap := 0x01 }
             board := { s2.board with pwrCycleLow := false, pwrCycleSince := 0, hold := 0, powerOn := none, powerTries := 0,
                                      booting := false } }).rebase

/-- PORST_L_ASSERT: below 1 µs it is ignored, from 10 µs it resets the device; between, the manual leaves it open (R440). -/
def execPorstLAssert (nanoseconds : Nat) (s : State) : Out :=
  if nanoseconds < 1000 || s.board.porst then stutter s
  else
    let (n, s1) := s.draw
    if 10000 ≤ nanoseconds || Config.porstTakes n then
      let s2 := s1.porstReset
      .next { s2 with board := { s2.board with porst := true } }
    else stutter s1

/-! ### Release (R441, R442) -/

/-- The image may run against the rollback fuses (16 R403). -/
def Security.allows (x : Security) : Option Image → Bool
  | none => x.rollback == 0 || decide (x.rollback ≤ Config.bootSvn)
  | some i => decide (x.rollback ≤ i.svn)

/-- The slot the boot ROM runs (R442): the active one, else the other. -/
def Security.bootSlot (x : Security) (slots : Option Image × Option Image) (found : SlotBoot) : Option (Option Image) :=
  let other := if x.allows slots.2 then some slots.2 else none
  match found with
  | .active => if x.allows slots.1 then some slots.1 else other
  | .other => other
  | .neither => none

/-- PORST_L and all that acts as it are released: the count of always-on cycles starts at 0, the Watchman runs, and the boot
begins, unless the strap asks for boundary scan (R426, R441, R451). With neither Watchman slot good, its core resets until
recovery mode (17 R424). -/
def State.released (s : State) : State :=
  if !s.aoRuns then s
  else
    let found := s.security.bootSlot s.security.watchmanSlots s.board.watchmanBoot
    let w : Watchman := if found.isSome then {} else { resets := [0, 0, 0], resetCount := 3, recovery := true }
    let sec := { s.security with watchmanRunning := found.getD s.security.watchmanRunning }
    { s with clock := {}, watchman := w, security := sec, debugPort := { s.debugPort with bscanMode := s.board.bscanStrap },
             board := { s.board with booting := !s.board.bscanStrap } }

/-- PORST_L_RELEASE: the straps are sampled (R440, 11 R271), and the identity certificate checks or not (16 R392). -/
def execPorstLRelease (nodeSel : BitVec 13) (bscanL : Bool) (certOk : Bool) (watchman : SlotBoot) (s : State) : Out :=
  if !s.board.porst then stutter s
  else
    let b := { s.board with porst := false, strap := nodeSel, bscanStrap := !bscanL, watchmanBoot := watchman }
    .next ({ s with board := b, security := { s.security with certValid := certOk } }).released

/-! ### Rails and the always-on clock (R439, R443) -/

/-- RAIL_FAULT: a rail out of order holds the device in reset; after release, a rail below 90 % of nominal acts as PORST_L,
but for those that the board takes away while PWR_CYCLE_L is low (R440). Rails are numbered as Table 18.4 orders them. -/
def execRailFault (rail : Nat) (outOfOrder : Bool) (s : State) : Out :=
  if rail = 0 || 11 < rail then .fault .noSuchUnit
  else if outOfOrder then
    let s1 := s.porstReset
    .next { s1 with board := { s1.board with railOrder := true } }
  else if s.board.porst || (s.board.pwrCycleLow && decide (3 ≤ rail)) then stutter s
  else
    let s1 := s.porstReset
    .next { s1 with board := { s1.board with railFault := true } }

/-- RAIL_RESTORED: every rail is in tolerance again; after an order fault, all were removed and applied in order. -/
def execRailRestored (s : State) : Out :=
  if s.board.railFault || s.board.railOrder then
    .next ({ s with board := { s.board with railFault := false, railOrder := false } }).released
  else stutter s

/-- REFCLK_AO_LOSS: acts as PORST_L until the clock returns. -/
def execRefclkAoLoss (s : State) : Out :=
  if s.board.refclkLost then stutter s
  else
    let s1 := s.porstReset
    .next { s1 with board := { s1.board with refclkLost := true } }

/-- REFCLK_AO_RETURN. -/
def execRefclkAoReturn (s : State) : Out :=
  if s.board.refclkLost then .next ({ s with board := { s.board with refclkLost := false } }).released else stutter s

/-- WARM_RST_L: a warm reset at the falling edge, once STATE has read SERVING (R440). -/
def execWarmRstL (nanoseconds : Nat) (s : State) : Out :=
  if 1000 ≤ nanoseconds && s.aoRuns && s.board.served && !s.board.pwrCycleLow then .next (s.triggerWarm 2) else stutter s

/-! ### Boot (R441, R447, 13 R351) -/

/-- The channels of group `g` among those that answer. -/
def inGroup (g : Nat) (channels : List Nat) : List Nat := channels.filter fun c => c / 16 == g

/-- The census of the flash channels (R447): groups of 16 and of 15 answering channels join; one that no die answers for is
unpopulated. -/
def flashCensus (answering : List Nat) : List Nat :=
  (List.range 8).flatMap fun g =>
    let own := (List.range 128).filter fun c => c / 16 == g && answering.contains c
    if own.length < 15 then [] else own

/-- The recovery unit's state at the end of self-test. -/
def Recovery.boot (r : Recovery) (channels hbmStacks : List Nat) (lostUnits : List ResetUnit) : Recovery :=
  let answering := channels.filter fun c => !lostUnits.contains (.flashController c)
  let joined := flashCensus answering
  let r1 := { r with
    oxen := List.range 64, gleaners := List.range 128, drovers := List.range 16, channels := joined,
    lostChannels := (List.range 128).filter fun c => !joined.contains c && decide ((inGroup (c / 16) joined).length = 15),
    hbmStacks := (List.range 12).filter fun i => hbmStacks.contains i,
    unpopulated := (List.range 8).filter fun g => (inGroup g channels).isEmpty }
  let dropOther (r : Recovery) (u : ResetUnit) : Recovery := match u with
    | .flashController _ => r
    | _ => r.dropUnit u
  lostUnits.foldl dropOther r1

/-- The timers' last firings are the latest multiples of their intervals (R451). -/
def Clock.resync (c : Clock) : Clock :=
  let at_ (m : Nat) : Nat := c.now / m * m
  { c with tollTick := at_ 1024, heartbeatWindow := at_ (2 ^ 18), reeveHeartbeat := at_ (2 ^ 16), serviceStep := at_ (2 ^ 15),
           hearthTick := at_ 1024, overrunWindow := at_ (2 ^ 20), partnerRetry := at_ (2 ^ 26) }

/-- Ports after power-on: in training (R252, 11 R276); a LYS4160-PC has no Step Link ports. -/
def State.bootPorts (s : State) : State :=
  let up (n : Nat) : List (Nat × Port) := (List.range n).map fun i => (i, { state := .training, since := s.clock.now })
  { s with stepPorts := if s.ident.pc then [] else up 8, commons := { s.commons with ports := up 18 } }

/-- What a session is after power-on (13 R351): homed in T1, it is FAULTED with HOME_LOST and regrown; homed in T2, its
regrowth starts anew, or it faults for what it had in T1. -/
def State.bootSession (s : State) (h : Handle) : State :=
  match s.sess? h with
  | none => s
  | some x =>
    if x.state = .closed then s
    else if x.tier != .t2 then s.regrowAs h x
    else if x.state = .faulted then s.recover h fun _ => false
    else if (s.lowestMissing x).isSome then s.faultSession h .homeLost fun _ => false
    else s

/-- The Reeve's image runs, and rollback steps left over are tried again (16 R404). -/
def Security.bootReeve (x : Security) (i : Option Image) (blown : Nat) : Security :=
  match i with
  | none => { x with running := none }
  | some i => ({ x with running := some i }).blow i.svn blown

/-- The boot from the incarnation on (Table 18.5), with the Reeve image `i`. -/
def State.boot (s : State) (channels hbmStacks : List Nat) (lostUnits : List ResetUnit) (i : Option Image) (blown : Nat) :
    State :=
  let s1 := { s.riseIncarnation.climb with clock := s.clock.resync, security := s.security.bootReeve i blown,
                                           board := { s.riseIncarnation.board with booting := false } }
  let s2 : State := ({ s1 with
    recovery := s1.recovery.boot channels hbmStacks lostUnits
    hearth := s1.hearth.applyLimits
    ident := { s1.ident with nodeNumber := s1.board.strap, nodeValid := true, reeveHeartbeatChanged := s1.clock.now }
    watchman := { s1.watchman with watchFrom := s1.clock.now }
    -- the higher of the own and the partner's root sequence anchors the translation tables (16 R397)
    t2 := { s1.t2 with lost := [], root := max s1.t2.root s1.t2.rootMirror } } : State).bootPorts.rebase
  let s3 := ((s2.sessions.map (·.1)).foldl (fun t h => t.bootSession h) s2).announce
  let s4 := s3.serve
  let s5 : State := if s4.commons.exhausted then s4.raise 0 0x0605 0 0 else s4
  if s5.ident.devState = .serving then { s5 with board := { s5.board with powerOn := none, powerTries := 0 } } else s5

/-- BOOT_SERVING (R441): the boot ends. `channels`: those that some die answers on; `hbmStacks`: the HBM stacks that train;
`lostUnits`: what fails self-test; `reeve`: what the boot ROM finds of the Reeve's slots; `blown`: rollback steps that
program. -/
def execBootServing (channels hbmStacks : List Nat) (lostUnits : List ResetUnit) (reeve : SlotBoot) (blown : Nat) (s : State) :
    Out :=
  if !s.board.booting || !s.aoRuns || s.board.pwrCycleLow then stutter s
  else match s.security.bootSlot s.security.reeveSlots reeve with
    | some i => .next (s.boot channels hbmStacks lostUnits i blown)
    | none => .next { s with board := { s.board with booting := false, noReeve := true },
                             ident := { s.ident with devState := .halted } }

end Sys2Proof.Machine
end

