-- ==== Sys2Proof/Machine/Fetch.lean ====
section
/-!
DEFINITION. FETCH (04_tollgate R83, R87): the checks of R69 whole, the opcode's own operand checks among them, before a
command is coloured.
-/
namespace Sys2Proof.Machine

/-- BAD_PARAM for the byte a check names. -/
def offends : Option Nat → Option Reply
  | some k => some (rBad k)
  | none => none

/-- The session a command names and its layout. -/
def State.sessLayout? (s : State) (d : Desc) : Option (Session × Layout) :=
  (s.sess? (descHandle d)).bind fun x => (s.layout? x.layout).map fun l => (x, l)

/-- The opcode's own operand checks of R69, on the descriptor and on what it names, for a command of pen `p`. Checks of what
a command finds at an address, or of what earlier commands of the ring may still change, come where it executes. -/
def ringOperands (s : State) (p : Nat) (d : Desc) : Option Reply :=
  let indexed (rest : Option Reply) : Option Reply := if (s.index? p (operand d 0 4)).isNone then some (rBad 16) else rest
  match descOpcode d with
  | 0x0100 => (s.pen? p).bind fun q => offends (openOffence s q d)
  | 0x0106 => (s.pen? p).bind fun q => (s.sessLayout? d).bind fun x => offends (configOffence q x.2 d)
  | 0x0107 => (s.sess? (descHandle d)).bind fun x => if s.noFlockFor x (operand d 0 1) then some (rBad 16) else none
  | 0x0110 => (s.sessLayout? d).bind fun x => textRefusal x.2 d
  | 0x0111 => (s.sessLayout? d).bind fun x =>
      if 262144 < operand d 8 4 then some (rStatus .badLength) else offends (badAmong (tokensChecks x.2 d))
  | 0x0112 => (s.sessLayout? d).bind fun x => if outputBadLength x.2 (operand d 8 4) then some (rStatus .badLength) else none
  | 0x0120 | 0x0121 => indexed (if 65536 < operand d 16 4 then some (rStatus .badLength) else none)
  | 0x0122 => indexed none
  | 0x0123 => offends (badAmong (searchChecks (s.index? p (operand d 0 4)).isNone d))
  | _ => none

/-- The checks of R69 for a ring command, in order. -/
def fetchRefusal (s : State) (p : Nat) (d : Desc) : Option Reply := (ringCheck s p d).or (ringOperands s p d)

/-- FETCH: the Tollgate reserves a CQ slot, fetches the ring's next descriptor, checks it and colours it (R74, R83, R69,
R87, R90). -/
def execFetch (p k : Nat) (d : Desc) (s : State) : Out :=
  match s.ring? p k, s.fetchTurn p k with
  | some g, some arb =>
    if !s.fetches || !g.fetchable then stutter s
    else
      let cmd : RingCmd := { pen := p, ring := k, serial := s.nextTicket, desc := d }
      let s1 := { s with nextTicket := s.nextTicket + 1, fetchArb := arb }
      let s2 := s1.modRing p k fun g =>
        { g with fetched := add32 g.fetched 1, inflight := g.inflight ++ [cmd.serial], serviced := true }
      match g.run with
      | some (n, hint) =>
        .next ((s2.modRing p k fun g => { g with run := if n ≤ 1 then none else some (n - 1, hint) }).rejectCmd p k cmd
          { status := .throttled, hint := hint })
      | none =>
        match fetchRefusal s p d with
        | some r => .next (s2.rejectCmd p k cmd r)
        | none =>
          let cmd := { cmd with length := countedLength s p g d }
          if g.toll.pbs < cmd.length then .next (s2.oversizeCmd p k cmd) else .next (s2.colourCmd p k cmd)
  | _, _ => stutter s

end Sys2Proof.Machine
end

