-- ==== Sys2Proof/Machine/Report.lean ====
section
/-!
DEFINITION. Counter reports (13_faults_and_recovery R353, R354), with the records of Tables 13.10 to 13.14, 4.3, 5.8, 6.9,
7.9, 8.9, 9.8, 10.12, 11.12 and 12.8.
-/
namespace Sys2Proof.Machine

/-- A counter of a pen as a field of width `w`. -/
def Pen.field (q : Pen) (w : Nat) (c : PenCtr) : Nat × Nat := (w, tallyGet q.ctrs c)

/-- Pen fault record (Table 13.11). -/
def Pen.faultRecord (q : Pen) : List Byte :=
  packBytes 64 [q.field 32 .mbLate, q.field 32 .dbInvalid, q.field 32 .unitResetRetries, q.field 32 .aborted,
    q.field 16 .penReinits, q.field 16 .deviceRestarts, q.field 32 .sessionFaults, q.field 32 .faultTagFail,
    q.field 32 .faultHomeLost, q.field 32 .faultRestore, q.field 32 .regrowBlocked, q.field 64 .faultedCycles]

/-- Shepherd record of a class (Table 5.8). -/
def Pen.shepRecord (q : Pen) (lc : Bool) : List Byte :=
  let f (w : Nat) (c : ShepCtr) : Nat × Nat := q.field w (.shep lc c)
  packBytes 64 [f 64 .entries, f 64 .waitSum, f 32 .waitMax, f 32 .waited,
    f 16 (.pre .capacity), f 16 (.pre .energy), f 16 (.pre .quantum), f 16 (.pre .thermal), f 16 (.pre .tier),
    f 16 (.pre .flock), f 16 (.sit .streamLate), f 16 (.sit .promoteLate), f 16 (.sit .t3Late),
    f 16 (.sit .fallbackFull), f 16 (.sit .anchorTimeout), f 16 (.sit .fault),
    f 32 .fallbacks, f 16 .stalls, f 16 .stageCancelled, f 32 .stallCycles, f 32 .stalledCycles]

/-- Tier record (Table 6.9): the use fields are measured, the others counted. -/
def State.tierRecord (s : State) (p : Nat) (q : Pen) : List Byte :=
  packBytes 96 [(64, s.used p .t1), (64, s.used p .t2), (64, s.used p .t3), (64, s.pinnedBytes p),
    q.field 64 .promotedBytes, q.field 64 .demotedBytes, q.field 32 .quotaRefusals, q.field 32 .retryRefusals,
    q.field 32 .movesAbandoned, q.field 32 .tagFails, q.field 32 .transcoded, q.field 32 .handovers,
    q.field 32 .t3Refused, q.field 32 .t2Waits]

/-- Attention record (Table 7.9). -/
def Pen.attentionRecord (q : Pen) : List Byte :=
  packBytes 80 ([q.field 64 .passes, q.field 64 .rows, q.field 64 .scored, q.field 32 .emptyPartials,
    q.field 32 .nonfiniteRows, q.field 32 .remoteRequests, q.field 32 .remoteRefused]
    ++ (List.range 8).map (fun n => q.field 32 (.bucket n)) ++ [q.field 32 .passReruns])

/-- Selection and search record (Table 8.9). -/
def Pen.searchRecord (q : Pen) : List Byte :=
  packBytes 64 [q.field 64 .selectLayers, q.field 64 .sketchesCompared, q.field 32 .candShort, q.field 32 .selectShort,
    q.field 32 .rescored, q.field 32 .searches, q.field 64 .entriesScanned, q.field 32 .shortResults,
    q.field 32 .widened, q.field 32 .compactions, q.field 32 .scanYields]

/-- Weaver record (Table 9.8). -/
def Pen.weaverRecord (q : Pen) : List Byte :=
  packBytes 96 [q.field 64 .tokensIn, q.field 64 .tokensSampled, q.field 32 .looseBytes, q.field 32 .replacements,
    q.field 32 .escapedIntro, q.field 32 .substituted, q.field 32 .introBad, q.field 32 .controlDropped,
    q.field 32 .deadEnds, q.field 32 .stops, q.field 32 .nonfiniteLogits, q.field 32 .logitsDiscards,
    q.field 32 .logitsMissing, q.field 32 .forcedTokens, q.field 64 .draftsOffered, q.field 64 .draftsAccepted,
    q.field 64 .outputBytes]

/-- LEDGER_BYTES of a pen: what its sessions' Ledger regions are charged in T1 (Table 12.8). -/
def State.penLedgerBytes (s : State) (p : Nat) : Nat :=
  ((s.sessions.filter fun x => chargedPen x == p).map fun x => x.2.region.bytes).sum

/-- Ledger and Harvest record (Table 12.8). -/
def State.ledgerRecord (s : State) (p : Nat) (q : Pen) : List Byte :=
  packBytes 80 [q.field 64 .groups, q.field 64 .tokens, q.field 32 .commitWaitMax, q.field 32 .soloGroups,
    (64, s.penLedgerBytes p), q.field 32 .regrows, q.field 32 .deferred, q.field 64 .regrownPositions,
    q.field 32 .restored, q.field 32 .ckptSessions, q.field 64 .ckptBytes, q.field 64 .ckptDedupBytes]

/-- Ring record: the ring header (Table 13.12), then Table 4.3. -/
def Ring.record (k : Nat) (g : Ring) : List Byte :=
  let f (w : Nat) (c : RingCtr) : Nat × Nat := (w, tallyGet g.ctrs c)
  packBytes 16 [(12, k), (4, 0), (1, bitNat g.latencyCritical), (1, bitNat g.paused), (1, bitNat g.held.isSome), (13, 0),
    f 32 .dbInvalid]
  ++ packBytes 64 [f 64 .green, f 64 .yellow, f 32 .red, f 32 .throttled, f 64 .admittedBytes, f 32 .depthLast,
    f 32 .depthMax, f 32 .holLast, f 32 .holMax, f 32 .samples, f 32 .oversize]

/-- Device fault record (Table 13.13). -/
def State.deviceRecord (s : State) : List Byte :=
  let f (w : Nat) (c : DevCtr) : Nat × Nat := (w, tallyGet s.recovery.ctrs c)
  packBytes 64 [f 32 .unitResets, f 32 .oldIncarnationReplies, (16, s.board.warmResets), (16, s.board.powerCycles),
    f 16 .penReinits, f 16 .censusLosses, f 32 .hbmTagFails, f 32 .flashTagFails, f 32 .pagesReconstructed,
    f 32 .blocksRetired, (3, s.recovery.lastRung), (5, s.recovery.lastCause)]

/-- Flock record (Table 13.14). -/
def Flock.record (k : Flock) : List Byte :=
  packBytes 16 [(64, tallyGet k.ctrs .accelSlip), (32, tallyGet k.ctrs .abandoned), (32, tallyGet k.ctrs .truncated)]

/-- Port record (Table 10.12, 11 R305); the two attention fields read 0 for a Commons port. -/
def Port.record (q : Port) (commons : Bool) : List Byte :=
  let f (w : Nat) (c : PortCtr) : Nat × Nat := (w, tallyGet q.ctrs c)
  packBytes 80 [f 64 .flitsTx, f 64 .flitsRx, f 64 .fecCorrected, f 32 .fecUncorrectable, f 32 .crcErrors,
    f 32 .naksSent, f 32 .replays, f 16 .retrains, f 16 .degrades, f 16 .linkResets, f 16 .protoErrors,
    f 32 .msgDiscards, f 32 .rsvdNonzero, if commons then (32, 0) else f 32 .attendDiscards,
    if commons then (32, 0) else f 32 .appendDiscards, f 32 .staleStep, f 32 .errorsReported,
    (6, q.width), (2, 0), (3, portStateCode q.state)]

/-- Commons device counters (Table 11.12). -/
def State.commonsRecord (s : State) : List Byte :=
  let f (w : Nat) (c : DevCtr) : Nat × Nat := (w, tallyGet s.recovery.ctrs c)
  packBytes 72 [f 64 .packetsTx, f 64 .packetsRx, f 32 .retransmits, f 32 .tagFails, f 32 .misrouted,
    f 32 .oldIncarnation, f 32 .deniedIn, f 32 .epochStaleIn, f 32 .cacheHits, f 32 .staleIn, f 32 .unknownOut,
    f 32 .unreachable, f 32 .handoffs, f 32 .conflicts, f 32 .redirects, f 32 .msgDiscards]

/-- The device section: on a LYS4160-PC the flock and Step Link records read zero (R354). -/
def State.deviceSection (s : State) : List Byte :=
  let flocks := (List.range 8).flatMap fun i => match assocGet i s.flocks with
    | some k => k.record
    | none => natToBytes 16 0
  let steps := (List.range 8).flatMap fun i => (s.stepPort i).record false
  let ours := if s.ident.pc then natToBytes 768 0 else flocks ++ steps
  s.deviceRecord ++ ours
    ++ ((List.range 18).flatMap fun i => (s.port (.commons i)).record true) ++ s.commonsRecord

/-- The rings that a report lists: in ascending number, without those being destroyed. -/
def Pen.reported (q : Pen) : List (Nat × Ring) :=
  sortBy (fun a b : Nat × Ring => decide (a.1 ≤ b.1)) (q.rings.filter fun g => g.2.destroying.isNone)

/-- The size of a report (R354). -/
def reportSize (rings : Nat) (device : Bool) : Nat := 672 + 80 * rings + (if device then 2344 else 0)

/-- Report header (Table 13.10). -/
def State.reportHeader (s : State) (p : Nat) (q : Pen) (device : Bool) : List Byte :=
  packBytes 64 [(32, reportSize q.reported.length device), (16, q.reported.length), (10, p), (1, bitNat device), (5, 0),
    (32, s.ident.censusGeneration.toNat), (8, 1), (24, 0), (64, q.readSeq + 1)]

/-- The report of pen `p` (Table 13.9). -/
def State.report (s : State) (p : Nat) (q : Pen) (device : Bool) : List Byte :=
  s.reportHeader p q device ++ q.faultRecord ++ q.shepRecord true ++ q.shepRecord false ++ s.tierRecord p q
    ++ q.attentionRecord ++ q.searchRecord ++ q.weaverRecord ++ s.ledgerRecord p q
    ++ (q.reported.flatMap fun g => g.2.record g.1) ++ (if device then s.deviceSection else [])

/-- A ring's counters after a clearing read: DEPTH_LAST and HOL_LAST stay (04 R99). -/
def Ring.cleared (g : Ring) : Ring :=
  { g with ctrs := [(.depthLast, tallyGet g.ctrs .depthLast), (.holLast, tallyGet g.ctrs .holLast)] }

/-- CLEAR for the pen's records. -/
def State.clearPen (s : State) (p : Nat) : State :=
  s.modPen p fun q =>
    { q with ctrs := [], rings := mapVals (fun g : Ring => if g.destroying.isNone then g.cleared else g) q.rings }

/-- CLEAR for the device section: LAST_RUNG, LAST_CAUSE, WIDTH and STATE stay. -/
def State.clearDevice (s : State) : State :=
  { s with
    recovery := { s.recovery with ctrs := [] }
    board := { s.board with warmResets := 0, powerCycles := 0 }
    flocks := mapVals (fun k : Flock => { k with ctrs := [] }) s.flocks
    stepPorts := mapVals (fun q : Port => { q with ctrs := [] }) s.stepPorts
    commons := { s.commons with ports := mapVals (fun q : Port => { q with ctrs := [] }) s.commons.ports } }

/-- COUNTERS_READ (R353). -/
def execCountersRead (mb : Mb) (s : State) : Out :=
  mbRun s mb 0x0071 fun s c =>
    withPen s mb c.desc 0 fun p q =>
      unlessBad s [(18, decide (1 < operand c.desc 2 1))] <|
        let device := mbAdmin mb && p == 0
        let size := reportSize q.reported.length device
        let length := operand c.desc 16 4
        if length = 0 then .now s { result := size }
        else if length < size then .now s { status := .badLength, result := size }
        else
          let s1 := s.hostOut (.hostWrite (operand c.desc 8 8) (s.report p q device))
          let s2 := s1.modPen p fun q => { q with readSeq := q.readSeq + 1 }
          let s3 := if operand c.desc 2 1 = 1 then (if device then s2.clearDevice else s2).clearPen p else s2
          .now s3 { result := size }

end Sys2Proof.Machine
end

