-- ==== Sys2Proof/Machine/HostPort.lean ====
section
/-!
DEFINITION. The host-visible map (03_nirvex_interface R61 to R65, Table 3.1): access checks, and the commands that are
accesses of the control node.
-/
namespace Sys2Proof.Machine

/-! ### The window (Table 3.1) -/

/-- A place in the window. -/
inductive HostPlace where
  /-- The identity block, at an offset. -/
  | ident (o : Nat)
  /-- PEN_HEARTBEAT, first pen covered and byte within its counter. -/
  | heartbeat (n b : Nat)
  /-- A mailbox, at an offset. -/
  | mailbox (mb : Mb) (o : Nat)
  /-- The doorbell of a ring, and the byte within it. -/
  | doorbell (n k b : Nat)
  /-- A Crier block, at an offset. -/
  | crier (n o : Nat)
  | ladder (o : Nat)
  | unmapped
  deriving DecidableEq, Repr

/-- The place of a window offset. -/
def hostPlace (off : Nat) : HostPlace :=
  if off < 0x800 then .ident off
  else if off < 0x1000 then .heartbeat ((off - 0x800) / 2) (off % 2)
  else if off < 0x2000 then .mailbox .admin (off - 0x1000)
  else if 0x100000 ≤ off && off < 0x500000 then .mailbox (.pen ((off - 0x100000) / 0x1000)) (off % 0x1000)
  else if 0x2000000 ≤ off && off < 0x4000000 then
    .doorbell ((off - 0x2000000) / 0x8000) (off % 0x8000 / 8) (off % 8)
  else if 0x4000000 ≤ off && off < 0x4400000 then .crier ((off - 0x4000000) / 0x1000) (off % 0x1000)
  else if 0x5000000 ≤ off && off < 0x5001000 then .ladder (off - 0x5000000)
  else .unmapped

/-- The offsets of the pages. -/
def doorbellOff (pen ring : Nat) : Nat := 0x2000000 + 0x8000 * pen + 8 * ring
def crierOff (pen o : Nat) : Nat := 0x4000000 + 0x1000 * pen + o
def evRingOff (ring o : Nat) : Nat := 0x100 + 0x40 * ring + o
def ladderOff : Nat := 0x5000000
def mailboxOff : Mb → Nat
  | .pen n => 0x100000 + 0x1000 * n
  | _ => 0x1000

/-- The pen whose page a place is in. -/
def HostPlace.pen? : HostPlace → Option Nat
  | .mailbox (.pen n) _ => some n
  | .doorbell n _ _ => some n
  | .crier n _ => some n
  | _ => none

/-- A requester context has the rights of pen `n`: its own, or the admin's over pen 0x000 (R62). -/
def ownsPen (ctx n : Nat) : Bool := ctx == n || (ctx == 0x400 && n == 0)

/-- Written by (Table 3.1). -/
def HostPlace.writable (ctx : Nat) : HostPlace → Bool
  | .ident o => ctx == 0x400 && decide (0x38 ≤ o) && decide (o < 0x40)
  | .heartbeat .. => false
  | .mailbox (.pen n) _ => ownsPen ctx n
  | .mailbox _ _ => ctx == 0x400
  | .doorbell n _ _ => ownsPen ctx n
  | .crier n _ => ownsPen ctx n
  | .ladder _ => ctx == 0x400
  | .unmapped => false

/-- Read by (Table 3.1); of the heartbeats that a read of `width` bytes covers, one is enough, whatever its alignment
(R64). -/
def HostPlace.readable (ctx width : Nat) : HostPlace → Bool
  | .ident _ => true
  | .heartbeat n b => if ctx = 0x400 then decide (b + 2 ≤ width)
      else decide (n + b ≤ ctx) && decide (2 * ctx + 2 ≤ 2 * n + b + width)
  | .mailbox (.pen n) _ => ownsPen ctx n || ctx == 0x400
  | .mailbox _ _ => ctx == 0x400
  | .doorbell n _ _ => ownsPen ctx n
  | .crier n _ => ownsPen ctx n || ctx == 0x400
  | .ladder _ => ctx == 0x400
  | .unmapped => false

/-- The write is as wide as its register and aligned to it; a mailbox's descriptor and payload are areas, which take any
width (R64, R71). -/
def HostPlace.fits (width : Nat) : HostPlace → Bool
  | .mailbox _ o => decide (0x40 ≤ o) || (width == 8 && o % 8 == 0)
  | .ident o => width == 8 && o % 8 == 0
  | .doorbell _ _ b => width == 8 && b == 0
  | .crier _ o => width == 8 && o % 8 == 0
  | .ladder o => width == 8 && o % 8 == 0
  | _ => true

/-- The access is inside the session where one is required (16 R408). -/
def State.sessionOk (s : State) (q : Req) : Bool :=
  if q.secured then s.security.session else !s.security.locked

/-- Why an access has no effect, if it has none (R64). -/
def State.hostRefuses (s : State) (q : Req) (pl : HostPlace) (width : Nat) (isWrite : Bool) : Option HostErr :=
  if !s.sessionOk q || decide (0x400 < q.ctx) then some .accessDenied
  else if pl == .unmapped || (match pl.pen? with | some n => (s.pen? n).isNone | none => false) then some .unmapped
  else if isWrite then
    if !pl.writable q.ctx then some .accessDenied else if !pl.fits width then some .badWrite else none
  else if !pl.readable q.ctx width then some .accessDenied else none

/-- A message of the session has come, whatever becomes of its access (16 R408). -/
def State.heard (s : State) (q : Req) : State := if q.secured && s.security.session then s.sessionMessage else s

/-- The header of a request has been taken: a non-zero reserved field counts, and nothing more comes of it (R13). -/
def State.takeHeader (s : State) (q : Req) (off : Nat) : State :=
  let s1 := s.heard q
  if q.rsvd then s1.hostError .rsvdNonzero q.ctx off else s1

/-- The host port hears the control node. -/
def State.hostHears (s : State) : Bool := s.spdmHears .hostPort

/-- A write by `q` to `pl` at offset `off`, `width` bytes wide: `effect` where R64 lets it have one. -/
def hostWrite (s : State) (q : Req) (pl : HostPlace) (off width : Nat) (effect : State → State) : Out :=
  if !s.hostHears then stutter s
  else
    let s0 := s.takeHeader q off
    match s0.hostRefuses q pl width true with
    | some e => .next (s0.hostError e q.ctx off)
    | none => .next (effect (if q.secured then s0.sessionMessage else s0))

/-! ### Registers with behaviour of their own -/

/-- HOST_CONTROL: HOST_ERRORS_CLEAR zeroes the four counters (Table 3.2). -/
def State.writeHostControl (s : State) (v : BitVec 64) : State :=
  if bitOf v.toNat 0 then { s with ident := { s.ident with hostErrors := [] } } else s

/-- LADDER_ACTION of a value written to LADDER_CTRL. -/
def ladderAction (v : BitVec 64) : Nat := bitsOf v.toNat 10 2

/-- A write to LADDER_CTRL (R65, Table 3.3): discarded and counted while BUSY, without CONFIRM, or without an action. -/
def State.writeLadder (s : State) (ctx : Nat) (v : BitVec 64) : State :=
  if s.ladder.busy || bitsOf v.toNat 16 16 != 0xA5C3 then s.hostError .badWrite ctx ladderOff
  else if ladderAction v = 1 then s.ladderReinit (bitsOf v.toNat 0 10)
  else if ladderAction v = 2 then s.ladderWarm (bitsOf v.toNat 0 10) 1
  else s.hostError .badWrite ctx ladderOff

/-- A MODERATION write, discarded and counted when out of range (14 R362). -/
def State.hostModeration (s : State) (ctx p r : Nat) (v : BitVec 64) : State :=
  if moderationOk v then s.writeModeration p r v
  else s.hostError .badWrite ctx (crierOff p (evRingOff r 0x10))

/-- A CONSUMER write, discarded, flagged and counted when it fails its test (14 R363). -/
def State.hostConsumer (s : State) (ctx p r : Nat) (v : BitVec 64) : State :=
  if ((s.crierOf p).ring r).consumerOk v then s.writeConsumer p r v
  else (s.modEvRing p r fun e => { e with headInvalid := true }).hostError .badWrite ctx (crierOff p (evRingOff r 0x18))

/-- A write into a Crier block (Tables 14.4, 14.5): read-only and reserved registers ignore it. -/
def State.writeCrier (s : State) (ctx p o : Nat) (v : BitVec 64) : State :=
  if o < 0x100 || 0x500 ≤ o then
    match o with
    | 0x000 => s.writeEventMask p v
    | 0x008 => s.writeAttnMask p v
    | 0x010 => s.writeAttnPending p v
    | 0x018 => s.writeClassRoute p v
    | _ => s
  else
    let r := (o - 0x100) / 0x40
    match o % 0x40 with
    | 0x00 => s.modEvRing p r fun e => e.writeBase v
    | 0x08 => s.writeEvCtrl p r v
    | 0x10 => s.hostModeration ctx p r v
    | 0x18 => s.hostConsumer ctx p r v
    | 0x30 => s.writeEvStatus p r v
    | _ => s

/-- A write into a mailbox (R71, R72): each byte goes to the area it lies in. -/
def State.writeMailbox (s : State) (mb : Mb) (o : Nat) (data : List Byte) : State :=
  if o = 0 then s.writeMbSubmit mb (BitVec.ofNat 64 (bytesToNat data))
  else if o = 8 then s.writeMbStatus mb (BitVec.ofNat 64 (bytesToNat data))
  else
    let s1 := if 0x40 ≤ o && o < 0x80 then s.writeMbDesc mb (o - 0x40) (data.take (0x80 - o)) else s
    let past := data.drop (0x100 - o)
    if past.isEmpty then s1 else s1.writeMbPayload mb (o - 0x100) past

/-- A write anywhere in the window that R64 lets through. -/
def State.writePlace (s : State) (ctx : Nat) (data : List Byte) : HostPlace → State
  | .ident _ => s.writeHostControl (BitVec.ofNat 64 (bytesToNat data))
  | .mailbox mb o => s.writeMailbox mb o data
  | .doorbell n k _ => s.ringDoorbell n k (BitVec.ofNat 64 (bytesToNat data))
  | .crier n o => s.writeCrier ctx n o (BitVec.ofNat 64 (bytesToNat data))
  | .ladder o => if o = 0 then s.writeLadder ctx (BitVec.ofNat 64 (bytesToNat data)) else s
  | .heartbeat .. => s
  | .unmapped => s

/-! ### What reads return -/

/-- MB_STATUS (R71). -/
def State.mbStatusReg (s : State) (m : Mailbox) : Nat :=
  packNat [(16, m.seqDone), (1, bitNat m.busy), (1, bitNat m.done), (1, bitNat m.overrun),
    (1, bitNat (s.ident.devState = .updating)), (44, 0)]

/-- The 4 KiB of a mailbox as a read finds it (R71). -/
def State.mbPage (s : State) (m : Mailbox) : List Byte :=
  natToBytes 8 (m.submit % 65536) ++ natToBytes 8 (s.mbStatusReg m) ++ natToBytes 48 0 ++ natToBytes 64 m.desc.toNat
    ++ natToBytes 32 m.completion.toNat ++ natToBytes 96 0 ++ memReadBytes m.payload 0 3840

/-- LADDER_STATUS (Table 3.3). -/
def Ladder.statusReg (l : Ladder) : Nat :=
  packNat [(10, l.lastPen), (2, l.lastAction), (1, bitNat l.busy), (2, l.result), (17, 0), (16, l.accepted.toNat), (16, 0)]

/-- A doorbell: the last value accepted; 0 where the ring does not exist (R75). -/
def State.doorbellReg (s : State) (p k : Nat) : Nat :=
  match s.ring? p k with
  | some g => packNat [(32, g.sqTail), (32, g.cqHead)]
  | none => 0

/-- A pen register of a Crier block (Table 14.4). -/
def Crier.reg (c : Crier) : Nat → Nat
  | 0x000 => c.eventMask.toNat
  | 0x008 => c.attnMask.toNat
  | 0x010 => c.attnPending.toNat
  | 0x018 => c.classRoute.toNat
  | 0x020 => packNat [(32, c.maskedEvents), (32, c.disabledDrops)]
  | 0x028 => bitNat c.restartHeld
  | _ => 0

/-- An event ring register (Table 14.5). -/
def EventRing.reg (e : EventRing) : Nat → Nat
  | 0x00 => e.base.toNat
  | 0x08 => packNat [(1, bitNat e.enable), (1, bitNat e.reeve), (2, 0), (5, e.sizeLog2)]
  | 0x10 => packNat [(13, e.count), (3, 0), (25, e.time)]
  | 0x18 => packNat [(32, e.head), (1, bitNat e.idle)]
  | 0x20 => packNat [(32, e.written), (32, e.lostPending)]
  | 0x28 => e.nextSeq % 2 ^ 64
  | 0x30 => packNat [(1, bitNat e.pairIgnored), (1, bitNat e.configRejected), (1, bitNat e.headInvalid),
      (1, bitNat e.overflowed), (1, bitNat e.active)]
  | _ => 0

/-- A register of a Crier block. -/
def Crier.readAt (c : Crier) (o : Nat) : Nat :=
  if o < 0x100 || 0x500 ≤ o then c.reg o else (c.ring ((o - 0x100) / 0x40)).reg (o % 0x40)

/-- PEN_HEARTBEAT of pen `n` for context `ctx` (R64). -/
def State.heartbeatFor (s : State) (ctx n : Nat) : Nat :=
  if ctx = 0x400 || ctx = n then ((s.pen? n).map (·.heartbeat.toNat)).getD 0 else 0

/-- `width` bytes from offset `o` of a bank of 64-bit registers. -/
def readBank (reg : Nat → Nat) (o width : Nat) : Nat :=
  bytesToNat ((List.range width).map fun i => BitVec.ofNat 8 (bitsOf (reg ((o + i) / 8 * 8)) (8 * ((o + i) % 8)) 8))

/-- What a read of `width` bytes of a place returns, where the access is allowed (Table 3.1). -/
def State.readPlace (s : State) (ctx width : Nat) : HostPlace → Nat
  | .ident o => readBank s.identReg o width
  | .heartbeat n b => readBank (fun o => packNat ((List.range 4).map fun i => (16, s.heartbeatFor ctx (o / 2 + i))))
      (2 * n + b) width
  | .mailbox mb o => match s.mb? mb with
    | some m => bytesAt (s.mbPage m) o width
    | none => 0
  | .doorbell n k b => readBank (fun o => s.doorbellReg n (o / 8)) (8 * k + b) width
  | .crier n o => readBank (s.crierOf n).readAt o width
  | .ladder o => readBank (fun o => if o = 8 then s.ladder.statusReg else 0) o width
  | .unmapped => 0

/-- The read reaches the byte of HEALTH that holds THERMAL_TRUNCATE. -/
def HostPlace.readsHealth (width : Nat) : HostPlace → Bool
  | .ident o => decide (o ≤ 0x28) && decide (0x28 < o + width)
  | _ => false

/-! ### The commands -/

/-- HOST_REGISTER_WRITE (R64): any write of the control node. -/
def execHostRegisterWrite (q : Req) (off : Nat) (data : List Byte) (s : State) : Out :=
  hostWrite s q (hostPlace off) off data.length fun t => t.writePlace q.ctx data (hostPlace off)

/-- HOST_ACCESS_ERROR (R64): an access that has no effect; a read returns zero. A read that R64 lets through returns its
value, after its header has been counted (R13). -/
def execHostAccessError (q : Req) (off width : Nat) (isWrite : Bool) (s : State) : Out :=
  if !s.hostHears then stutter s
  else
    let s0 := s.takeHeader q off
    match s0.hostRefuses q (hostPlace off) width isWrite with
    | none =>
      if isWrite then stutter s
      else
        let s1 := (if q.secured then s0.sessionMessage else s0).emit
          (.hostRead (s0.readPlace q.ctx width (hostPlace off)))
        .next { s1 with ident := { s1.ident with
          thermalTruncate := s1.ident.thermalTruncate && !(hostPlace off).readsHealth width } }
    | some e =>
      let s1 := s0.hostError e q.ctx off
      .next (if isWrite then s1 else s1.emit (.hostRead 0))

/-- HEALTH_READ (Table 3.2): the read clears THERMAL_TRUNCATE. -/
def execHealthRead (q : Req) (s : State) : Out :=
  if !s.hostHears then stutter s
  else
    let s0 := s.takeHeader q 0x28
    match s0.hostRefuses q (.ident 0x28) 8 false with
    | some e => .next ((s0.hostError e q.ctx 0x28).emit (.hostRead 0))
    | none =>
      let s1 := (if q.secured then s0.sessionMessage else s0).emit (.hostRead s0.healthReg)
      .next { s1 with ident := { s1.ident with thermalTruncate := false } }

/-- HOST_ERRORS_CLEAR (Table 3.2). -/
def execHostErrorsClear (q : Req) (value : BitVec 64) (s : State) : Out :=
  hostWrite s q (.ident 0x38) 0x38 8 fun t => t.writeHostControl value

/-- LADDER_PEN_REINIT (R65): a write to LADDER_CTRL that does not ask for a warm reset. -/
def execLadderPenReinit (q : Req) (value : BitVec 64) (s : State) : Out :=
  if ladderAction value = 2 then stutter s else hostWrite s q (.ladder 0) ladderOff 8 fun t => t.writeLadder q.ctx value

/-- LADDER_WARM_RESET (R65): a write to LADDER_CTRL that does not ask for PEN_REINIT. -/
def execLadderWarmReset (q : Req) (value : BitVec 64) (s : State) : Out :=
  if ladderAction value = 1 then stutter s else hostWrite s q (.ladder 0) ladderOff 8 fun t => t.writeLadder q.ctx value

/-- DOORBELL (R75). -/
def execDoorbell (q : Req) (pen ring : Nat) (value : BitVec 64) (s : State) : Out :=
  if 1024 ≤ pen || 4096 ≤ ring then .fault .noSuchUnit
  else hostWrite s q (.doorbell pen ring 0) (doorbellOff pen ring) 8 fun t => t.ringDoorbell pen ring value

/-- The mailbox lies in the window: the side band's does not, and there are 1,024 pens. -/
def mbInWindow : Mb → Bool
  | .admin => true
  | .sideBand => false
  | .pen n => decide (n < 1024)

/-- An offset in a mailbox whose writes BUSY refuses (R72). -/
def busyGuards (o : Nat) : Bool := o == 0 || (decide (0x40 ≤ o) && decide (o < 0x80)) || decide (0x100 ≤ o)

/-- MAILBOX_OVERRUN (R72): a write to MB_SUBMIT, the descriptor or the payload while BUSY is 1. -/
def execMailboxOverrun (q : Req) (mb : Mb) (off : Nat) (data : List Byte) (s : State) : Out :=
  if !mbInWindow mb || !busyGuards off || decide (0x1000 ≤ off) || !((s.mb? mb).map (·.busy)).getD false then stutter s
  else hostWrite s q (.mailbox mb off) (mailboxOff mb + off) data.length fun t => t.writeMailbox mb off data

/-- MB_SUBMIT (R69, R72, R454). -/
def execMbSubmit (q : Req) (mb : Mb) (value : BitVec 64) (s : State) : Out :=
  if !mbInWindow mb then stutter s
  else hostWrite s q (.mailbox mb 0) (mailboxOff mb) 8 fun t => t.writeMbSubmit mb value

/-- A write to a register of pen `pen`'s Crier block. -/
def crierPenWrite (s : State) (q : Req) (pen o : Nat) (effect : State → State) : Out :=
  if 1024 ≤ pen then .fault .noSuchUnit else hostWrite s q (.crier pen o) (crierOff pen o) 8 effect

/-- A write to a register of an event ring. -/
def crierRingWrite (s : State) (q : Req) (pen ring o : Nat) (effect : State → State) : Out :=
  if 16 ≤ ring then .fault .noSuchUnit else crierPenWrite s q pen (evRingOff ring o) effect

/-- EVENT_MASK_WRITE (14 R366). -/
def execEventMaskWrite (q : Req) (pen : Nat) (value : BitVec 64) (s : State) : Out :=
  crierPenWrite s q pen 0x000 fun t => t.writeEventMask pen value

/-- ATTN_PENDING_WRITE (14 R364, R367). -/
def execAttnPendingWrite (q : Req) (pen : Nat) (value : BitVec 64) (s : State) : Out :=
  crierPenWrite s q pen 0x010 fun t => t.writeAttnPending pen value

/-- ATTN_MASK_WRITE (14 R364). -/
def execAttnMaskWrite (q : Req) (pen : Nat) (value : BitVec 64) (s : State) : Out :=
  crierPenWrite s q pen 0x008 fun t => t.writeAttnMask pen value

/-- EV_BASE_WRITE (14 R365). -/
def execEvBaseWrite (q : Req) (pen ring : Nat) (value : BitVec 64) (s : State) : Out :=
  crierRingWrite s q pen ring 0x00 fun t => t.modEvRing pen ring fun e => e.writeBase value

/-- EV_CTRL_WRITE (14 R365, R369). -/
def execEvCtrlWrite (q : Req) (pen ring : Nat) (value : BitVec 64) (s : State) : Out :=
  crierRingWrite s q pen ring 0x08 fun t => t.writeEvCtrl pen ring value

/-- MODERATION_WRITE (14 R362). -/
def execModerationWrite (q : Req) (pen ring : Nat) (value : BitVec 64) (s : State) : Out :=
  crierRingWrite s q pen ring 0x10 fun t => t.hostModeration q.ctx pen ring value

/-- CONSUMER_WRITE (14 R363). -/
def execConsumerWrite (q : Req) (pen ring : Nat) (value : BitVec 64) (s : State) : Out :=
  crierRingWrite s q pen ring 0x18 fun t => t.hostConsumer q.ctx pen ring value

end Sys2Proof.Machine
end

