-- ==== Sys2Proof/Machine/Dispatch.lean ====
section
/-!
DEFINITION. What each command does: one arm per row of the table.
-/
namespace Sys2Proof.Machine

/-- The effect of a command on everything but the queue it came from. -/
def exec (i : Instr) (s : State) : Host.Outcome State Fault Refusal :=
  match i with
  | .hostRegisterWrite q off data => Sys2Proof.Machine.execHostRegisterWrite q off data s
  | .hostAccessError q off width isWrite => Sys2Proof.Machine.execHostAccessError q off width isWrite s
  | .healthRead q => Sys2Proof.Machine.execHealthRead q s
  | .hostErrorsClear q value => Sys2Proof.Machine.execHostErrorsClear q value s
  | .ladderPenReinit q value => Sys2Proof.Machine.execLadderPenReinit q value s
  | .ladderWarmReset q value => Sys2Proof.Machine.execLadderWarmReset q value s
  | .doorbell q pen ring value => Sys2Proof.Machine.execDoorbell q pen ring value s
  | .mailboxOverrun q mb off data => Sys2Proof.Machine.execMailboxOverrun q mb off data s
  | .mailboxTimeout mb => Sys2Proof.Machine.execMailboxTimeout mb s
  | .mbLate mb => Sys2Proof.Machine.execMbLate mb s
  | .nirvexCaps mb => Sys2Proof.Machine.execNirvexCaps mb s
  | .penCreate mb => Sys2Proof.Machine.execPenCreate mb s
  | .penDestroy mb => Sys2Proof.Machine.execPenDestroy mb s
  | .penConfig mb => Sys2Proof.Machine.execPenConfig mb s
  | .penReinit mb => Sys2Proof.Machine.execPenReinit mb s
  | .penReinitRestart pen => Sys2Proof.Machine.execPenReinitRestart pen s
  | .penReinitOverrun pen => Sys2Proof.Machine.execPenReinitOverrun pen s
  | .ringCreate mb => Sys2Proof.Machine.execRingCreate mb s
  | .ringDestroy mb => Sys2Proof.Machine.execRingDestroy mb s
  | .ringConfig mb => Sys2Proof.Machine.execRingConfig mb s
  | .layoutLoad mb => Sys2Proof.Machine.execLayoutLoad mb s
  | .layoutUnload mb => Sys2Proof.Machine.execLayoutUnload mb s
  | .constraintLoad mb source => Sys2Proof.Machine.execConstraintLoad mb source s
  | .constraintUnload mb => Sys2Proof.Machine.execConstraintUnload mb s
  | .flockCreate mb => Sys2Proof.Machine.execFlockCreate mb s
  | .flockDestroy mb => Sys2Proof.Machine.execFlockDestroy mb s
  | .flockPlanConfig mb => Sys2Proof.Machine.execFlockPlanConfig mb s
  | .anchorSet mb => Sys2Proof.Machine.execAnchorSet mb s
  | .routeSet mb => Sys2Proof.Machine.execRouteSet mb s
  | .compositionSet mb map => Sys2Proof.Machine.execCompositionSet mb map s
  | .ledgerPartnerSet mb => Sys2Proof.Machine.execLedgerPartnerSet mb s
  | .nodeDown mb => Sys2Proof.Machine.execNodeDown mb s
  | .checkpoint mb name => Sys2Proof.Machine.execCheckpoint mb name s
  | .restore mb name part0 certOk => Sys2Proof.Machine.execRestore mb name part0 certOk s
  | .fwStage mb image readsBack => Sys2Proof.Machine.execFwStage mb image readsBack s
  | .fwActivate mb => Sys2Proof.Machine.execFwActivate mb s
  | .liveUpdateDone blown => Sys2Proof.Machine.execLiveUpdateDone blown s
  | .liveUpdateAbandon => Sys2Proof.Machine.execLiveUpdateAbandon s
  | .watchmanImageWritten readsBack => Sys2Proof.Machine.execWatchmanImageWritten readsBack s
  | .powerLimitSet mb => Sys2Proof.Machine.execPowerLimitSet mb s
  | .countersRead mb => Sys2Proof.Machine.execCountersRead mb s
  | .indexCreate mb => Sys2Proof.Machine.execIndexCreate mb s
  | .indexDestroy mb => Sys2Proof.Machine.execIndexDestroy mb s
  | .fetch pen ring desc => Sys2Proof.Machine.execFetch pen ring desc s
  | .tollgateTick => Sys2Proof.Machine.execTollgateTick s
  | .dispatch unit pen ring => Sys2Proof.Machine.execDispatch unit pen ring s
  | .tollgateSample pen ring => Sys2Proof.Machine.execTollgateSample pen ring s
  | .heartbeatWindow => Sys2Proof.Machine.execHeartbeatWindow s
  | .reeveHeartbeatTick => Sys2Proof.Machine.execReeveHeartbeatTick s
  | .sessionOpen pen ring => Sys2Proof.Machine.execSessionOpen pen ring s
  | .sessionFork pen ring => Sys2Proof.Machine.execSessionFork pen ring s
  | .sessionClose pen ring => Sys2Proof.Machine.execSessionClose pen ring s
  | .sessionPark pen ring => Sys2Proof.Machine.execSessionPark pen ring s
  | .sessionResume pen ring => Sys2Proof.Machine.execSessionResume pen ring s
  | .sessionQuery pen ring => Sys2Proof.Machine.execSessionQuery pen ring s
  | .sessionConfig pen ring => Sys2Proof.Machine.execSessionConfig pen ring s
  | .leaseStage pen ring => Sys2Proof.Machine.execLeaseStage pen ring s
  | .appendText pen ring text => Sys2Proof.Machine.execAppendText pen ring text s
  | .appendTokens pen ring ids => Sys2Proof.Machine.execAppendTokens pen ring ids s
  | .outputPost pen ring => Sys2Proof.Machine.execOutputPost pen ring s
  | .indexInsert pen ring records => Sys2Proof.Machine.execIndexInsert pen ring records s
  | .indexDelete pen ring records => Sys2Proof.Machine.execIndexDelete pen ring records s
  | .indexCommit pen ring => Sys2Proof.Machine.execIndexCommit pen ring s
  | .search pen ring query => Sys2Proof.Machine.execSearch pen ring query s
  | .compactionTimer pen index => Sys2Proof.Machine.execCompactionTimer pen index s
  | .snapshot flock table => Sys2Proof.Machine.execSnapshot flock table s
  | .go flock => Sys2Proof.Machine.execGo flock s
  | .dueCheck flock entry layer datum fits => Sys2Proof.Machine.execDueCheck flock entry layer datum fits s
  | .stepAbandon flock => Sys2Proof.Machine.execStepAbandon flock s
  | .stepBoundary flock => Sys2Proof.Machine.execStepBoundary flock s
  | .servicePlanStep => Sys2Proof.Machine.execServicePlanStep s
  | .moveStart move drover => Sys2Proof.Machine.execMoveStart move drover s
  | .moveWriteDone move how => Sys2Proof.Machine.execMoveWriteDone move how s
  | .moveFree move => Sys2Proof.Machine.execMoveFree move s
  | .parkedDemote h => Sys2Proof.Machine.execParkedDemote h s
  | .oxPassDone flock entry layer tile failed => Sys2Proof.Machine.execOxPassDone flock entry layer tile failed s
  | .planAck port m => Sys2Proof.Machine.execPlanAck port m s
  | .leaseAck port m => Sys2Proof.Machine.execLeaseAck port m s
  | .reclaimed port m => Sys2Proof.Machine.execReclaimed port m s
  | .reclaimTimeout port lease => Sys2Proof.Machine.execReclaimTimeout port lease s
  | .landed port m => Sys2Proof.Machine.execLanded port m s
  | .query port m => Sys2Proof.Machine.execQuery port m s
  | .appendData port m => Sys2Proof.Machine.execAppendData port m s
  | .rows port m => Sys2Proof.Machine.execRows port m s
  | .stepDone port m => Sys2Proof.Machine.execStepDone port m s
  | .stepLinkHello port m grants => Sys2Proof.Machine.execStepLinkHello port m grants s
  | .slotTable port m => Sys2Proof.Machine.execSlotTable port m s
  | .ready port m => Sys2Proof.Machine.execReady port m s
  | .resyncDone port m => Sys2Proof.Machine.execResyncDone port m s
  | .resyncTimeout port => Sys2Proof.Machine.execResyncTimeout port s
  | .stepLinkError port m => Sys2Proof.Machine.execStepLinkError port m s
  | .flit link crcOk header payload => Sys2Proof.Machine.execFlit link crcOk header payload s
  | .nak link header => Sys2Proof.Machine.execNak link header s
  | .replayTimer link => Sys2Proof.Machine.execReplayTimer link s
  | .retrainDone link usable => Sys2Proof.Machine.execRetrainDone link usable s
  | .retrainTimeout link => Sys2Proof.Machine.execRetrainTimeout link s
  | .trainingDone link usable => Sys2Proof.Machine.execTrainingDone link usable s
  | .trainingTimeout link => Sys2Proof.Machine.execTrainingTimeout link s
  | .bringupOverrun link => Sys2Proof.Machine.execBringupOverrun link s
  | .portRetry link => Sys2Proof.Machine.execPortRetry link s
  | .flashChannelSilent channel => Sys2Proof.Machine.execFlashChannelSilent channel s
  | .hbmStackFail stack lost => Sys2Proof.Machine.execHbmStackFail stack lost s
  | .commonsHello port m => Sys2Proof.Machine.execCommonsHello port m s
  | .write p => Sys2Proof.Machine.execWrite p s
  | .read p dataOk => Sys2Proof.Machine.execRead p dataOk s
  | .atomic p => Sys2Proof.Machine.execAtomic p s
  | .copy p dataOk => Sys2Proof.Machine.execCopy p dataOk s
  | .attendReq p failed => Sys2Proof.Machine.execAttendReq p failed s
  | .searchReq p => Sys2Proof.Machine.execSearchReq p s
  | .regRead p => Sys2Proof.Machine.execRegRead p s
  | .regOffer p => Sys2Proof.Machine.execRegOffer p s
  | .regCommit p => Sys2Proof.Machine.execRegCommit p s
  | .regWithdraw p => Sys2Proof.Machine.execRegWithdraw p s
  | .regLife p => Sys2Proof.Machine.execRegLife p s
  | .regRetire p => Sys2Proof.Machine.execRegRetire p s
  | .regRegrow p => Sys2Proof.Machine.execRegRegrow p s
  | .regMirror p => Sys2Proof.Machine.execRegMirror p s
  | .handoffAsk p => Sys2Proof.Machine.execHandoffAsk p s
  | .homeChanged p => Sys2Proof.Machine.execHomeChanged p s
  | .restarted p => Sys2Proof.Machine.execRestarted p s
  | .records p => Sys2Proof.Machine.execRecords p s
  | .fetchRecords p => Sys2Proof.Machine.execFetchRecords p s
  | .drop p => Sys2Proof.Machine.execDrop p s
  | .commonsResponse p => Sys2Proof.Machine.execCommonsResponse p s
  | .ledgerCommit h => Sys2Proof.Machine.execLedgerCommit h s
  | .ledgerWriteBehind => Sys2Proof.Machine.execLedgerWriteBehind s
  | .partnerRetry => Sys2Proof.Machine.execPartnerRetry s
  | .requestRetransmit pktId => Sys2Proof.Machine.execRequestRetransmit pktId s
  | .routeWaitExpiry pktId => Sys2Proof.Machine.execRouteWaitExpiry pktId s
  | .offerExpiry h => Sys2Proof.Machine.execOfferExpiry h s
  | .handoffCheck h => Sys2Proof.Machine.execHandoffCheck h s
  | .drainFenceEnd => Sys2Proof.Machine.execDrainFenceEnd s
  | .unitReset unit selfTestOk => Sys2Proof.Machine.execUnitReset unit selfTestOk s
  | .warmReset leavesSelfRefresh => Sys2Proof.Machine.execWarmReset leavesSelfRefresh s
  | .warmResetRejoin lostUnits badRings badSessions => Sys2Proof.Machine.execWarmResetRejoin lostUnits badRings badSessions s
  | .reeveWatchdog => Sys2Proof.Machine.execReeveWatchdog s
  | .warmResetTimeout => Sys2Proof.Machine.execWarmResetTimeout s
  | .pwrCycleRelease => Sys2Proof.Machine.execPwrCycleRelease s
  | .powerCycleTimeout => Sys2Proof.Machine.execPowerCycleTimeout s
  | .porstLAssert nanoseconds => Sys2Proof.Machine.execPorstLAssert nanoseconds s
  | .porstLRelease nodeSel bscanL certOk watchman => Sys2Proof.Machine.execPorstLRelease nodeSel bscanL certOk watchman s
  | .bootServing channels hbmStacks lostUnits reeve blown => Sys2Proof.Machine.execBootServing channels hbmStacks lostUnits reeve blown s
  | .warmRstL nanoseconds => Sys2Proof.Machine.execWarmRstL nanoseconds s
  | .railFault rail outOfOrder => Sys2Proof.Machine.execRailFault rail outOfOrder s
  | .refclkAoLoss => Sys2Proof.Machine.execRefclkAoLoss s
  | .hearthTick samples energy => Sys2Proof.Machine.execHearthTick samples energy s
  | .overrunWindow => Sys2Proof.Machine.execOverrunWindow s
  | .wakeIssue => Sys2Proof.Machine.execWakeIssue s
  | .domainSleep domain => Sys2Proof.Machine.execDomainSleep domain s
  | .domainOffTimer domain => Sys2Proof.Machine.execDomainOffTimer domain s
  | .eventMaskWrite q pen value => Sys2Proof.Machine.execEventMaskWrite q pen value s
  | .attnPendingWrite q pen value => Sys2Proof.Machine.execAttnPendingWrite q pen value s
  | .attnMaskWrite q pen value => Sys2Proof.Machine.execAttnMaskWrite q pen value s
  | .evBaseWrite q pen ring value => Sys2Proof.Machine.execEvBaseWrite q pen ring value s
  | .evCtrlWrite q pen ring value => Sys2Proof.Machine.execEvCtrlWrite q pen ring value s
  | .moderationWrite q pen ring value => Sys2Proof.Machine.execModerationWrite q pen ring value s
  | .consumerWrite q pen ring value => Sys2Proof.Machine.execConsumerWrite q pen ring value s
  | .moderationTimer pen ring => Sys2Proof.Machine.execModerationTimer pen ring s
  | .sbMailbox length desc payload => Sys2Proof.Machine.execSbMailbox length desc payload s
  | .statusRead offset count => Sys2Proof.Machine.execStatusRead offset count s
  | .sbPenReinit pen confirm => Sys2Proof.Machine.execSbPenReinit pen confirm s
  | .sbWarmReset confirm => Sys2Proof.Machine.execSbWarmReset confirm s
  | .sbPowerCycle confirm => Sys2Proof.Machine.execSbPowerCycle confirm s
  | .release confirm => Sys2Proof.Machine.execRelease confirm s
  | .eventSubscribe eid => Sys2Proof.Machine.execEventSubscribe eid s
  | .eventRecord => Sys2Proof.Machine.execEventRecord s
  | .eventRecordTimeout => Sys2Proof.Machine.execEventRecordTimeout s
  | .watchmanStatus => Sys2Proof.Machine.execWatchmanStatus s
  | .sbBadRequest command operands => Sys2Proof.Machine.execSbBadRequest command operands s
  | .watchmanWatchdog => Sys2Proof.Machine.execWatchmanWatchdog s
  | .setEndpointId dest eid => Sys2Proof.Machine.execSetEndpointId dest eid s
  | .getEndpointId dest => Sys2Proof.Machine.execGetEndpointId dest s
  | .getEndpointUuid dest => Sys2Proof.Machine.execGetEndpointUuid dest s
  | .getMctpVersionSupport dest type => Sys2Proof.Machine.execGetMctpVersionSupport dest type s
  | .getMessageTypeSupport dest => Sys2Proof.Machine.execGetMessageTypeSupport dest s
  | .getVendorMessageSupport dest selector => Sys2Proof.Machine.execGetVendorMessageSupport dest selector s
  | .entdaa address => Sys2Proof.Machine.execEntdaa address s
  | .setdasa address => Sys2Proof.Machine.execSetdasa address s
  | .rstdaa => Sys2Proof.Machine.execRstdaa s
  | .gettid => Sys2Proof.Machine.execGettid s
  | .getpldmversion type => Sys2Proof.Machine.execGetpldmversion type s
  | .getpldmtypes => Sys2Proof.Machine.execGetpldmtypes s
  | .getpldmcommands type => Sys2Proof.Machine.execGetpldmcommands type s
  | .getpdrrepositoryinfo => Sys2Proof.Machine.execGetpdrrepositoryinfo s
  | .getpdr record => Sys2Proof.Machine.execGetpdr record s
  | .getsensorreading sensor => Sys2Proof.Machine.execGetsensorreading sensor s
  | .getstatesensorreadings sensor => Sys2Proof.Machine.execGetstatesensorreadings sensor s
  | .requestupdate component size => Sys2Proof.Machine.execRequestupdate component size s
  | .requestfirmwaredata block readsBack => Sys2Proof.Machine.execRequestfirmwaredata block readsBack s
  | .activatefirmware => Sys2Proof.Machine.execActivatefirmware s
  | .cancelupdate => Sys2Proof.Machine.execCancelupdate s
  | .pldmUpdateIdle => Sys2Proof.Machine.execPldmUpdateIdle s
  | .getVersion t => Sys2Proof.Machine.execGetVersion t s
  | .getCapabilities t => Sys2Proof.Machine.execGetCapabilities t s
  | .negotiateAlgorithms t matchesTable => Sys2Proof.Machine.execNegotiateAlgorithms t matchesTable s
  | .getDigests t => Sys2Proof.Machine.execGetDigests t s
  | .getCertificate t slot offset length => Sys2Proof.Machine.execGetCertificate t slot offset length s
  | .challenge t slot nonce => Sys2Proof.Machine.execChallenge t slot nonce s
  | .getMeasurements t index signed nonce => Sys2Proof.Machine.execGetMeasurements t index signed nonce s
  | .keyExchange t => Sys2Proof.Machine.execKeyExchange t s
  | .finish t verifies => Sys2Proof.Machine.execFinish t verifies s
  | .endSession t => Sys2Proof.Machine.execEndSession t s
  | .heartbeat t => Sys2Proof.Machine.execHeartbeat t s
  | .keyUpdate t => Sys2Proof.Machine.execKeyUpdate t s
  | .spdmHeartbeatTimeout => Sys2Proof.Machine.execSpdmHeartbeatTimeout s
  | .operatorKey q slot enrol key signer signature => Sys2Proof.Machine.execOperatorKey q slot enrol key signer signature s
  | .unsupportedRequest t code => Sys2Proof.Machine.execUnsupportedRequest t code s
  | .securedMessageTagFail => Sys2Proof.Machine.execSecuredMessageTagFail s
  | .idcode => Sys2Proof.Machine.execIdcode s
  | .extest => Sys2Proof.Machine.execExtest s
  | .samplePreload => Sys2Proof.Machine.execSamplePreload s
  | .clamp => Sys2Proof.Machine.execClamp s
  | .highz => Sys2Proof.Machine.execHighz s
  | .dbgNonce => Sys2Proof.Machine.execDbgNonce s
  | .dbgToken token => Sys2Proof.Machine.execDbgToken token s
  | .dbgStatus => Sys2Proof.Machine.execDbgStatus s
  | .dbgRelock bit => Sys2Proof.Machine.execDbgRelock bit s
  | .dtmcs value => Sys2Proof.Machine.execDtmcs value s
  | .dmi addr data op => Sys2Proof.Machine.execDmi addr data op s
  | .bypass => Sys2Proof.Machine.execBypass s
  | .testLogicReset => Sys2Proof.Machine.execTestLogicReset s
  | .mbSubmit q mb value => Sys2Proof.Machine.execMbSubmit q mb value s
  | .lockOrAlignmentLost link => Sys2Proof.Machine.execLockOrAlignmentLost link s
  | .anchorTimeout flock => Sys2Proof.Machine.execAnchorTimeout flock s
  | .planAckTimeout flock => Sys2Proof.Machine.execPlanAckTimeout flock s
  | .domainWoken domain => Sys2Proof.Machine.execDomainWoken domain s
  | .refclkAoReturn => Sys2Proof.Machine.execRefclkAoReturn s
  | .railRestored => Sys2Proof.Machine.execRailRestored s
  | .drbgReseed ok => Sys2Proof.Machine.execDrbgReseed ok s
  | .unsupportedPldmCmd type command => Sys2Proof.Machine.execUnsupportedPldmCmd type command s
  | .unsupportedMctpCmd dest command => Sys2Proof.Machine.execUnsupportedMctpCmd dest command s
  | .mctpMessageDiscard dest length reassembles => Sys2Proof.Machine.execMctpMessageDiscard dest length reassembles s

end Sys2Proof.Machine
end

