-- ==== Sys2Proof/Machine/Package.lean ====
section
/-!
DEFINITION. The land grid (18_board_design R430 to R436): the function of every land of the module.
-/
namespace Sys2Proof.Machine

/-- A pin of a flash channel (Table 18.2). -/
inductive FlashPin where
  | dq (i : Nat) | dqsp | dqsn | rep | ren | weL | ale | cle | wpL | ceL (i : Nat) | rbL
  deriving DecidableEq, Repr

/-- One of the four lands of a Step Link lane (R432). -/
inductive LanePin where
  | txp | txn | rxp | rxn
  deriving DecidableEq, Repr

/-- The function of a land. -/
inductive Land where
  /-- A site without a land, or outside the grid. -/
  | absent
  | gnd
  /-- A rail, by its order in Table 18.4. -/
  | rail (n : Nat)
  | stepLink (lane : Nat) (pin : LanePin)
  | flash (channel : Nat) (pin : FlashPin)
  /-- A control land, by its index in Table 18.3; 42 to 45 are reserved. -/
  | control (i : Nat)
  /-- A land that a LYS4160-PC leaves unconnected (R2, R436). -/
  | noConnect
  deriving DecidableEq, Repr

/-- The site carries a land (R430). -/
def hasLand (r c : Nat) : Bool :=
  decide (1 ≤ r) && decide (r ≤ 126) && decide (1 ≤ c) && decide (c ≤ 126)
    && !(decide (57 ≤ r) && decide (r ≤ 70) && decide (57 ≤ c) && decide (c ≤ 70))

/-- Depth (R430). -/
def landDepth (r c : Nat) : Nat := min (min (r - 1) (126 - r)) (min (c - 1) (126 - c))

/-- Quadrant region (R430). -/
def landQuadrant (r c : Nat) : Nat :=
  if r ≤ 63 then (if c ≤ 63 then 0 else 1) else (if 64 ≤ c then 2 else 3)

/-- The land of Q0 that a land corresponds to (R434). -/
def landImage (r c : Nat) : Nat × Nat :=
  match landQuadrant r c with
  | 0 => (r, c)
  | 1 => (r, 127 - c)
  | 2 => (127 - r, 127 - c)
  | _ => (127 - r, c)

/-- Slice and position of a Step Link strip land of Q0 (R432). -/
def stepSlice (r c : Nat) : Nat × Nat := if r ≤ 4 then (c - 1, r - 1) else (r + 58, c - 1)

/-- The lane of the quadrant that a slice carries (R432). -/
def sliceLane (s : Nat) : Option Nat :=
  if s ≤ 116 then (if s % 2 = 0 then some (s / 2) else none) else if s ≤ 121 then some (s - 58) else none

/-- The pin at a position of a lane's slice. -/
def lanePin : Nat → LanePin
  | 0 => .txp
  | 1 => .txn
  | 2 => .rxp
  | _ => .rxn

/-- Slice and position of a flash strip land of Q0 (R433). -/
def flashSlice (r c : Nat) : Nat × Nat := if r ≤ 12 then (c - 5, r - 5) else (r + 46, c - 5)

/-- Table 18.2: the pin at slice `k` of a channel's three, position `p`. -/
def flashPin (k p : Nat) : Option FlashPin :=
  match k, p with
  | 0, 0 => some (.dq 0) | 0, 1 => some (.dq 1) | 0, 2 => some (.dq 2) | 0, 3 => some (.dq 3)
  | 0, 5 => some .dqsp | 0, 6 => some .dqsn
  | 1, 0 => some (.dq 4) | 1, 1 => some (.dq 5) | 1, 2 => some (.dq 6) | 1, 3 => some (.dq 7)
  | 1, 5 => some .rep | 1, 6 => some .ren | 1, 7 => some .weL
  | 2, 0 => some .ale | 2, 1 => some .cle | 2, 2 => some .wpL | 2, 3 => some (.ceL 0) | 2, 4 => some (.ceL 1)
  | 2, 5 => some (.ceL 2) | 2, 6 => some (.ceL 3) | 2, 7 => some .rbL
  | _, _ => none

/-- The index of a control land of Q0 (R435). -/
def controlIndex (r c : Nat) : Nat := if r = 18 then (c - 16) / 2 else (r + 28) / 2

/-- The rail of the even lands of a depth (Table 18.1). -/
def bandRail (quadrant d : Nat) : Nat :=
  if d ≤ 13 then 8
  else if d = 14 then 9
  else if d = 15 then 10
  else if d = 16 then (if quadrant = 0 then 1 else 11)
  else if d = 17 then 2
  else if d ≤ 20 then 6
  else if d = 21 then 5
  else if d ≤ 23 then 7
  else if d ≤ 29 then 3
  else 4

/-- The function of land `r`/`c`; `pc`: on a LYS4160-PC (R431 to R436). -/
def landFunction (pc : Bool) (r c : Nat) : Land :=
  if !hasLand r c then .absent
  else
    let d := landDepth r c
    let q := landQuadrant r c
    let (r0, c0) := landImage r c
    if d ≤ 3 then
      let (s, p) := stepSlice r0 c0
      match sliceLane s with
      | some k => if pc then .noConnect else .stepLink (64 * q + k) (lanePin p)
      | none => .gnd
    else if d ≤ 11 then
      let (s, p) := flashSlice r0 c0
      if 96 ≤ s then .gnd
      else match flashPin (s % 3) p with
        | some x => .flash (32 * q + s / 3) x
        | none => .gnd
    else if (r + c) % 2 = 1 then .gnd
    else if d = 17 && q = 0 then
      let i := controlIndex r c
      if pc && (i = 7 || i = 8) then .noConnect else .control i
    else .rail (bandRail q d)

/-- NODE_SEL_nn as control land: indices 9 to 21 (Table 18.3). -/
def nodeSelIndex (n : Nat) : Nat := 9 + n

end Sys2Proof.Machine
end

