-- ==== Sys2Proof/WellFormed.lean ====
section
/-!
DEFINITION. When a command names only what the device has: units, ports, pens, rings and domains within Table 1.2,
Tables 3.7 and 15.1. A command that is not well-formed can reach the model but not the hardware.
-/
namespace Sys2Proof

/-- A mailbox of a pen that can exist (Table 3.7). -/
def Mb.wellFormed : Mb → Bool
  | .pen n => decide (n < 1024)
  | _ => true

/-- A port of Table 1.2. -/
def Link.wellFormed : Link → Bool
  | .step p => decide (p < 8)
  | .commons p => decide (p < 18)

/-- A unit of Table 13.2. -/
def ResetUnit.wellFormed : ResetUnit → Bool
  | .ox i => decide (i < 64)
  | .drover i => decide (i < 16)
  | .gleaner i => decide (i < 128)
  | .flashController i => decide (i < 128)
  | .weaverLane i => decide (i < 4)
  | .shepherdSlice i => decide (i < 4)
  | .crypto i => decide (i < 4)
  | .reeveCore i => decide (i < 16)
  | .ledgerHarvest => true
  | .unresettable => true

/-- A requester context is 11 bits (R61). -/
def Req.wellFormed (q : Req) : Bool := decide (q.ctx < 2048)

/-- A pen number and a ring number that can exist (Table 3.7). -/
def ringWf (pen ring : Nat) : Bool := decide (pen < 1024) && decide (ring < 4096)

/-- A pen number and an event ring number (Table 14.4). -/
def evRingWf (pen ring : Nat) : Bool := decide (pen < 1024) && decide (ring < 16)

/-- Well-formed commands. -/
def Instr.wellFormed : Instr → Bool
  | .hostRegisterWrite q off data => q.wellFormed && decide (off + data.length ≤ 2 ^ 29)
  | .hostAccessError q off _ _ => q.wellFormed && decide (off < 2 ^ 29)
  | .healthRead q | .hostErrorsClear q _ | .ladderPenReinit q _ | .ladderWarmReset q _ => q.wellFormed
  | .doorbell q pen ring _ => q.wellFormed && ringWf pen ring
  | .mailboxOverrun q mb off data => q.wellFormed && mb.wellFormed && decide (off + data.length ≤ 4096)
  | .mbSubmit q mb _ => q.wellFormed && mb.wellFormed
  | .mailboxTimeout mb | .mbLate mb | .nirvexCaps mb | .penCreate mb | .penDestroy mb | .penConfig mb | .penReinit mb
  | .ringCreate mb | .ringDestroy mb | .ringConfig mb | .layoutLoad mb | .layoutUnload mb | .constraintLoad mb _
  | .constraintUnload mb | .flockCreate mb | .flockDestroy mb | .flockPlanConfig mb | .anchorSet mb | .routeSet mb
  | .compositionSet mb _ | .ledgerPartnerSet mb | .nodeDown mb | .checkpoint mb _ | .restore mb _ _ _
  | .fwStage mb _ _ | .fwActivate mb | .powerLimitSet mb | .countersRead mb | .indexCreate mb | .indexDestroy mb =>
    mb.wellFormed
  | .penReinitRestart pen | .penReinitOverrun pen => decide (pen < 1024)
  | .fetch pen ring _ | .dispatch _ pen ring | .tollgateSample pen ring | .sessionOpen pen ring
  | .sessionFork pen ring | .sessionClose pen ring | .sessionPark pen ring | .sessionResume pen ring
  | .sessionQuery pen ring | .sessionConfig pen ring | .leaseStage pen ring | .appendText pen ring _
  | .appendTokens pen ring _ | .outputPost pen ring | .indexInsert pen ring _ | .indexDelete pen ring _
  | .indexCommit pen ring | .search pen ring _ => ringWf pen ring
  | .compactionTimer pen _ => decide (pen < 1024)
  | .moveStart _ drover => decide (drover < 16)
  | .planAck port _ | .leaseAck port _ | .reclaimed port _ | .reclaimTimeout port _ | .landed port _ | .query port _
  | .appendData port _ | .rows port _ | .stepDone port _ | .stepLinkHello port _ _ | .slotTable port _
  | .ready port _ | .resyncDone port _ | .resyncTimeout port | .stepLinkError port _ => decide (port < 8)
  | .commonsHello port _ => decide (port < 18)
  | .flit link _ _ _ | .nak link _ | .replayTimer link | .retrainDone link _ | .retrainTimeout link
  | .trainingDone link _ | .trainingTimeout link | .bringupOverrun link | .portRetry link
  | .lockOrAlignmentLost link => link.wellFormed
  | .flashChannelSilent channel => decide (channel < 128)
  | .hbmStackFail stack _ => decide (stack < 12)
  | .unitReset unit _ => unit.wellFormed
  | .warmResetRejoin lostUnits _ _ => lostUnits.all ResetUnit.wellFormed
  | .bootServing channels hbmStacks lostUnits _ _ =>
    channels.all (fun c => decide (c < 128)) && hbmStacks.all (fun c => decide (c < 12)) && lostUnits.all ResetUnit.wellFormed
  | .railFault rail _ => decide (1 ≤ rail) && decide (rail ≤ 11)
  | .hearthTick samples _ => decide (samples.length = 80)
  | .domainSleep d | .domainOffTimer d | .domainWoken d => decide (d < 106)
  | .eventMaskWrite q pen _ | .attnPendingWrite q pen _ | .attnMaskWrite q pen _ => q.wellFormed && decide (pen < 1024)
  | .evBaseWrite q pen ring _ | .evCtrlWrite q pen ring _ | .moderationWrite q pen ring _
  | .consumerWrite q pen ring _ => q.wellFormed && evRingWf pen ring
  | .moderationTimer pen ring => evRingWf pen ring
  | .sbPenReinit pen _ => decide (pen < 1024)
  | .operatorKey q slot _ _ signer _ => q.wellFormed && decide (slot < 8) && (match signer with
      | some k => decide (k < 8) | none => true)
  | .snapshot flock _ | .go flock | .dueCheck flock _ _ _ _ | .stepAbandon flock | .stepBoundary flock
  | .oxPassDone flock _ _ _ _ | .anchorTimeout flock | .planAckTimeout flock => decide (flock < 8)
  | .write p | .read p _ | .atomic p | .copy p _ | .attendReq p _ | .searchReq p | .regRead p | .regOffer p
  | .regCommit p | .regWithdraw p | .regLife p | .regRetire p | .regRegrow p | .regMirror p | .handoffAsk p
  | .homeChanged p | .restarted p | .records p | .fetchRecords p | .drop p | .commonsResponse p => decide (p.port < 18)
  | .liveUpdateDone _ | .liveUpdateAbandon | .watchmanImageWritten _ | .tollgateTick | .heartbeatWindow
  | .reeveHeartbeatTick | .servicePlanStep | .moveWriteDone .. | .moveFree _ | .parkedDemote _ | .ledgerCommit _
  | .ledgerWriteBehind | .partnerRetry | .requestRetransmit _
  | .routeWaitExpiry _ | .offerExpiry _ | .handoffCheck _ | .drainFenceEnd | .warmReset _ | .reeveWatchdog
  | .warmResetTimeout | .pwrCycleRelease | .powerCycleTimeout | .porstLAssert _ | .porstLRelease .. | .warmRstL _
  | .refclkAoLoss | .overrunWindow | .wakeIssue | .sbMailbox .. | .statusRead .. | .sbWarmReset _ | .sbPowerCycle _
  | .release _ | .eventSubscribe _ | .eventRecord | .eventRecordTimeout | .watchmanStatus | .sbBadRequest ..
  | .watchmanWatchdog | .setEndpointId .. | .getEndpointId _ | .getEndpointUuid _ | .getMctpVersionSupport ..
  | .getMessageTypeSupport _ | .getVendorMessageSupport .. | .entdaa _ | .setdasa _ | .rstdaa | .gettid
  | .getpldmversion _ | .getpldmtypes | .getpldmcommands _ | .getpdrrepositoryinfo | .getpdr _ | .getsensorreading _
  | .getstatesensorreadings _ | .requestupdate .. | .requestfirmwaredata .. | .activatefirmware | .cancelupdate
  | .pldmUpdateIdle | .getVersion _ | .getCapabilities _ | .negotiateAlgorithms .. | .getDigests _ | .getCertificate ..
  | .challenge .. | .getMeasurements .. | .keyExchange _ | .finish .. | .endSession _ | .heartbeat _ | .keyUpdate _
  | .spdmHeartbeatTimeout | .unsupportedRequest .. | .securedMessageTagFail | .idcode | .extest | .samplePreload
  | .clamp | .highz | .dbgNonce | .dbgToken _ | .dbgStatus | .dbgRelock _ | .dtmcs _ | .dmi .. | .bypass
  | .testLogicReset | .refclkAoReturn | .railRestored | .drbgReseed _
  | .unsupportedPldmCmd .. | .unsupportedMctpCmd .. | .mctpMessageDiscard .. => true

end Sys2Proof
end

