-- ==== Sys2Proof/Safety.lean ====
section
/-!
DEFINITION. What counts as a safe run of the block, and when each carrier's commands take effect: the conditions in which
statements about the commands are made.
-/
namespace Sys2Proof.Safety
open Sys2Proof.Machine

/-! ### Safe runs -/

/-- Every waiting command names only what the device has. -/
def queueWf (s : State) : Prop := ∀ c ∈ s.pending, c.wellFormed = true

/-- Pen 0x000, which exists from reset and cannot be destroyed (03 R62), exists. -/
def penZero (s : State) : Prop := (s.pen? 0).isSome = true

/-- The payload areas of the mailboxes and the Crier's area of Reeve SRAM are in canonical form. -/
def memoriesWf (s : State) : Prop :=
  Memory.wf s.adminMb.payload = true ∧ Memory.wf s.sbMb.payload = true ∧ Memory.wf s.crierArea = true
    ∧ ∀ q ∈ s.pens, Memory.wf q.2.mailbox.payload = true

/-- WRITTEN plus the reserved slots, minus CQ_HEAD, is at most the CQ size, which is at most 2^15 (03 R74). -/
def ringFits (g : Ring) : Prop :=
  g.cqLog2 ≤ 15 ∧ sub32 g.written g.cqHead + g.inflight.length ≤ 2 ^ g.cqLog2

/-- The state behind an outcome, where there is one. -/
def after (o : Out) (s : State) : State :=
  match o with
  | .next t => t
  | .fault _ => s
  | .refused _ => s

/-- The function of a strip land of quadrant region `q` whose image in Q0 has function `l` (18 R432 to R434): 64 lanes and
32 flash channels further per quadrant. -/
def landShift (q : Nat) : Land → Land
  | .stepLink lane pin => .stepLink (64 * q + lane) pin
  | .flash channel pin => .flash (32 * q + channel) pin
  | l => l

/-! ### The host port -/

/-- The state in which an accepted request of `q` at offset `off` takes effect: its header taken, its message counted where
it came inside the session (16 R408). -/
def hostTaken (s : State) (q : Req) (off : Nat) : State :=
  let s0 := s.takeHeader q off
  if q.secured then s0.sessionMessage else s0

/-- The host port takes a write of `width` bytes by `q` to `pl` at offset `off` (03 R64). -/
def hostTakes (s : State) (q : Req) (pl : HostPlace) (off width : Nat) : Prop :=
  s.hostHears = true ∧ (s.takeHeader q off).hostRefuses q pl width true = none

/-! ### The Reeve and the units -/

/-- The Reeve begins command `c` of mailbox `mb`, whose opcode is `op`, and R69 lets it through. -/
def reeveBegins (s : State) (mb : Mb) (op : Nat) (c : MbCmd) : Prop :=
  mbNext s mb op = some c ∧ s.reeveFree c.ticket = true
    ∧ (mbPrecheck s mb c.desc).or (descCheck s (mbSubmitter mb) (!mbAdmin mb) c.desc) = none

/-- A unit begins command `c` of a ring, whose opcode is `op`, and R69 lets it through. -/
def unitBegins (s : State) (pen ring op : Nat) (c : RingCmd) : Prop :=
  ringNext s pen ring op = some c ∧ (op ≤ 0x0102 → s.reeveFree c.serial = true) ∧ descCheck s (.pen pen) false c.desc = none

/-- The session that `c` names is not being offered to another device (11 R289). -/
def notOffered (s : State) (c : RingCmd) : Prop :=
  ∀ hd, (s.sess? (descHandle c.desc)).bind (·.handover) = some hd → hd.offered = false

/-! ### Links -/

/-- The state in which a Step Link message that R255 lets through takes effect. -/
def slTaken (s : State) (p : Nat) (m : SlMsg) (cls op : Nat) : State :=
  s.countRsvd p (bitsOf m.header.toNat 16 16 != 0 || rsvdSet m.body (bodyReserved cls op))

/-- The port delivers message `m` of class `cls` and operation `op`, and R255 lets it through. -/
def slTakes (s : State) (p : Nat) (m : SlMsg) (cls op : Nat) : Prop :=
  p < 8 ∧ (s.stepPort p).carries = true ∧ msgCls m = cls ∧ msgOp m = op ∧ upstreamVc cls op = some m.vc
    ∧ msgLen m = m.body.length ∧ msgLen m ≤ 0x04000040 ∧ shortLenOk cls op m.body.length = true

/-- The port's flock `f` runs step `r`, which has not ended and to which message `m` belongs (10 R257). -/
def stepRuns (s : State) (p : Nat) (m : SlMsg) (f : Nat) (k : Flock) (r : StepRun) : Prop :=
  s.flockOf p = some (f, k) ∧ k.run = some r ∧ r.phase = .running ∧ r.plan.step = msgStep m

/-- A packet's reserved header bits are counted (01 R13). -/
def pktCounted (s : State) (p : Pkt) : State :=
  if pktRsvd p then s.bumpPort (.commons p.port) .rsvdNonzero
  else s

/-- The state in which an accepted packet takes effect: its source's incarnation known, the packet counted (11 R285). -/
def pktTaken (s : State) (p : Pkt) : State :=
  let s0 := pktCounted s p
  let src := hdrField p.header 32 13
  let inc := hdrField p.header 128 32
  let s1 := if (s0.inStream src).incarnation.toNat < inc then s0.newIncarnation src inc else s0
  (s1.bumpDev .packetsRx 1).modStream src fun i => { i with tagFails := 0 }

/-- The endpoint accepts packet `p` of operation `op` (11 R277, R278, R285). -/
def pktTakes (s : State) (p : Pkt) (op : Nat) : Prop :=
  p.port < 18 ∧ (s.port (.commons p.port)).state = .up ∧ hdrField p.header 192 32 = p.body.length
    ∧ p.body.length ≤ 8392704 ∧ pktOp p = op ∧ opKnown op = true ∧ p.vc = opVc op
    ∧ (pktCounted s p).isOwn (hdrField p.header 16 13) = true ∧ (pktCounted s p).isOwn (hdrField p.header 32 13) = false
    ∧ p.tagOk = true
    ∧ ((pktCounted s p).inStream (hdrField p.header 32 13)).incarnation.toNat ≤ hdrField p.header 128 32
    ∧ (op = 0x80 ∨ (if hdrField p.header 160 32 = 0 then hdrField p.header 64 48 ≤ 1
        else hdrField p.header 160 32 = (pktCounted s p).commons.incarnation.toNat))

/-- The same, for a request that the composition epoch lets through (11 R300). -/
def serviceTakes (s : State) (p : Pkt) (op : Nat) : Prop :=
  pktTakes s p op ∧ op ≠ 0x80 ∧ (pktTaken s p).epochStale p.header = false

/-! ### The side band -/

/-- The Watchman answers side-band requests; `inRecovery`: also those it answers in recovery mode (17 R418, R424). -/
def sbAnswers (s : State) (inRecovery : Bool) : Prop :=
  s.sbListens = true ∧ (inRecovery = true ∨ s.watchman.recovery = false)

end Sys2Proof.Safety
end

