-- ==== Sys2Proof/Certificates/Slice0/Obligations.lean ====
section
/-!
DEFINITION. The statements about the block, for the provers.
-/
open Sys2Proof Sys2Proof.Machine Sys2Proof.Safety

/-! ### The step, the queue, reset and the block's invariants -/

/-- A step runs the command at the front of the queue on the state with the rest of the queue. With no command waiting, one
always-on cycle passes and nothing else changes: that clause is the model's choice (log entry 1). -/
def Obligations.StepRunsFront : Prop :=
  (∀ (c : Instr) (rest : List Instr) (s : State),
    step { s with pending := c :: rest } = exec c { s with pending := rest })
  ∧ ∀ s : State, s.pending = [] → step s = .next { s with clock := { s.clock with now := s.clock.now + 1 } }

/-- What reset leaves: STATE reads BOOT; NODE is not valid; HEALTH, LADDER_STATUS and the HOST_ERRORS counters read 0; pen 0x000
is the one pen; its mailbox, the administrative and the side-band mailbox are not BUSY; no session, flock, layout, move,
waiting command or output exists. -/
def Obligations.ResetState : Prop :=
  State.reset.ident.devState = .boot ∧ State.reset.healthReg = 0 ∧ State.reset.ident.nodeValid = false
    ∧ State.reset.ladder.statusReg = 0 ∧ State.reset.hostErrorsReg = 0 ∧ State.reset.pens.map Prod.fst = [0]
    ∧ State.reset.adminMb.busy = false ∧ State.reset.sbMb.busy = false
    ∧ (State.reset.pen? 0).map (·.mailbox.busy) = some false ∧ State.reset.sessions = [] ∧ State.reset.flocks = []
    ∧ State.reset.layouts = [] ∧ State.reset.moves = [] ∧ State.reset.pending = [] ∧ State.reset.out = []

/-- The invariants hold at reset: pen 0x000 exists, the mailboxes' and the Crier's memories are in canonical form, and the
waiting commands name only what the device has. -/
def Obligations.InvariantsAtReset : Prop := penZero State.reset ∧ memoriesWf State.reset ∧ queueWf State.reset

/-- Pen 0x000 exists after every step from a state in which it exists (R62: it cannot be destroyed). -/
def Obligations.StepKeepsPenZero : Prop :=
  ∀ s t : State, penZero s → step s = .next t → penZero t

/-- The payload areas of the mailboxes and the Crier's area of Reeve SRAM keep their canonical form through every step:
addresses strictly rising, no byte listed that an unlisted address reads as. -/
def Obligations.StepKeepsMemories : Prop :=
  ∀ s t : State, memoriesWf s → step s = .next t → memoriesWf t

/-- From every state whose waiting commands name only what the device has, a step answers a next state, and the commands
that wait there name only what the device has: the block never stops. -/
def Obligations.StepNeverStops : Prop :=
  ∀ s : State, queueWf s → ∃ t, step s = .next t ∧ queueWf t

/-- No command adds to the queue, takes from it or reorders it. -/
def Obligations.ExecKeepsQueue : Prop :=
  ∀ (c : Instr) (s t : State), exec c s = .next t → t.pending = s.pending

/-- The anti-rollback fuses only blow: ROLLBACK_STEP never falls. -/
def Obligations.FusesNeverFall : Prop :=
  ∀ s t : State, step s = .next t → s.security.rollback ≤ t.security.rollback

/-! ### Rules of the host-visible map and of the package, stated whole -/

/-- R75. A doorbell write that the host port takes is accepted when the test of R75 holds, and moves SQ_TAIL and CQ_HEAD to
the values it carries, which a read then returns; otherwise the ring keeps its values, its DB_INVALID counter rises and
RING_ERROR is raised. The current values written again, where the test admits them, change nothing. For a ring that does
not exist, or is being destroyed (R77), the write is counted in the pen's DB_INVALID. Writes to one doorbell are applied in
the order in which they wait. -/
def Obligations.DoorbellRule : Prop :=
  (∀ (q : Req) (p k : Nat) (v : BitVec 64) (s : State), p < 1024 → k < 4096 →
    hostTakes s q (.doorbell p k 0) (doorbellOff p k) 8 →
    let u := hostTaken s q (doorbellOff p k)
    let tail := v.toNat % 2 ^ 32
    let head := v.toNat / 2 ^ 32
    (∀ g, u.ring? p k = some g → g.destroying = none →
      let ok := sub32 tail g.sqTail ≤ 2 ^ g.sqLog2 ∧ sub32 tail g.fetched ≤ 2 ^ g.sqLog2
         ∧ sub32 head g.cqHead ≤ 2 ^ g.cqLog2 ∧ sub32 g.written head ≤ 2 ^ g.cqLog2
      (ok → ∃ t, exec (.doorbell q p k v) s = .next t ∧
          (t.ring? p k).map (fun r => (r.sqTail, r.cqHead)) = some (tail, head) ∧ t.doorbellReg p k = v.toNat)
      ∧ (ok → tail = g.sqTail → head = g.cqHead → exec (.doorbell q p k v) s = .next u)
      ∧ (¬ok → exec (.doorbell q p k v) s = .next
          ((u.modRing p k fun r => { r with ctrs := tallyAdd r.ctrs .dbInvalid 1 32 }).raiseTo p 0x0202 k
            (tallyGet (tallyAdd g.ctrs .dbInvalid 1 32) .dbInvalid) g.eventRing)))
    ∧ ((∀ g, u.ring? p k = some g → g.destroying.isSome = true) →
        exec (.doorbell q p k v) s = .next (u.bumpPen p .dbInvalid 1)))
  ∧ ∀ (q q' : Req) (p k : Nat) (v v' : BitVec 64) (rest : List Instr) (s : State),
      s.pending = .doorbell q p k v :: .doorbell q' p k v' :: rest →
      step s = exec (.doorbell q p k v) { s with pending := .doorbell q' p k v' :: rest }

/-- R65. A write to LADDER_CTRL that the host port takes while BUSY is 1, without CONFIRM 0xA5C3, or with LADDER_ACTION 0b00
or 0b11, is discarded and counted in BAD_WRITE; the ladder's registers, the units, the sessions and the flocks stay. -/
def Obligations.LadderDiscards : Prop :=
  ∀ (q : Req) (v : BitVec 64) (s : State), hostTakes s q (.ladder 0) ladderOff 8 →
    (s.ladder.busy = true ∨ v.toNat / 2 ^ 16 % 2 ^ 16 ≠ 0xA5C3 ∨ (ladderAction v ≠ 1 ∧ ladderAction v ≠ 2)) →
    let t := (hostTaken s q ladderOff).hostError .badWrite q.ctx ladderOff
    (ladderAction v ≠ 2 → exec (.ladderPenReinit q v) s = .next t)
    ∧ (ladderAction v ≠ 1 → exec (.ladderWarmReset q v) s = .next t)
    ∧ t.ladder = s.ladder ∧ t.recovery = s.recovery ∧ t.sessions = s.sessions ∧ t.flocks = s.flocks
    ∧ t.ident.hostErrors = tallyAdd (hostTaken s q ladderOff).ident.hostErrors .badWrite 1 16

/-- R363. A CONSUMER write that the host port takes is accepted exactly when (WRITTEN − new HEAD) mod 2^32 is at most
(WRITTEN − HEAD) mod 2^32, and then sets HEAD and IDLE together; otherwise the whole write is discarded, HEAD_INVALID is
set and BAD_WRITE counts. While IDLE is 1 the next record written fires the ring at once and clears IDLE: a record that the
Crier writes in the very cycle of the write comes after it (R12), so that the write sets HEAD, and the ring fires where the
write set IDLE, which it clears. -/
def Obligations.ConsumerRule : Prop :=
  (∀ (q : Req) (p r : Nat) (v : BitVec 64) (s : State), p < 1024 → r < 16 →
    hostTakes s q (.crier p (evRingOff r 0x18)) (crierOff p (evRingOff r 0x18)) 8 →
    let u := hostTaken s q (crierOff p (evRingOff r 0x18))
    let e := (u.crierOf p).ring r
    let head := v.toNat % 2 ^ 32
    (sub32 e.written head ≤ sub32 e.written e.head → (u.pen? p).isSome = true → u.hwNow (.idle p r) = false →
      ∃ t, exec (.consumerWrite q p r v) s = .next t ∧ ((t.crierOf p).ring r).head = head
        ∧ (((t.crierOf p).ring r).written = e.written → ((t.crierOf p).ring r).idle = v.toNat.testBit 32))
    ∧ (sub32 e.written head ≤ sub32 e.written e.head → (u.pen? p).isSome = true → u.hwNow (.idle p r) = true →
      let w := u.modEvRing p r fun x => { x.consume v with idle := false }
      exec (.consumerWrite q p r v) s = .next ((if v.toNat.testBit 32 then w.evFire p r else w).evReportLost p r)
      ∧ ((w.crierOf p).ring r).head = head)
    ∧ (sub32 e.written e.head < sub32 e.written head →
      exec (.consumerWrite q p r v) s = .next
        ((u.modEvRing p r fun x => { x with headInvalid := true }).hostError .badWrite q.ctx
          (crierOff p (evRingOff r 0x18)))))
  ∧ ∀ (s : State) (p r seq code p0 p1 : Nat), (s.pen? p).isSome = true → ((s.crierOf p).ring r).idle = true →
      ∃ u : State, s.evWrite p r seq code p0 p1 = u.evFire p r ∧ ((u.crierOf p).ring r).idle = false
        ∧ ((u.crierOf p).ring r).written = add32 ((s.crierOf p).ring r).written 1

/-- R434. Land r/c of Q0 corresponds to r/(127 − c) in Q1, (127 − r)/(127 − c) in Q2 and (127 − r)/c in Q3; the strips of
those quadrants are the images of Q0's; control lands exist only in Q0. -/
def Obligations.LandImages : Prop :=
  (∀ r c : Nat, 1 ≤ r → r ≤ 63 → 1 ≤ c → c ≤ 63 →
    landImage r (127 - c) = (r, c) ∧ landImage (127 - r) (127 - c) = (r, c) ∧ landImage (127 - r) c = (r, c)
    ∧ ∀ pc : Bool, landDepth r c ≤ 11 →
      landFunction pc r (127 - c) = landShift 1 (landFunction pc r c)
      ∧ landFunction pc (127 - r) (127 - c) = landShift 2 (landFunction pc r c)
      ∧ landFunction pc (127 - r) c = landShift 3 (landFunction pc r c))
  ∧ ∀ (pc : Bool) (r c i : Nat), landFunction pc r c = .control i → landQuadrant r c = 0

/-! ### The queues between the host and the units -/

/-- The handshake of a mailbox (R72). What an accepted MB_SUBMIT does in a mailbox that holds no command: while the device
serves, a command whose opcode, carrier and submitter pass the checks of R69 waits with BUSY set, DONE clear and a snapshot
of the descriptor and the payload, and one of the administrative or side-band mailbox stands last in the Reeve's queue, at
whose head no refused command stands; in BOOT or WARM_RESET the hardware completes it with RETRY_LATER and RETRY_HINT
0xFFFF, in HALTED with FAILED_CENSUS, in UPDATING with BUSY_UPDATE (R454). The Reeve's answer, where the command is still
owed, writes the record, sets SEQ_DONE to the submission's SEQ, clears BUSY and sets DONE, and leaves the descriptor, the
payload and OVERRUN. -/
def Obligations.MailboxHandshake : Prop :=
  (∀ (s : State) (mb : Mb) (seq : Nat) (m : Mailbox), s.mb? mb = some m → m.cmd = none →
    (∀ x, s.reeveQueue.head? = some x → s.refuse x.1 x.2 = none) →
    let c : MbCmd := { ticket := s.nextTicket, seq := seq, desc := m.desc, payload := m.payload, at_ := s.clock.now }
    (s.ident.devState = .serving → mbPrecheck s mb m.desc = none →
      (s.submit mb seq).mb? mb = some { m with
        submit := seq, busy := true, done := false, cmd := some c, ticket := s.nextTicket, since := s.clock.now }
      ∧ (s.submit mb seq).reeveQueue = (if mbAdmin mb then s.reeveQueue ++ [(mb, s.nextTicket)] else s.reeveQueue))
    ∧ ∀ r : Reply, (s.ident.devState = .boot ∨ s.ident.devState = .warmReset) ∧ r = { status := .retryLater, hint := 0xFFFF }
        ∨ s.ident.devState = .halted ∧ r = rStatus .failedCensus ∨ s.ident.devState = .updating ∧ r = rStatus .busyUpdate →
      (s.submit mb seq).mb? mb = some { m with
        submit := seq, busy := false, done := true, cmd := none, ticket := s.nextTicket, since := s.clock.now
        seqDone := seq, completion := BitVec.ofNat 256 (completionNat m.desc r 0 0) }
      ∧ (s.submit mb seq).reeveQueue = s.reeveQueue)
  ∧ ∀ (s : State) (mb : Mb) (c : MbCmd) (r : Reply) (m : Mailbox), s.mb? mb = some m → m.busy = true →
    m.ticket = c.ticket →
    (s.mbReply ⟨mb, c⟩ r).mb? mb = some { m with
      completion := BitVec.ofNat 256 (completionNat c.desc r 0 0), seqDone := c.seq, busy := false, done := true, cmd := none }

/-- A ring command's completion (R74), where it is still owed and the ring has no event ring and is not being destroyed: one
32-byte record goes to slot WRITTEN mod CQ size with PHASE 1 while floor(WRITTEN / CQ size) is even, WRITTEN advances by 1
and the reserved slot is given back. -/
def Obligations.RingCompletes : Prop :=
  ∀ (s : State) (c : RingCmd) (r : Reply) (g : Ring), s.ring? c.pen c.ring = some g → c.serial ∈ g.inflight →
    g.eventRing = none → g.destroying = none →
    ((s.complete c r).ring? c.pen c.ring).map (fun x => (x.written, x.inflight, x.fetched, x.cqHead, x.sqTail))
      = some (add32 g.written 1, g.inflight.filter (· != c.serial), g.fetched, g.cqHead, g.sqTail)
    ∧ (s.security.locked = false → (s.complete c r).out = s.out ++ [.hostWrite (g.cqBase + 32 * (g.written % 2 ^ g.cqLog2))
        (natToBytes 32 (completionNat c.desc r g.fetched (if g.written / 2 ^ g.cqLog2 % 2 = 0 then 1 else 0)))])

/-- The CQ never overflows (R74): a completion, a doorbell write and a fetch keep WRITTEN plus the reserved slots minus
CQ_HEAD within the CQ size. -/
def Obligations.CqNeverOverflows : Prop :=
  (∀ (s : State) (c : RingCmd) (r : Reply) (p k : Nat) (g g' : Ring), s.ring? p k = some g → ringFits g →
    (s.complete c r).ring? p k = some g' → ringFits g')
  ∧ (∀ (q : Req) (p k : Nat) (v : BitVec 64) (s t : State) (g g' : Ring), exec (.doorbell q p k v) s = .next t →
    s.ring? p k = some g → ringFits g → t.ring? p k = some g' → ringFits g')
  ∧ ∀ (d : Desc) (p k : Nat) (s t : State) (g g' : Ring), exec (.fetch p k d) s = .next t →
    s.ring? p k = some g → ringFits g → t.ring? p k = some g' → ringFits g'

/-- The Crier never overwrites a record (R361): an event routed to a full ring leaves WRITTEN and what the device sends out
as they were, adds 1 to LOST_PENDING, sets OVERFLOWED and uses a SEQ; one routed to a disabled ring is counted in
DISABLED_DROPS and uses a SEQ; one masked by EVENT_MASK is counted in MASKED_EVENTS and uses none (R366). -/
def Obligations.EventsLost : Prop :=
  ∀ (s : State) (p r code p0 p1 : Nat) (q : Pen), s.pen? p = some q →
    (let e := q.crier.ring r
     (e.enable = true → e.full = true →
        (s.evRoute p r code p0 p1).out = s.out
        ∧ ((s.evRoute p r code p0 p1).crierOf p).ring r = { e with
            nextSeq := e.nextSeq + 1, overflowed := true, lostPending := min (2 ^ 32 - 1) (e.lostPending + 1),
            firstLost := if e.lostPending = 0 then e.nextSeq else e.firstLost })
     ∧ (e.enable = false →
        (s.evRoute p r code p0 p1).out = s.out
        ∧ ((s.evRoute p r code p0 p1).crierOf p).disabledDrops = min (2 ^ 32 - 1) (q.crier.disabledDrops + 1)
        ∧ ((s.evRoute p r code p0 p1).crierOf p).ring r = { e with nextSeq := e.nextSeq + 1 }))
    ∧ (q.crier.eventMask.toNat.testBit (code / 256) = true →
        s.raise p code p0 p1 = s.modPen p fun x =>
          { x with crier := { x.crier with maskedEvents := min (2 ^ 32 - 1) (x.crier.maskedEvents + 1) } })

/-! ### Completion: the host port, the ladder, the mailboxes' hardware, the Crier, the Tollgate -/

/-- HOST_REGISTER_WRITE, HOST_ERRORS_CLEAR, HEALTH_READ and HOST_ACCESS_ERROR (R13, R64, Table 3.2), where the host port hears them.
A write that R64 lets through takes effect in the place it names. One to HOST_ERRORS with bit 0 set clears every counter, any other
leaves them. A read of HEALTH returns it and clears THERMAL_TRUNCATE. An access that R64 does not let through is counted as
its error, and a read returns zero; a read that it lets through returns what the place holds, and clears THERMAL_TRUNCATE where
it reaches it. -/
def Obligations.HostAccessesComplete : Prop :=
  ∀ (q : Req) (off : Nat) (data : List Byte) (v : BitVec 64) (width : Nat) (isWrite : Bool) (s : State),
    (hostTakes s q (hostPlace off) off data.length →
      exec (.hostRegisterWrite q off data) s = .next ((hostTaken s q off).writePlace q.ctx data (hostPlace off)))
    ∧ (hostTakes s q (.ident 0x38) 0x38 8 →
      let u := hostTaken s q 0x38
      exec (.hostErrorsClear q v) s = .next (if v.toNat % 2 = 1 then { u with ident := { u.ident with hostErrors := [] } } else u))
    ∧ (s.hostHears = true → (s.takeHeader q 0x28).hostRefuses q (.ident 0x28) 8 false = none →
      let u := (hostTaken s q 0x28).emit (.hostRead (s.takeHeader q 0x28).healthReg)
      exec (.healthRead q) s = .next { u with ident := { u.ident with thermalTruncate := false } })
    ∧ (∀ e, s.hostHears = true → (s.takeHeader q off).hostRefuses q (hostPlace off) width isWrite = some e →
      exec (.hostAccessError q off width isWrite) s = .next
        (if isWrite then (s.takeHeader q off).hostError e q.ctx off
         else ((s.takeHeader q off).hostError e q.ctx off).emit (.hostRead 0))
      ∧ ((s.takeHeader q off).hostError e q.ctx off).ident.hostErrors
        = tallyAdd (s.takeHeader q off).ident.hostErrors e 1 16)
    ∧ (s.hostHears = true → (s.takeHeader q off).hostRefuses q (hostPlace off) width false = none →
      let u := (hostTaken s q off).emit (.hostRead ((s.takeHeader q off).readPlace q.ctx width (hostPlace off)))
      exec (.hostAccessError q off width false) s = .next { u with ident := { u.ident with
        thermalTruncate := u.ident.thermalTruncate && !(hostPlace off).readsHealth width } })

/-- LADDER_PEN_REINIT, LADDER_WARM_RESET, SB_PEN_REINIT, SB_WARM_RESET, SB_POWER_CYCLE and RELEASE, where the action is
accepted (Table 3.3, 17 R420): the ladder records a PEN_REINIT or a WARM_RESET, and it begins; the side band answers; a power cycle
drives PWR_CYCLE_L low and holds it, and RELEASE, 2^26 cycles after it fell, lets it rise and the boot begin. -/
def Obligations.LadderActionsComplete : Prop :=
  ∀ (q : Req) (v : BitVec 64) (p : Nat) (s : State),
    (hostTakes s q (.ladder 0) ladderOff 8 → (hostTaken s q ladderOff).ladder.busy = false →
      v.toNat / 2 ^ 16 % 2 ^ 16 = 0xA5C3 → (hostTaken s q ladderOff).warmPending = false →
      (ladderAction v = 1 → ∀ x, (hostTaken s q ladderOff).pen? (v.toNat % 2 ^ 10) = some x → x.reinit = none →
        (hostTaken s q ladderOff).ident.liveUpdate = none →
        exec (.ladderPenReinit q v) s = .next
          ({ hostTaken s q ladderOff with ladder := (hostTaken s q ladderOff).ladder.accept (v.toNat % 2 ^ 10) 1 }.startReinit
            (v.toNat % 2 ^ 10) true))
      ∧ (ladderAction v = 2 →
        let t := { hostTaken s q ladderOff with
          ladder := (hostTaken s q ladderOff).ladder.accept (v.toNat % 2 ^ 10) 2 }.triggerWarm 1
        exec (.ladderWarmReset q v) s = .next
          (if t.warmPending then t else { t with ladder := { t.ladder with busy := false } })))
    ∧ (sbAnswers s false → s.board.pwrCycleLow = false → s.ladder.busy = false → s.warmPending = false →
      s.ident.devState ≠ .boot →
      (∀ x, s.pen? p = some x → x.reinit = none → s.ident.liveUpdate = none →
        ∃ t, exec (.sbPenReinit p 0xA5C3) s = .next t
          ∧ t.out.getLast? = some (.sideBand (sbBody 3 (if t.ladder.busy then 0 else 4) []))
          ∧ (t.ladder.lastPen, t.ladder.lastAction, t.ladder.accepted) = (p, 1, s.ladder.accepted + 1))
      ∧ ∃ t, exec (.sbWarmReset 0xA5C3) s = .next t ∧ t.out.getLast? = some (.sideBand (sbBody 3 0 []))
          ∧ (if t.board.pwrCycleLow then t.ladder = {}
            else (t.ladder.lastPen, t.ladder.lastAction, t.ladder.accepted) = (0, 2, s.ladder.accepted + 1)
              ∧ t.warmPending = true))
    ∧ (sbAnswers s false → s.board.pwrCycleLow = false → ∃ t, exec (.sbPowerCycle 0xA5C3) s = .next t
      ∧ t.board.pwrCycleLow = true ∧ t.board.hold = 3 ∧ t.board.pwrCycleSince = s.clock.now)
    ∧ (sbAnswers s false → s.board.pwrCycleLow = true → s.board.pwrCycleSince + 2 ^ 26 ≤ s.clock.now →
      ∃ t, exec (.release 0xA5C3) s = .next t ∧ t.board.pwrCycleLow = false ∧ t.board.booting = true
        ∧ t.out = s.out ++ [.pwrCycle false, .sideBand (sbBody 3 0 [])] ∧ t.pens = s.pens ∧ t.sessions = s.sessions)

/-- MB_SUBMIT, MAILBOX_OVERRUN, MAILBOX_TIMEOUT, MB_LATE and SB_MAILBOX (R72, R73, R454, 17 R419). A write of MB_SUBMIT, and one to
the descriptor or the payload, of a mailbox that is BUSY sets OVERRUN and has no other effect; one of MB_SUBMIT that is not BUSY
submits its SEQ. A mailbox BUSY for 2^18 cycles completes with UNKNOWN, and what the Reeve still owes for it is late; its late
answer is counted in MB_LATE. SB_MAILBOX, where the Watchman answers and the side-band mailbox is free, stores the
descriptor and the payload and submits the next SEQ. -/
def Obligations.MailboxHardwareCompletes : Prop :=
  ∀ (q : Req) (mb : Mb) (v : BitVec 64) (off : Nat) (data : List Byte) (desc : Desc) (s : State) (m : Mailbox),
    (mbInWindow mb = true → hostTakes s q (.mailbox mb 0) (mailboxOff mb) 8 →
      (hostTaken s q (mailboxOff mb)).mb? mb = some m →
      (m.busy = true → exec (.mbSubmit q mb v) s = .next
        ((hostTaken s q (mailboxOff mb)).modMb mb fun x => { x with overrun := true }))
      ∧ (m.busy = false → exec (.mbSubmit q mb v) s = .next
        ((hostTaken s q (mailboxOff mb)).submit mb (v.toNat % 2 ^ 16))))
    ∧ (mbInWindow mb = true → s.mb? mb = some m → m.busy = true → hostTakes s q (.mailbox mb off) (mailboxOff mb + off) data.length →
      (hostTaken s q (mailboxOff mb + off)).mb? mb = some m → data ≠ [] → off + data.length ≤ 0x1000 →
      (off = 0 ∨ 0x40 ≤ off ∧ off < 0x80 ∨ 0x100 ≤ off) →
      exec (.mailboxOverrun q mb off data) s = .next
        ((hostTaken s q (mailboxOff mb + off)).modMb mb fun x => { x with overrun := true }))
    ∧ (s.mb? mb = some m → m.busy = true → ∃ t, exec (.mailboxTimeout mb) s = .next t
      ∧ t.mb? mb = some { m with
          completion := BitVec.ofNat 256 (completionNat ((m.cmd.map (·.desc)).getD m.desc) (rStatus .unknown) 0 0)
          seqDone := m.submit, busy := false, done := true, cmd := none, late := m.late ++ m.cmd.toList }
      ∧ t.clock.now = max s.clock.now (m.since + 2 ^ 18))
    ∧ (∀ c l, s.mb? mb = some m → m.late = c :: l → (m.busy = true → m.ticket ≠ c.ticket) →
      exec (.mbLate mb) s = .next ((s.mbTake mb c).bumpPen (mbPen mb) .mbLate 1).reeveNext)
    ∧ (sbAnswers s false → data.length ≤ 3840 → s.fetches = true → s.sbMb.busy = false →
      exec (.sbMailbox data.length desc data) s = .next
        ({ s with sbMb := { s.sbMb with desc := desc, payload := memWriteBytes s.sbMb.payload 0 data, done := false } }.submit
          .sideBand ((s.sbMb.submit + 1) % 65536)))

/-- EVENT_MASK_WRITE, ATTN_PENDING_WRITE, ATTN_MASK_WRITE, EV_BASE_WRITE, EV_CTRL_WRITE and MODERATION_WRITE that the host
port takes, and MODERATION_TIMER (R12, R362, R364 to R367). A write to ATTN_PENDING sets its bits as written, but a bit that the
Crier sets in the cycle of the write stands; a bit that becomes pending while unmasked, or unmasked while pending, sends its
signal. EV_BASE is stored while the ring is disabled; of an enabled ring a different base is flagged and ignored. A MODERATION in range
is stored, another discarded and counted; one whose COUNT the ring has already reached fires at once. A ring whose timer has
run out with records fires. A disabled ring whose stored EV_BASE and EV_CTRL pair may be enabled is enabled by bit 0 of EV_CTRL with WRITTEN, HEAD and
LOST_PENDING 0 and its SEQ going on; a pair that may not sets CONFIG_REJECTED and leaves it disabled; a cleared bit 0
disables an enabled ring (R365). -/
def Obligations.CrierWritesComplete : Prop :=
  (∀ (q : Req) (p r : Nat) (v : BitVec 64) (s : State), p < 1024 → r < 16 →
    (hostTakes s q (.crier p 0x000) (crierOff p 0x000) 8 →
      exec (.eventMaskWrite q p v) s = .next
        ((hostTaken s q (crierOff p 0x000)).modCrier p fun c => { c with eventMask := v.setWidth 16 }))
    ∧ (hostTakes s q (.crier p 0x010) (crierOff p 0x010) 8 →
      let u := hostTaken s q (crierOff p 0x010)
      let again := u.attnNow p .attentionAgain
      let new := v.setWidth 16 ||| u.attnNow p .attention ||| again
      exec (.attnPendingWrite q p v) s = .next
        ((u.modCrier p fun c => { c with attnPending := new }).signalEach p
          (((new &&& ~~~(u.crierOf p).attnPending) ||| (again &&& ~~~v.setWidth 16)) &&& ~~~(u.crierOf p).attnMask).toNat))
    ∧ (hostTakes s q (.crier p 0x008) (crierOff p 0x008) 8 →
      let u := hostTaken s q (crierOff p 0x008)
      exec (.attnMaskWrite q p v) s = .next
        ((u.modCrier p fun c => { c with attnMask := v.setWidth 16 }).signalEach p
          ((u.crierOf p).attnMask &&& ~~~v.setWidth 16 &&& (u.crierOf p).attnPending).toNat))
    ∧ (hostTakes s q (.crier p (evRingOff r 0x00)) (crierOff p (evRingOff r 0x00)) 8 →
      exec (.evBaseWrite q p r v) s = .next ((hostTaken s q (crierOff p (evRingOff r 0x00))).modEvRing p r fun e =>
        if e.enable then { e with pairIgnored := e.pairIgnored || v != e.base } else { e with base := v }))
    ∧ (hostTakes s q (.crier p (evRingOff r 0x08)) (crierOff p (evRingOff r 0x08)) 8 →
      exec (.evCtrlWrite q p r v) s = .next ((hostTaken s q (crierOff p (evRingOff r 0x08))).writeEvCtrl p r v))
    ∧ (hostTakes s q (.crier p (evRingOff r 0x10)) (crierOff p (evRingOff r 0x10)) 8 →
      let u := hostTaken s q (crierOff p (evRingOff r 0x10))
      exec (.moderationWrite q p r v) s = .next
        (if v.toNat % 2 ^ 13 ≤ 4096 ∧ v.toNat / 2 ^ 16 % 2 ^ 25 ≤ 16777216 then
          u.modEvRing p r fun e => { e with count := v.toNat % 2 ^ 13, time := v.toNat / 2 ^ 16 % 2 ^ 25 }
        else u.hostError .badWrite q.ctx (crierOff p (evRingOff r 0x10))))
    ∧ ∀ t0, ((s.crierOf p).ring r).timer = some t0 → 0 < ((s.crierOf p).ring r).n →
      exec (.moderationTimer p r) s = .next ((s.at_ (if 0 < ((s.crierOf p).ring r).count
        ∧ ((s.crierOf p).ring r).count ≤ ((s.crierOf p).ring r).n then s.clock.now
        else t0 + ((s.crierOf p).ring r).time)).evFire p r))
  ∧ ∀ (e : EventRing) (p : Nat) (v : BitVec 64),
    let x := { e with reeve := v.toNat.testBit 1, sizeLog2 := v.toNat / 2 ^ 4 % 2 ^ 5 }
    (e.enable = false → v.toNat.testBit 0 = true → x.pairOk p = true →
      e.writeCtrl p v = { x with
        enable := true, active := true, written := 0, head := 0, n := 0, timer := none, lostPending := 0, idle := false
        cqPending := [] })
    ∧ (e.enable = false → v.toNat.testBit 0 = true → x.pairOk p = false →
      e.writeCtrl p v = { x with configRejected := true })
    ∧ (e.enable = false → v.toNat.testBit 0 = false → e.writeCtrl p v = x)
    ∧ (e.enable = true → v.toNat.testBit 0 = false →
      (e.writeCtrl p v).enable = false ∧ (e.writeCtrl p v).base = e.base ∧ (e.writeCtrl p v).nextSeq = e.nextSeq)

/-- FETCH, DISPATCH, TOLLGATE_TICK and TOLLGATE_SAMPLE (R74, R88, R90, R96, R99): the command that the ring whose turn it is
gives is coloured by the buckets where no check of R69 refuses it and its counted length is within PBS, or completes with
THROTTLED in a throttled run; the ring whose turn it is at a unit gives its head command; the tick comes 1,024 cycles after
the last; a sample counts in SAMPLES and keeps the depth of the ring.
The buckets of a tick (R88): a ring that is not paused gains CIR and PIR, up to CBS and PBS; a paused one gains nothing.
The colour (R89): RED leaves the buckets, YELLOW takes B from the peak bucket, GREEN from both. -/
def Obligations.TollgateCompletes : Prop :=
  (∀ (p k : Nat) (d : Desc) (s : State) (g : Ring), s.ring? p k = some g →
    (∀ arb, s.fetchTurn p k = some arb → s.fetches = true → g.fetchable = true →
      let cmd : RingCmd := { pen := p, ring := k, serial := s.nextTicket, desc := d }
      let u := ({ s with nextTicket := s.nextTicket + 1, fetchArb := arb }).modRing p k fun g =>
        { g with fetched := add32 g.fetched 1, inflight := g.inflight ++ [s.nextTicket], serviced := true }
      (g.run = none → fetchRefusal s p d = none → countedLength s p g d ≤ g.toll.pbs →
        exec (.fetch p k d) s = .next (u.colourCmd p k { cmd with length := countedLength s p g d }))
      ∧ ∀ n hint, g.run = some (n, hint) → exec (.fetch p k d) s = .next
        ((u.modRing p k fun g => { g with run := if n ≤ 1 then none else some (n - 1, hint) }).rejectCmd p k cmd
          { status := .throttled, hint := hint }))
    ∧ (∀ u lc be n c, s.nextFor u = some ((p, k), lc, be, n) → s.fetches = true → s.unitAwake u = true →
      g.ready = some c →
      let v := s.modRing p k fun g => { g with admitted := g.admitted.drop 1, serviced := true }
      exec (.dispatch u p k) s = .next { v with
        dispatched := v.dispatched ++ [c], dispatchLast := assocSet u (lc, be, n) v.dispatchLast })
    ∧ (∃ t, exec .tollgateTick s = .next t ∧ t.clock.tollTick = s.clock.tollTick + 1024
      ∧ t.clock.now = max s.clock.now (s.clock.tollTick + 1024))
    ∧ ∃ t, exec (.tollgateSample p k) s = .next t
      ∧ (t.ring? p k).map (fun x => (tallyGet x.ctrs .samples, tallyGet x.ctrs .depthLast))
        = some (min (2 ^ 32 - 1) (tallyGet g.ctrs .samples + 1), sub32 g.sqTail g.fetched + (if g.held.isSome then 1 else 0)))
  ∧ ∀ (g : Ring) (b : Nat),
    (g.toll.cir ≠ 0 → g.toll.pir ≠ 0 → g.refill = { g with
      tc := min g.toll.cbs (g.tc + g.toll.cir), tp := min g.toll.pbs (g.tp + g.toll.pir) })
    ∧ (g.toll.cir = 0 ∨ g.toll.pir = 0 → g.refill = g)
    ∧ (g.tp < b → g.colourOf b = (.red, g.tc, g.tp))
    ∧ (b ≤ g.tp → (g.toll.colourAware = true ∧ g.toll.preColourYellow = true ∨ g.tc < b) →
      g.colourOf b = (.yellow, g.tc, g.tp - b))
    ∧ (b ≤ g.tp → ¬(g.toll.colourAware = true ∧ g.toll.preColourYellow = true) → b ≤ g.tc →
      g.colourOf b = (.green, g.tc - b, g.tp - b))

/-! ### Completion: the mailbox commands -/

/-- NIRVEX_CAPS, PEN_CREATE, PEN_DESTROY and PEN_CONFIG (R79, R139, R376, R395, R453): NIRVEX_CAPS writes the capability block
into the payload; PEN_CREATE, where the sums of the settings in force and of those accepted allow it, makes the pen with its
settings and raises its generation by 1; PEN_DESTROY removes a pen without rings and sessions; the settings of PEN_CONFIG,
where the sums of those accepted allow them, wait behind the pen's others. PEN_CREATE of an id whose generation has reached
0xFFFF_FFFF completes with QUOTA and makes nothing; PEN_DESTROY of pen 0x000 completes with DENIED (R62). -/
def Obligations.PenCommandsComplete : Prop :=
  ∀ (mb : Mb) (s : State) (c : MbCmd),
    let u := s.mbTake mb c
    let p := operand c.desc 0 2
    (reeveBegins s mb 0x0001 c → exec (.nirvexCaps mb) s = .next
      ((u.modMb mb fun m => { m with payload := memWriteBytes m.payload 0 u.capsBlock }).mbFinish ⟨mb, c⟩ rOk))
    ∧ (reeveBegins s mb 0x0002 c → p ≤ 1023 → u.pen? p = none → badAmong (penCfgChecks (penCfgOf c.desc)) = none →
      quotaExceeded u (u.otherPens p) (penCfgOf c.desc) = false → quotaExceeded u (u.otherPensNext p) (penCfgOf c.desc) = false →
      u.ringCount < 65536 → u.sessions.length < 16777216 →
      (assocGet p u.penGens).getD 0 < 0xFFFFFFFF →
      exec (.penCreate mb) s = .next
        (({ u with pens := assocSet p { cfg := penCfgOf c.desc, createdAt := s.clock.now } u.pens
                   penGens := assocSet p ((assocGet p u.penGens).getD 0 + 1) u.penGens }).mbFinish ⟨mb, c⟩ rOk))
    ∧ (reeveBegins s mb 0x0003 c → p ≠ 0 → ∀ x, u.pen? p = some x → x.rings = [] → u.sessionCount p = 0 →
      (u.sessions.any fun y => handlePen y.1 == p) = false →
      exec (.penDestroy mb) s = .next ({ u with pens := assocDel p u.pens }.mbFinish ⟨mb, c⟩ rOk))
    ∧ (reeveBegins s mb 0x0004 c → (u.pen? p).isSome = true → badAmong (penCfgChecks (penCfgOf c.desc)) = none →
      quotaExceeded u (u.otherPensNext p) (penCfgOf c.desc) = false →
      exec (.penConfig mb) s = .next
        (u.modPen p fun x => { x with pendingCfg := x.pendingCfg ++ [(penCfgOf c.desc, ⟨mb, c⟩)] }).reeveNext)
    ∧ (reeveBegins s mb 0x0002 c → p ≤ 1023 → u.pen? p = none → badAmong (penCfgChecks (penCfgOf c.desc)) = none →
      0xFFFFFFFF ≤ (assocGet p u.penGens).getD 0 → exec (.penCreate mb) s = .next (u.mbFinish ⟨mb, c⟩ (rStatus .quota)))
    ∧ (reeveBegins s mb 0x0003 c → p = 0 → exec (.penDestroy mb) s = .next (u.mbFinish ⟨mb, c⟩ (rStatus .denied)))

/-- PEN_REINIT, PEN_REINIT_RESTART and PEN_REINIT_OVERRUN (13 R345 to R347): the pen's reinit begins; at its restart, where
no ring is being destroyed, every ring has SQ_TAIL, fetched, CQ_HEAD and WRITTEN at 0 and full buckets, and BUSY of the
ladder clears where it stood for it; one that overruns 2^21 cycles triggers a warm reset. -/
def Obligations.PenReinitsComplete : Prop :=
  ∀ (mb : Mb) (s : State) (c : MbCmd) (p : Nat) (x : Pen) (r : Reinit),
    (reeveBegins s mb 0x0005 c → ∀ y, (s.mbTake mb c).pen? (mbTarget mb c.desc 0) = some y → y.reinit = none →
      s.warmPending = false → exec (.penReinit mb) s = .next
        (((s.mbTake mb c).startReinit (mbTarget mb c.desc 0) false).mbFinish ⟨mb, c⟩ rOk))
    ∧ (s.pen? p = some x → x.reinit = some r → (∀ g ∈ x.rings, g.2.destroying = none) →
      ∃ t, exec (.penReinitRestart p) s = .next t
      ∧ (t.pen? p).map (fun y => (y.reinit, y.rings.map fun g =>
          (g.1, g.2.sqTail, g.2.fetched, g.2.cqHead, g.2.written, g.2.tc, g.2.tp)))
        = some (none, x.rings.map fun g => (g.1, 0, 0, 0, 0, g.2.toll.cbs, g.2.toll.pbs))
      ∧ t.ladder.busy = (s.ladder.busy && !r.viaLadder))
    ∧ (s.pen? p = some x → x.reinit = some r →
      exec (.penReinitOverrun p) s = .next ((s.at_ (r.since + 2 ^ 21)).triggerWarm 4))

/-- RING_CREATE, RING_DESTROY and RING_CONFIG (R74, R77, R94): a ring begins with the operands' parameters, all counters 0
and full buckets; RING_DESTROY marks the ring, completes a command that it holds with ABORTED_RETRYABLE, and removes it where it
owes nothing; a RING_CONFIG waits behind the ring's others for the tick. -/
def Obligations.RingCommandsComplete : Prop :=
  ∀ (mb : Mb) (s : State) (c : MbCmd) (q : Pen),
    let u := s.mbTake mb c
    let d := c.desc
    let p := mbTarget mb d 22
    let k := operand d 20 2
    u.pen? p = some q →
    (reeveBegins s mb 0x0010 c → operand d 0 8 % 4096 = 0 → operand d 8 8 % 4096 = 0 →
      6 ≤ operand d 16 1 → operand d 16 1 ≤ 14 → 6 ≤ operand d 17 1 → operand d 17 1 ≤ 15 →
      (operand d 18 1 ≤ 15 ∨ operand d 18 1 = 0xFF) → operand d 19 1 ≤ 1 → k ≤ 4095 → assocGet k q.rings = none →
      badAmong (tollgateChecks d) = none → q.rings.length < q.cfg.ringsMax → u.ringCount < 65536 →
      exec (.ringCreate mb) s = .next
        ((u.modPen p fun q => { q with rings := assocSet k (newRing d s.clock.now) q.rings }).mbFinish ⟨mb, c⟩ rOk)
      ∧ (newRing d s.clock.now).sqTail = 0 ∧ (newRing d s.clock.now).fetched = 0 ∧ (newRing d s.clock.now).cqHead = 0
      ∧ (newRing d s.clock.now).written = 0 ∧ (newRing d s.clock.now).tc = (tollgateOf d).cbs
      ∧ (newRing d s.clock.now).tp = (tollgateOf d).pbs)
    ∧ (reeveBegins s mb 0x0011 c → ∀ g, assocGet k q.rings = some g → g.destroying = none →
      let v := u.modRing p k fun g => { g.unhold with destroying := some ⟨mb, c⟩, run := none }
      (g.held = none → exec (.ringDestroy mb) s = .next (v.ringGone p k).reeveNext)
      ∧ ∀ x, g.held = some x → exec (.ringDestroy mb) s = .next (v.complete x (rStatus .abortedRetryable)).reeveNext)
    ∧ (reeveBegins s mb 0x0012 c → ∀ g, assocGet k q.rings = some g → g.destroying = none → operand d 19 1 ≤ 1 →
      badAmong (tollgateChecks d) = none → exec (.ringConfig mb) s = .next
        (u.modRing p k fun g => { g with config := g.config ++ [(tollgateOf d, operand d 19 1 == 1, ⟨mb, c⟩)] }).reeveNext)

/-- LAYOUT_LOAD, LAYOUT_UNLOAD, CONSTRAINT_LOAD and CONSTRAINT_UNLOAD (R56 to R58, R227, R229): a layout that passes its checks
is stored under its id, one that nothing uses is removed; a source that compiles is stored as the pen's constraint set where
the pen's states and T1 quota hold it, and refused with QUOTA where they do not; a set that nothing uses is removed. -/
def Obligations.LayoutsAndConstraintsComplete : Prop :=
  ∀ (mb : Mb) (s : State) (c : MbCmd) (src : List Byte),
    let u := s.mbTake mb c
    let l := layoutOf (memReadBytes c.payload 0 256)
    let id := operand c.desc 0 2
    let p := mbTarget mb c.desc 2
    (reeveBegins s mb 0x0020 c → u.layout? l.id = none → badAmong (layoutChecks l) = none →
      exec (.layoutLoad mb) s = .next ({ u with layouts := assocSet l.id l u.layouts }.mbFinish ⟨mb, c⟩ rOk))
    ∧ (reeveBegins s mb 0x0021 c → (u.layout? (operand c.desc 0 1)).isSome = true → u.layoutUsed (operand c.desc 0 1) = false →
      exec (.layoutUnload mb) s = .next
        ({ u with layouts := assocDel (operand c.desc 0 1) u.layouts }.mbFinish ⟨mb, c⟩ rOk))
    ∧ (reeveBegins s mb 0x0022 c → ∀ q set, u.pen? p = some q → src.length = operand c.desc 16 4 →
      src ≠ [] → src.length ≤ 1048576 → id ≠ 0xFFFF → assocGet id q.constraints = none → onBoundary src.length src = true →
      compileSource src = some set → q.constraints.length < 256 → exec (.constraintLoad mb src) s = .next
        (if (q.constraints.map fun x => x.2.states).sum + set.states ≤ 16384 ∧ u.used p .t1 + set.bytes ≤ u.quota p .t1
         then (u.modPen p fun q => { q with constraints := assocSet id set q.constraints }).mbFinish ⟨mb, c⟩ rOk
         else u.mbFinish ⟨mb, c⟩ (rStatus .quota)))
    ∧ (reeveBegins s mb 0x0023 c → ∀ q, u.pen? p = some q → (assocGet id q.constraints).isSome = true →
      u.constraintUsed p id = false → exec (.constraintUnload mb) s = .next
        ((u.modPen p fun q => { q with constraints := assocDel id q.constraints }).mbFinish ⟨mb, c⟩ rOk))

/-- FLOCK_CREATE, FLOCK_DESTROY, FLOCK_PLAN_CONFIG and ANCHOR_SET (R103, R104, R123, R252), and LEASE_STAGE (R126): a flock of
free ports of the census is made and its ports started; of a flock with no plan delivered and no step running FLOCK_DESTROY,
FLOCK_PLAN_CONFIG and ANCHOR_SET take effect at once, FLOCK_PLAN_CONFIG and ANCHOR_SET of another wait in it for its next
snapshot; LEASE_STAGE stages a session that is RUNNABLE, PARKED or CLOSED. -/
def Obligations.FlockCommandsComplete : Prop :=
  ∀ (mb : Mb) (s : State) (c : MbCmd) (pen ring : Nat) (e : RingCmd),
    let u := s.mbTake mb c
    let f := operand c.desc 0 1
    let ports := (List.range 8).filter fun p => bitOf (operand c.desc 1 1) p
    (reeveBegins s mb 0x0030 c → f ≤ 7 → assocGet f u.flocks = none → operand c.desc 1 1 ≠ 0 →
      (∀ p ∈ ports, u.flockOf p = none ∧ (u.stepPort p).census = true) →
      exec (.flockCreate mb) s = .next
        ((ports.foldl State.startPort { u with flocks := assocSet f { ports := ports } u.flocks }).mbFinish ⟨mb, c⟩ rOk))
    ∧ (reeveBegins s mb 0x0031 c → ∀ k, u.flock? f = some k → k.stepping = false → exec (.flockDestroy mb) s = .next
      (((u.modFlock f fun k => { k with destroying := some ⟨mb, c⟩ }).modFlock f fun k => { k with next := none }).finishDestroy
        f []).reeveNext)
    ∧ (reeveBegins s mb 0x0032 c → ∀ k, u.flock? f = some k →
      badAmong (planParamsChecks (operand c.desc 8 32)
        (u.layout? (planParamsOf (operand c.desc 8 32)).layout).isSome) = none →
      (k.stepping = false → exec (.flockPlanConfig mb) s = .next
        ((u.applyParams f (planParamsOf (operand c.desc 8 32))).mbFinish ⟨mb, c⟩ rOk))
      ∧ (k.stepping = true → exec (.flockPlanConfig mb) s = .next
        (u.modFlock f fun k => { k with pending := k.pending ++ [(planParamsOf (operand c.desc 8 32), ⟨mb, c⟩)] }).reeveNext))
    ∧ (reeveBegins s mb 0x0033 c → ∀ x k, u.sess? (descHandle c.desc) = some x → f = 1 →
      u.flock? (operand c.desc 1 1) = some k → k.params.layout = x.layout → u.anchors (operand c.desc 1 1) (descHandle c.desc) < 64 →
      (k.stepping = false → exec (.anchorSet mb) s = .next
        ((u.anchor (operand c.desc 1 1) (descHandle c.desc) true).mbFinish ⟨mb, c⟩ rOk))
      ∧ (k.stepping = true → exec (.anchorSet mb) s = .next
        (u.modFlock (operand c.desc 1 1) fun k => { k with anchors := k.anchors ++ [(descHandle c.desc, true, ⟨mb, c⟩)] }).reeveNext))
    ∧ (unitBegins s pen ring 0x0107 e → ∀ x k, (s.ringTake e).sess? (descHandle e.desc) = some x →
      (s.ringTake e).flock? (operand e.desc 0 1) = some k → k.params.layout = x.layout →
      (x.state = .runnable ∨ x.state = .parked ∨ x.state = .closed) →
      exec (.leaseStage pen ring) s = .next
        (((s.ringTake e).stageIn (operand e.desc 0 1) (descHandle e.desc)).complete e rOk))

/-- ROUTE_SET, COMPOSITION_SET, LEDGER_PARTNER_SET and NODE_DOWN (11 R280, R297 to R300, 12 R312, R316). ROUTE_SET of another node
without ports removes its entry; with ports of the device, none twice, of a node that has an entry, sets it, a port that is OFF
wakes and trains, and the routes are joined. COMPOSITION_SET of a newer epoch with a map that holds its rules installs it. LEDGER_PARTNER_SET of 0xFFFF goes to solo
commit; of another node than the one named it begins a new partnership. NODE_DOWN of the partner makes the device stand in for
it. -/
def Obligations.FabricCommandsComplete : Prop :=
  ∀ (mb : Mb) (s : State) (c : MbCmd) (map : List Byte),
    let u := s.mbTake mb c
    let n := operand c.desc 0 2
    let used := ((List.range 4).map fun i => operand c.desc (2 + i) 1).filter (· != 0xFF)
    let recs := (chunks 16 (operand c.desc 16 4 / 16) (map.take (operand c.desc 16 4))).map parseMapRec
    (reeveBegins s mb 0x0040 c → n ≤ 0x1FFF → n ≠ u.node → used = [] → exec (.routeSet mb) s = .next
      ({ u with commons := { u.commons with routes := assocDel n u.commons.routes } }.mbFinish ⟨mb, c⟩ rOk))
    ∧ (reeveBegins s mb 0x0040 c → n ≤ 0x1FFF → n ≠ u.node → used ≠ [] → hasDup used = false → (∀ p ∈ used, p < 18) →
      (assocGet n u.commons.routes).isSome = true → exec (.routeSet mb) s = .next
        (((used.foldl State.routePort { u with commons := { u.commons with routes := assocSet n used u.commons.routes } }).joinRoute).mbFinish ⟨mb, c⟩ rOk))
    ∧ (reeveBegins s mb 0x0041 c → u.commons.epoch < operand c.desc 0 8 → operand c.desc 16 4 % 16 = 0 →
      operand c.desc 16 4 ≤ 262144 → u.mapBad recs = false → exec (.compositionSet mb map) s = .next
        ((u.installMap (operand c.desc 0 8) recs).mbFinish ⟨mb, c⟩ rOk))
    ∧ (reeveBegins s mb 0x0042 c → (n = 0xFFFF → exec (.ledgerPartnerSet mb) s = .next (u.partnerSolo.mbFinish ⟨mb, c⟩ rOk))
      ∧ (n ≤ 0x1FFF → n ≠ u.node → u.namedPartner ≠ some n → exec (.ledgerPartnerSet mb) s = .next
        ((u.partnerNew (BitVec.ofNat 13 n)).mbFinish ⟨mb, c⟩ rOk)))
    ∧ (reeveBegins s mb 0x0043 c → u.partner.node.map (·.toNat) = some n →
      exec (.nodeDown mb) s = .next (u.standIn.mbFinish ⟨mb, c⟩ rOk))

/-- CHECKPOINT and RESTORE (12 R319, R325), while neither runs and a gateway of the map is named: CHECKPOINT completes with its
CHECKPOINT_SEQ, one above the last, and stands in progress; RESTORE, of a manifest that is not forged and of this device, with
nothing to overwrite, completes, stands in progress with the manifest's stem and first part, and asks the gateway for the other
parts. LEDGER_COMMIT, LEDGER_WRITE_BEHIND,
PARTNER_RETRY and DRAIN_FENCE_END (11 R300, 12 R308 to R316): the oldest group that both places hold commits, and what waits
behind it only for that, and a session that becomes RUNNABLE goes on; the flash copies follow the sessions' committed groups, the
registry slice and the mirrors; every 2^26 cycles in fallback an empty batch is offered to the partner in force, and everything
is sent again to a new one that did not answer; the fence ends once nothing drains, and grants the map no longer has are dropped. -/
def Obligations.LedgerAndHarvestComplete : Prop :=
  (∀ (mb : Mb) (s : State) (c : MbCmd) (name part0 : List Byte) (certOk : Bool),
    let u := s.mbTake mb c
    let gw := operand c.desc 0 2
    (u.commons.map.any fun r => r.kind == 4 && r.node.toNat == gw) = true → u.harvest.checkpoint = none →
    u.harvest.restore = none → name.length = operand c.desc 16 4 → name ≠ [] →
    (reeveBegins s mb 0x0050 c → name.length ≤ 128 → exec (.checkpoint mb name) s = .next
      ((State.uncapture { u with harvest := { u.harvest with
        seq := u.harvest.seq + 1, capturing := []
        checkpoint := some { gateway := BitVec.ofNat 13 gw, seq := u.harvest.seq + 1, name := name } } }).mbFinish ⟨mb, c⟩
          { result := u.harvest.seq + 1 }))
    ∧ (reeveBegins s mb 0x0051 c → name.length ≤ 255 → u.manifestForged (parsePart0 part0) certOk = false →
      (parsePart0 part0).node = u.node → ((parsePart0 part0).serial = 0 ∨ (parsePart0 part0).serial = Config.serial.toNat) →
      u.sessions = [] → (u.slice.entries.any fun e => e.2.life == .live || e.2.life == .regrow) = false →
      let stem := manifestStem name (parsePart0 part0)
      let v := { u with harvest := { u.harvest with
        restore := some { gateway := BitVec.ofNat 13 gw, stem := stem, part0 := part0 }, gets := [] } }
      exec (.restore mb name part0 certOk) s = .next
        (((List.range ((parsePart0 part0).partCount - 1)).foldl (fun t k =>
          t.request gw 0x42 0 (getBody (partKey stem (k + 1)) 0 8388608) (.storeGet (.part (k + 1)))) v).mbFinish ⟨mb, c⟩ rOk)))
  ∧ ∀ (h : Handle) (s : State),
    (s.mayCommit h = true → exec (.ledgerCommit h) s = .next ((s.settleGroup h).nowRunnable ((s.sess? h).map (·.state)) h))
    ∧ (let u := (s.sessions.filter fun x => x.2.region.flashed != x.2.ledgerStep).foldl (fun t x => t.flashSession x.1) s
      exec .ledgerWriteBehind s = .next { u with
        flashSlice := u.slice
        partner := { u.partner with flashMirror := u.partner.mirror, flashSlices := u.partner.slices } })
    ∧ (let u := { s.at_ (s.clock.partnerRetry + 2 ^ 26) with
          clock := { (s.at_ (s.clock.partnerRetry + 2 ^ 26)).clock with partnerRetry := s.clock.partnerRetry + 2 ^ 26 } }
      ((s.partner.syncing = true ∨ s.partner.pending = none ∧ s.partner.node = none) → exec .partnerRetry s = .next u)
      ∧ (s.partner.syncing = false →
        (s.partner.pending.isSome = true → exec .partnerRetry s = .next
          ({ u with partner := { u.partner with
            syncing := true, pendingSeq := 0, owed := [], owedEntries := u.allEntries } }).syncStep)
        ∧ ∀ n, s.partner.pending = none → s.partner.node = some n → exec .partnerRetry s = .next
          (if s.partner.fallback && !u.mirrorBusy n.toNat then u.request n.toNat 0x30 0 (mirrorHeader 1 0 (s.partner.acked + 1))
            (.records (s.partner.acked + 1) []) else u)))
    ∧ ∀ t0, s.commons.fenceEnd = some t0 → s.drainBusy = false → exec .drainFenceEnd s = .next
      (({ s with clock := { s.clock with now := max s.clock.now t0 }
                 commons := { s.commons with fenceEnd := none, oldMap := [] } }).dropGrants)

/-- FW_STAGE, FW_ACTIVATE, LIVE_UPDATE_DONE, LIVE_UPDATE_ABANDON and WATCHMAN_IMAGE_WRITTEN (R82, 16 R403, R404, 17 R423): a
verified image, written back well, is staged, another refused; a staged one not below the fuses is activated; a live update
that ends within its 300 ms runs the image, blows up to its security number, and raises FIRMWARE_ACTIVATED; one that does not is
abandoned: the ring commands that wait for the Reeve complete with RETRY_LATER, and the old image runs on; a Watchman image
that reads back is in its slot, another is not. -/
def Obligations.FirmwareCompletes : Prop :=
  ∀ (mb : Mb) (s : State) (c : MbCmd) (image : List Byte) (i : Image) (blown t0 : Nat),
    let u := s.mbTake mb c
    (reeveBegins s mb 0x0060 c → u.watchman.update = none → exec (.fwStage mb image true) s = .next
      (match checkImage u.security.rollback (operand c.desc 8 4) (stagedBytes c.desc image) with
        | .ok i => (u.stage i).mbFinish ⟨mb, c⟩ rOk
        | .error st => u.mbFinish ⟨mb, c⟩ (rStatus st)))
    ∧ (reeveBegins s mb 0x0061 c → u.watchman.update = none → u.security.staged = some i → u.security.rollback ≤ i.svn →
      exec (.fwActivate mb) s = .next ((u.activate i).mbFinish ⟨mb, c⟩ rOk))
    ∧ (s.ident.liveUpdate = some t0 → s.security.activating = some i → s.clock.now ≤ t0 + updateBound →
      exec (.liveUpdateDone blown) s = .next
        ((({ s with security := (s.security.runNew i).blow i.svn blown }).endUpdate).raiseAll 0x0002 i.version.toNat 0))
    ∧ (s.ident.liveUpdate = some t0 →
      let v := s.at_ (t0 + updateBound)
      let w := v.reeveWaiting.foldl (fun t d => (retryLater (t.ringDrop d)).1.complete d (retryLater (t.ringDrop d)).2) v
      exec .liveUpdateAbandon s = .next (w.endUpdate.raiseAll 0x0002 w.fwVersion 1))
    ∧ (s.security.watchmanWrite = some i →
      exec (.watchmanImageWritten true) s = .next
        (({ s with security := { s.security with watchmanWrite := none, watchmanSlots := (some i, s.security.watchmanSlots.1) } }).raiseAll
          0x0002 i.version.toNat 2)
      ∧ exec (.watchmanImageWritten false) s = .next
        (({ s with security := { s.security with watchmanWrite := none } }).raiseAll 0x0002 i.version.toNat 3))

/-- POWER_LIMIT_SET, COUNTERS_READ and OVERRUN_WINDOW (15 R375, R380, 13 R352): the limits take effect and LIMITS_CHANGED is
raised; a report long enough to fit is written and READ_SEQ counts; the window's energy above its limit is owed. -/
def Obligations.PowerAndCountersComplete : Prop :=
  ∀ (mb : Mb) (s : State) (c : MbCmd),
    let u := s.mbTake mb c
    let sw := operand c.desc 0 2
    let bw := operand c.desc 2 2
    (reeveBegins s mb 0x0070 c → 600 ≤ sw → sw ≤ 1400 → sw ≤ bw → bw ≤ 1650 →
      (u.pens.map fun q => q.2.cfg.energyFloor).sum ≤ (sw - 400) * 1000 →
      ∃ h : Hearth, exec (.powerLimitSet mb) s = .next (({ u with hearth := h }.raise 0 0x0905 sw bw).mbFinish ⟨mb, c⟩ rOk)
        ∧ h.sustained = sw ∧ h.burst = bw ∧ h.limitsApplied = true ∧ h.domains = s.hearth.domains ∧ h.grants = s.hearth.grants)
    ∧ (reeveBegins s mb 0x0071 c → ∀ q, u.pen? (mbTarget mb c.desc 0) = some q → operand c.desc 2 1 = 0 →
      let device := mbAdmin mb && mbTarget mb c.desc 0 == 0
      let size := reportSize q.reported.length device
      size ≤ operand c.desc 16 4 → 0 < size → exec (.countersRead mb) s = .next
        (((u.hostOut (.hostWrite (operand c.desc 8 8) (u.report (mbTarget mb c.desc 0) q device))).modPen (mbTarget mb c.desc 0)
          fun q => { q with readSeq := q.readSeq + 1 }).mbFinish ⟨mb, c⟩ { result := size }))
    ∧ ∃ t, exec .overrunWindow s = .next t ∧ t.clock.overrunWindow = s.clock.overrunWindow + 2 ^ 20
      ∧ t.hearth.windowEnergy = 0 ∧ t.hearth.windowBurst = 0
      ∧ t.hearth.owed = s.hearth.owed + (25 * s.hearth.windowEnergy - (s.hearth.sustained * 2 ^ 20 + 25 * s.hearth.windowBurst)) / 25

/-- INDEX_CREATE, INDEX_DESTROY and COMPACTION_TIMER (08 R201, R206, R207): an index within the limits is made; one to be
destroyed is marked and goes once nothing scans it; a commit that has waited 2^26 cycles starts a compaction. INDEX_INSERT,
INDEX_DELETE, INDEX_COMMIT and SEARCH (08 R203, R208): inserts within the quota and deletes wait for the commit, inserts
beyond it complete with QUOTA, and an insert of no record with OK; a commit completes with its sequence number, one above the last where something waited for
it; a search with room for results waits in its index, one without completes at once. -/
def Obligations.IndexesComplete : Prop :=
  (∀ (mb : Mb) (s : State) (c : MbCmd) (p id : Nat) (x : Index) (t0 : Nat),
    let u := s.mbTake mb c
    (reeveBegins s mb 0x0072 c → ∀ q, u.pen? (mbTarget mb c.desc 4) = some q → assocGet (operand c.desc 0 4) q.indexes = none →
      badAmong (indexChecks (BitVec.ofNat 64 (operand c.desc 8 8))) = none → q.indexes.length < 64 →
      (u.pens.map fun r => r.2.indexes.length).sum < 4096 → exec (.indexCreate mb) s = .next
        ((u.modPen (mbTarget mb c.desc 4) fun q => { q with
          indexes := assocSet (operand c.desc 0 4) { params := BitVec.ofNat 64 (operand c.desc 8 8) } q.indexes }).mbFinish
          ⟨mb, c⟩ rOk))
    ∧ (reeveBegins s mb 0x0073 c → (u.pen? (mbTarget mb c.desc 4)).isSome = true →
      (u.index? (mbTarget mb c.desc 4) (operand c.desc 0 4)).isSome = true → exec (.indexDestroy mb) s = .next
        (((u.modIndex (mbTarget mb c.desc 4) (operand c.desc 0 4) fun x => { x with
          destroying := some ⟨mb, c⟩, destroyAt := s.clock.now }).tryDestroyIndex (mbTarget mb c.desc 4)
            (operand c.desc 0 4)).reeveNext))
    ∧ (s.rawIndex? p id = some x → x.waiting = some t0 → x.compacting = false → exec (.compactionTimer p id) s = .next
      ((s.at_ (t0 + 2 ^ 26)).modIndex p id fun x => { x with compacting := true })))
  ∧ ∀ (pen ring : Nat) (s : State) (c : RingCmd) (recs : List Byte) (x : Index),
    let u := s.ringTake c
    let id := operand c.desc 0 4
    let count := operand c.desc 16 4
    let batch := batchRecords (16 + indexVectorBytes x.params) count recs
    (u.indexFor c = some x → count ≤ 65536 →
      (unitBegins s pen ring 0x0120 c → count = 0 → exec (.indexInsert pen ring recs) s = .next (u.complete c rOk))
      ∧ (unitBegins s pen ring 0x0120 c → (batch.any fun r => bytesAt r 8 8 != 0) = false → x.sideCount + count ≤ 2 ^ 24 →
        count ≠ 0 → exec (.indexInsert pen ring recs) s = .next
          (if u.used pen .t1 + count * Config.sideEntryBytes x.params.toNat ≤ u.quota pen .t1 ∧ u.versionCount + count ≤ 2 ^ 36
           then (u.modIndex pen id fun x => { x with
             pending := x.pending ++ batch.map fun r => IndexOp.insert (bytesAt r 0 6) (bytesAt r 6 2) (r.drop 16) }).complete c rOk
           else (u.bumpPen pen .quotaRefusals 1).complete c (rStatus .quota)))
      ∧ (unitBegins s pen ring 0x0121 c → (batch.any fun r => (r.drop 6).any (· != 0)) = false →
        exec (.indexDelete pen ring recs) s = .next
          ((u.modIndex pen id fun x => { x with
            pending := x.pending ++ batch.map fun r => IndexOp.delete (bytesAt r 0 6) }).complete c rOk)))
    ∧ (unitBegins s pen ring 0x0122 c → u.indexFor c = some x →
      (x.pending = [] → exec (.indexCommit pen ring) s = .next (u.complete c { result := x.commitSeq }))
      ∧ (x.pending ≠ [] → x.commitSeq + 1 < 0xFFFFFFFFFFFF → ∃ g : Index → Index,
        exec (.indexCommit pen ring) s = .next ((u.modIndex pen id g).complete c { result := x.commitSeq + 1 })
        ∧ ∀ y, (g y).commitSeq = x.commitSeq + 1 ∧ (g y).pending = [] ∧ (g y).params = y.params
          ∧ (g y).versions = y.pending.foldl (y.apply pen id (x.commitSeq + 1)) y.versions))
    ∧ (unitBegins s pen ring 0x0123 c → ∀ snap gen n, u.rawIndex? pen id = some x → c.snapshot = some (snap, gen, n) →
      badAmong (searchChecks false c.desc) = none →
      let q := searchOf c.desc (some c) none snap gen (recs.take (2 * indexDim x.params)) c.admitted
      (q.k = 0 ∨ q.stripLimit = 0 → exec (.search pen ring recs) s = .next
        (((u.bumpPen pen .searches 1).tryDestroyIndex pen id).complete c rOk))
      ∧ (q.k ≠ 0 → q.stripLimit ≠ 0 → exec (.search pen ring recs) s = .next
        (u.modIndex pen id fun y => { y with searches := y.searches ++ [{ q with stepsLeft := searchSteps n y pen id q }] })))

/-! ### Completion: the ring commands -/

/-- SESSION_OPEN, SESSION_FORK and SESSION_CLOSE (02 R50, R52, 12 R310): where the limits allow it a new handle is issued and
the session opened, or forked from the prefix session or the parent that the command names, which runs no step, is not
FAULTED, is offered to no other device and has no group waiting; a fork of a session that runs waits for its boundary, one
behind waiting groups for their commits; a close of a session that runs a step waits for its boundary, one of a session at
rest closes it behind the groups that wait. -/
def Obligations.SessionLifeCompletes : Prop :=
  ∀ (pen ring : Nat) (s : State) (c : RingCmd),
    let u := s.ringTake c
    let h := descHandle c.desc
    (unitBegins s pen ring 0x0100 c → ∀ q hd v, u.pen? pen = some q → u.restoring = false →
      openOffence u q c.desc = none → u.sess? h = none → u.sessionQuota pen = false → u.ledgerFull = false → refuseT1 u pen (newSessionBytes 0 []) = none →
      u.issue pen (descFlag c.desc 24) = some (hd, v) → exec (.sessionOpen pen ring) s = .next
        (v.openSession hd { latencyCritical := descFlag c.desc 25, isPrefix := descFlag c.desc 24,
                            layout := samplerLayout c.desc, sampler := samplerOf c.desc } [] c))
    ∧ (unitBegins s pen ring 0x0100 c → c.pen = pen → ∀ q x hd v, u.pen? pen = some q → u.restoring = false →
      openOffence u q c.desc = none → u.sess? h = some x → x.state ≠ .faulted → x.state ≠ .running →
      x.inHandover = false → x.region.waiting = [] → forkRefusal u pen x = none →
      u.issue pen (descFlag c.desc 24) = some (hd, v) → exec (.sessionOpen pen ring) s = .next
        (v.fork h hd (samplerOf c.desc) (descFlag c.desc 25) (descFlag c.desc 24) c))
    ∧ (unitBegins s pen ring 0x0101 c → ∀ x hd v, u.sess? h = some x → c.pen = pen →
      (x.state ≠ .faulted → x.state ≠ .running → x.inHandover = false → x.region.waiting = [] →
        forkRefusal u pen x = none → u.issue pen x.isPrefix = some (hd, v) → exec (.sessionFork pen ring) s = .next
          (v.fork h hd { x.sampler with
            seed := if descFlag c.desc 26 then x.sampler.seed else BitVec.ofNat 64 (operand c.desc 0 8) }
            x.latencyCritical x.isPrefix c))
      ∧ (x.state = .running → exec (.sessionFork pen ring) s = .next (u.deferCmd c))
      ∧ (x.state ≠ .faulted → x.state ≠ .running → x.inHandover = false → x.region.waiting ≠ [] →
        exec (.sessionFork pen ring) s = .next (u.queueBehind h c)))
    ∧ (unitBegins s pen ring 0x0102 c → notOffered s c → ∀ x, u.sess? h = some x →
      exec (.sessionClose pen ring) s = .next
        (if x.state = .running then u.deferCmd c else u.closeNow c)
      ∧ ∀ w y, w = u.closeOutput h → w.sess? h = some y → y.state ≠ .closed →
        u.closeNow c = if y.region.waiting = [] then w.closeSession h (some c) else w.queueBehind h c)

/-- SESSION_PARK, SESSION_RESUME, SESSION_QUERY and SESSION_CONFIG (02 R37, R40, R41, R43, R51, R453), on the session as the
groups that wait for their commit leave it: a runnable session parks by a HOST_PARK record, one parked by the host resumes
by a HOST_RESUME record; a park of one that runs a step waits for its boundary, of a parked one completes with OK; a resume
of one parked for another cause completes with BAD_PARAM, of a runnable one with OK; a query writes the record or the entry
to DEST; a configuration waits in the session for a boundary. -/
def Obligations.SessionStatesComplete : Prop :=
  ∀ (pen ring : Nat) (s : State) (c : RingCmd) (x : Session),
    let u := s.ringTake c
    let h := descHandle c.desc
    (u.sess? h = some x → notOffered s c →
      (unitBegins s pen ring 0x0103 c →
        (x.state ≠ .running → x.applied.state = .runnable → exec (.sessionPark pen ring) s = .next
          (u.formGroup h [{ step := 0, kind := kHostPark }] (.host c)))
        ∧ (x.state = .running → exec (.sessionPark pen ring) s = .next (u.deferCmd c))
        ∧ (x.state ≠ .running → x.applied.state = .parked → exec (.sessionPark pen ring) s = .next (u.complete c rOk)))
      ∧ (unitBegins s pen ring 0x0104 c → x.applied.isPrefix = false →
        (x.applied.state = .parked → x.applied.parkCause = some .host → exec (.sessionResume pen ring) s = .next
          (u.formGroup h [{ step := 0, kind := kHostResume }] (.host c)))
        ∧ (x.applied.state = .parked → x.applied.parkCause ≠ some .host → exec (.sessionResume pen ring) s = .next (u.complete c (rBad 8)))
        ∧ (x.applied.state = .runnable ∨ x.applied.state = .running → exec (.sessionResume pen ring) s = .next (u.complete c rOk)))
      ∧ (unitBegins s pen ring 0x0106 c → ∀ q l, u.pen? pen = some q → u.layout? x.layout = some l →
        configOffence q l c.desc = none →
        exec (.sessionConfig pen ring) s = .next (u.modSess h fun x => { x with configs := x.configs ++ [c] })))
    ∧ (unitBegins s pen ring 0x0105 c →
      (descFlag c.desc 24 = false → u.sess? h = some x → exec (.sessionQuery pen ring) s = .next
        ((u.hostOut (.hostWrite (operand c.desc 0 8) (x.bytes h))).complete c rOk))
      ∧ ∀ e, descFlag c.desc 24 = true → u.entry? h = some e → exec (.sessionQuery pen ring) s = .next
        ((u.hostOut (.hostWrite (operand c.desc 0 8) e.bytes)).complete c rOk))

/-- APPEND_TEXT, APPEND_TOKENS and OUTPUT_POST (09 R218 to R225, R236, 12 R308), of a session offered to no other device, where the
command's own checks, the limits, the Ledger area and the pen's T1 quota allow it. APPEND_TEXT, on a stream of the same
SEGMENT and AUTHOR or on one that it opens, tokenizes its text behind what the stream carries, counts, and keeps the stream
with the staged ids, in a staging commit; with END the stream closes, and the segment's ids form a commit group of TOKENS.
APPEND_TOKENS translates its ids and forms their group. OUTPUT_POST posts its buffer behind the session's others, unless the
record has gone to another home, and what is readable goes into the buffers. -/
def Obligations.TextCommandsComplete : Prop :=
  ∀ (pen ring : Nat) (s : State) (c : RingCmd) (src : List Byte) (x : Session) (l : Layout),
    let u := s.ringTake c
    let d := c.desc
    let h := descHandle d
    let len := operand d 8 4
    let seg := operand d 12 1
    let author := (authorOf (operand d 13 1)).getD .user
    u.sess? h = some x → u.layout? x.layout = some l →
    (unitBegins s pen ring 0x0110 c → notOffered s c → u.ledgerFull = false → textRefusal l d = none →
      let k := operand d 14 1
      let fin := descFlag d 24
      let st := x.stream? k
      (len ≠ 0 ∨ fin = true ∧ st.isSome = true) → (∀ o, st = some o → o.segment = seg ∧ o.author = author) →
      let old := st.getD { segment := seg, author := author }
      let t := tokenize seg x.sampler.utf8Replace st.isNone old.carry old.introPending (fitTo len src) fin
      let staged := old.staged ++ t.staged
      staged.length ≤ 4194304 → (fin = true → x.region.heldTokens x.positions + staged.length ≤ 2 ^ 27) →
      let new : Stream := { segment := seg, author := author, carry := t.seq.map (BitVec.ofNat 8), introPending := t.intro,
                            staged := staged }
      let w := (u.countText pen t.counts).modSess h fun y => { y with region := { y.region.keep with
        streams := if fin then assocDel k x.region.streams else assocSet k new x.region.streams } }
      let v := if fin = false then w.formGroup h [] (.header c t.staged.length 0)
        else if staged = [] then w.formGroup h [] (.header c 0 0)
        else w.formGroup h (tokensGroup author false staged) (.append c (t.staged.length + 2 ^ 32 * staged.length))
      refuseGrowth u v pen h = none → exec (.appendText pen ring src) s = .next v)
    ∧ (unitBegins s pen ring 0x0111 c → notOffered s c → u.ledgerFull = false → len ≠ 0 → len ≤ 262144 →
      badAmong (tokensChecks l d) = none →
      let given := (List.range len).map fun i => bytesAt (fitTo (4 * len) src) (4 * i) 4
      let t := translateIds l seg x.sampler.substituteId given
      (given.any fun i => !l.hasId i) = false → x.region.heldTokens x.positions + t.1.length ≤ 2 ^ 27 → t.1 ≠ [] →
      let v := ((u.bumpPen pen .substituted t.2.1).bumpPen pen .controlDropped t.2.2).formGroup h
        (tokensGroup author false t.1) (.append c (2 ^ 32 * t.1.length))
      refuseGrowth u v pen h = none → exec (.appendTokens pen ring src) s = .next v)
    ∧ (unitBegins s pen ring 0x0112 c → outputBadLength l len = false → len ≠ 0 → x.leaving = false →
      exec (.outputPost pen ring) s = .next
        ((u.modSess h fun y => { y with
          buffers := y.buffers ++ [{ cmd := c, addr := operand d 0 8, length := len, pos := fillPos x x.buffers }] }).settleOutput
            h false false))

/-! ### Completion: flocks, steps and moves -/

/-- SNAPSHOT, GO and STEP_BOUNDARY (05 R106, R107, R115, R456). SNAPSHOT, of a flock with no next plan that is neither stopped nor
going away, comes PLAN_LEAD before the end of a step that runs and is not truncated, or at the next multiple of 1,024 cycles
where an enabled flock with no step has its ports up and a session to plan: the changes that wait take effect, and where the
flock is then disabled nothing is planned; else, with a layer table and a plan that hold the bounds of R456, the plan that
is built stands as the flock's next, its promotions are asked for and its domains woken, and for a flock with no step it is
delivered. GO of a plan whose ports have all acknowledged it begins the step: the device sources are fixed, each entry's
session begins its run, and every port is sent GO. STEP_BOUNDARY of a step whose ports are done, with no stall, neither
truncated nor without its next plan, or of one whose boundary has begun, goes on with the boundary, which waits for commits
as long as a group of the step's tokens or of the boundary is owed. -/
def Obligations.StepsComplete : Prop :=
  ∀ (f : Nat) (table : List LayerTiming) (s : State) (k : Flock), f < 8 → assocGet f s.flocks = some k →
    (k.stopped = false → k.destroying = none → k.next = none → k.delivered = none →
      ∀ (at_ : Nat) (deliver : Bool),
        ((∃ r, k.run = some r ∧ r.built = false ∧ r.truncating = false ∧ deliver = false
            ∧ at_ = r.go + r.plan.period - 1024 * k.params.planLead)
          ∨ (k.run = none ∧ k.params.enable = true ∧ s.flockUp k = true ∧ deliver = true ∧ at_ = nextMultiple 1024 s.clock.now
            ∧ (s.sessions.any fun x => candidate f k x.2 && !s.claimedElsewhere f x.1) = true)) →
        let u := (s.at_ at_).applyPending f
        let built (t : State) : State := t.modRun f fun r => { r with built := true }
        let goes (t : State) : Out :=
          .next (if deliver then (t.modFlock f fun k => { k with goAt := 0 }).deliverPlan f else t)
        ∀ k1, assocGet f u.flocks = some k1 →
          (k1.params.enable = false → exec (.snapshot f table) s = goes (built u))
          ∧ ∀ l, k1.params.enable = true → u.layout? k1.params.layout = some l → tableOk k1.params l table = true →
            let b := u.buildPlan f (8 * (k1.planCount + 1) + f) k1 l table
            let v := (built b.2).waitOnTiers k1 l b.1
            (b.1.entries = [] → k1.run = none → exec (.snapshot f table) s = goes (v.dropGrant f))
            ∧ ((b.1.entries = [] → k1.run ≠ none) → (b.1.entries ≠ [] → b.2.timingOk f l (b.2.assumedAt l) b.1 = true) →
              let w := v.modFlock f fun k =>
                { k with next := some b.1, planCount := k.planCount + (if b.1.entries = [] then 0 else 1) }
              exec (.snapshot f table) s
                = goes ((b.1.promotions.foldl (fun t q => t.askPromotion q.1 q.2.1 q.2.2 (some f)) w).askWakes 1 planDomains)))
    ∧ (∀ p t0, k.next = some p → k.delivered = some (t0, []) →
      let u := s.at_ k.goAt
      let es := match u.layout? p.layout with
        | some l => if p.layerOrder then p.entries else p.entries.map (u.fixDevice f l)
        | none => p.entries
      let v := u.modFlock f fun k =>
        { k with run := some { plan := { p with entries := es }, go := u.clock.now }, next := none, delivered := none,
                 goAt := u.clock.now + p.period, lastRan := p.entries.map (·.handle) }
      exec (.go f) s = .next
        ((p.entries.foldl (fun t e => t.beginEntry k.lastRan e) v).slSendAll k.ports 0 1 4 p.step []))
    ∧ ∀ r l, k.run = some r → s.layout? r.plan.layout = some l →
      (r.phase ≠ .running ∨ (k.ports.all r.portDone) = true ∧ r.stall = none ∧ r.truncating = false
        ∧ (r.built = true ∨ k.destroying.isSome = true)) →
      exec (.stepBoundary f) s = .next (s.boundary f l 4)
      ∧ (r.phase = .tokens ∨ r.phase = .changed → (s.commitOwed r.owed).groupsWait r.owed = true →
        s.boundary f l 4 = s.commitOwed r.owed)

/-- DUE_CHECK, STEP_ABANDON, ANCHOR_TIMEOUT and PLAN_ACK_TIMEOUT (05 R118 to R122, R125, 10 R258). At the due time of a datum, in
a step that neither stalls nor is truncated, of an entry that has not sat out and, for a stream, neither has its fallback
nor comes behind an earlier entry whose stream is late: one that has arrived changes nothing but the clock; one that has
not makes an anchored entry stall while the step's stalls are below its limit, and another entry sit out where the datum is
no stream. A step whose ports are not done is abandoned four periods after GO, a plan whose acknowledgements are missing four
of its periods after its delivery. A stall that reaches the limit ends: it is counted, its entry sits out with
ANCHOR_TIMEOUT, and its layer is delivered. -/
def Obligations.StepDeadlinesComplete : Prop :=
  ∀ (f i ly : Nat) (d : Datum) (fits : Bool) (s : State) (k : Flock), f < 8 → assocGet f s.flocks = some k →
    (∀ r e x l, s.run? f = some r → s.planEntry? f i = some e → s.sess? e.handle = some x →
      s.layout? r.plan.layout = some l → ly < l.layers → r.stall = none → r.truncating = false → e.sitOut = none →
      (d = .stream → e.fallback.contains ly = false ∧ s.earlierLate f i ly l r = false) →
      let u := s.at_ (r.go + dueOffset r ly d)
      (u.arrived f e x l ly d = true → exec (.dueCheck f i ly d fits) s = .next u)
      ∧ (u.arrived f e x l ly d = false → e.anchored = true → r.stalled < r.plan.stallMax →
        exec (.dueCheck f i ly d fits) s = .next
          (u.modRun f fun r => { r with stall := some (ly, i, d, u.clock.now) }))
      ∧ (u.arrived f e x l ly d = false → e.anchored = false → d ≠ .stream →
        exec (.dueCheck f i ly d fits) s = .next (u.sitOut f i ly (datumCause d))))
    ∧ (∀ r, k.run = some r → (k.ports.all r.portDone) = false →
      exec (.stepAbandon f) s = .next ((s.at_ (r.go + 4 * r.plan.period)).abandonStep f))
    ∧ (∀ r j d0 t0, s.run? f = some r → r.stall = some (ly, j, d0, t0) →
      exec (.anchorTimeout f) s = .next
        ((((s.at_ (t0 + (r.plan.stallMax - r.stalled))).countStall f j (r.plan.stallMax - r.stalled)).sitOut f j ly
          .anchorTimeout).deliverLayer f ly))
    ∧ ∀ t0 p ps n, k.delivered = some (t0, p :: ps) → k.next = some n →
      exec (.planAckTimeout f) s = .next ((s.at_ (t0 + 4 * n.period)).abandonStep f)

/-- SERVICE_PLAN_STEP, MOVE_START, MOVE_WRITE_DONE, MOVE_FREE and PARKED_DEMOTE (05 R128, 06 R147 to R159). The service plan's step
comes 2^15 cycles after its last: its upkeep is done, then, unless the device is truncated, its entries' work within the
grant. A queued move that may start and has its slots begins on a free drover of the census whose domain runs, and wakes the
domain where it does not. A pass whose pool traffic is over commits where it ended well; a tag that fails at its source
faults what the source holds, a write or a read-back that fails is tried elsewhere or abandons the move. A committed move
whose source no ox reads is freed. The sheaves, tails and record of a parked session in T1 are queued for T2, where its pen
has a T2 quota, 2^28 cycles after it parked. -/
def Obligations.MovesComplete : Prop :=
  ∀ (s : State) (mv drover : Nat) (m : Move) (h : Handle),
    (let due := s.clock.serviceStep + 2 ^ 15
      let u := ({ s.at_ due with clock := { (s.at_ due).clock with serviceStep := due } }).serviceUpkeep
      let entries := u.serviceEntries
      let fixed := Config.fixedPrice 0 (entries.filter fun e => match e with | .scan .. => true | _ => false).length
        (u.wakesFor (entries.flatMap serviceDomains).eraseDups)
      let g := u.grant serviceKey (2 ^ 15) 512 (fixed + (entries.map u.servicePrice).sum) fixed
      exec .servicePlanStep s = .next
        (if g.2.hearth.truncated then g.2.tryEndStalls else (g.2.serviceWork (g.1 - fixed)).tryEndStalls))
    ∧ ((s.moves.find? fun m => m.id == mv) = some m →
      (drover < 16 → m.state = .queued → s.recovery.drovers.contains drover = true → s.mayStart m = true →
        s.movePlanned m = true → (s.moves.any fun q => q.state == .copying && q.drover == some drover) = false →
        (s.hearth.truncated = false ∨ m.forPlan.isSome = true) →
        (s.domainRuns (13 + drover / 4) = true → exec (.moveStart mv drover) s = .next (s.startMove m drover))
        ∧ (s.domainRuns (13 + drover / 4) = false →
          exec (.moveStart mv drover) s = .next (s.askWake 3 (13 + drover / 4))))
      ∧ (m.state = .copying → s.poolQuiet m = true →
        let ends (t : State) : Out := .next ((t.demote (s.movePen m.subject)).tryEndStalls)
        exec (.moveWriteDone mv .ok) s = ends ((s.readSubject m).commitMove m)
        ∧ (∀ place, exec (.moveWriteDone mv (.sourceTagFail place)) s = ends (s.sourceFails m place))
        ∧ exec (.moveWriteDone mv .writeFail) s = ends (s.writeFails m)
        ∧ exec (.moveWriteDone mv .readBackFail) s
          = ends (((s.bumpPen (s.movePen m.subject) .tagFails 1).countTagFail m.dst).writeFails m))
      ∧ (m.state = .freeing → (m.src = .t1 → ((s.subjectSheaves m.subject).any s.oxReads) = false) →
        exec (.moveFree mv) s = .next (((s.freeSource m).wantAgain m).reap m.subject.owner)))
    ∧ ∀ x, s.sess? h = some x → x.state = .parked → x.tier = .t1 → 0 < s.quota (chargedPen (h, x)) .t2 →
      let u := s.at_ (x.parkedSince + 2 ^ 28)
      exec (.parkedDemote h) s = .next (u.queueChosen .t1
        (((u.sessionSubjects h x .t1).filter fun q => (u.openMove? q).isNone).map fun q => (q, Tier.t2)))

/-! ### Completion: Step Link messages -/

/-- PLAN_ACK, LEASE_ACK, RECLAIMED, RECLAIM_TIMEOUT and LANDED (10 R258, R261, R262), as the port's flock delivers them: the
acknowledgement of the plan delivered is taken off what is owed, that of a GRANT or of an EXTEND off its lease's, which is
NAMED again once the last EXTEND is acknowledged; a cancelled lease is reclaimed at the port; one that a port does not reclaim
in 2^20 cycles is stuck there and LEASE_STUCK is raised; LANDED raises the port's landed sequence, up to what it was sent,
and a stall that waited for it may end. -/
def Obligations.LeaseMessagesComplete : Prop :=
  ∀ (p : Nat) (m : SlMsg) (s : State) (f : Nat) (k : Flock) (l : Lease) (n : Plan) (t0 id : Nat) (ps : List Nat),
    (slTakes s p m 1 3 → (slTaken s p m 1 3).flockOf p = some (f, k) → k.delivered = some (t0, ps) → k.next = some n →
      n.step = msgStep m → exec (.planAck p m) s = .next
        ((slTaken s p m 1 3).modFlock f fun k => { k with delivered := some (t0, ps.filter (· != p)) }))
    ∧ (slTakes s p m 2 4 → (slTaken s p m 2 4).flockOf p = some (f, k) → (slTaken s p m 2 4).lease? f (msgField m 0 32) = some l →
      (msgField m 32 8 = 1 → exec (.leaseAck p m) s = .next
        ((slTaken s p m 2 4).modLease f l.id fun l => { l with acks := l.acks.filter (· != p) }))
      ∧ (msgField m 32 8 = 2 → exec (.leaseAck p m) s = .next
        ((slTaken s p m 2 4).modLease f l.id fun l => { l with
          extending := l.extending.filter (· != p)
          state := if l.state = .extending ∧ l.extending.filter (· != p) = [] then .named else l.state })))
    ∧ (slTakes s p m 2 5 → (slTaken s p m 2 5).flockOf p = some (f, k) → (slTaken s p m 2 5).lease? f (msgField m 0 32) = some l →
      l.state = .cancelled → exec (.reclaimed p m) s = .next ((slTaken s p m 2 5).reclaimLease f l.id p))
    ∧ (p < 8 → s.flockOf p = some (f, k) → s.lease? f id = some l → assocGet p l.reclaim = some t0 → l.stuck.contains p = false →
      exec (.reclaimTimeout p id) s = .next
        (((s.at_ (t0 + 2 ^ 20)).modLease f id fun l => { l with stuck := l.stuck ++ [p] }).raise 0 0x0504 id p))
    ∧ (slTakes s p m 3 2 → let v := (slTaken s p m 3 2).modStepPort p fun q =>
          { q with landedSeq := max q.landedSeq (min q.streamSeq (msgField m 0 32 + 1)) }
      exec (.landed p m) s = .next (match v.flockOf p with | some (g, _) => v.tryEndStall g | none => v))

/-- QUERY, APPEND_DATA, ROWS and STEP_DONE of the step in progress, and OX_PASS_DONE (07 R165 to R171, R196, R198, 10 R257, R265 to
R268), of an entry that has not sat out where the message keeps its bounds: a query's rows are kept with the entry, what
follows the last row of a layer is done, and what is complete is delivered; an append's records are kept; an entry's rows go
to the Weaver; a port's STEP_DONE is kept; with an append, rows or a STEP_DONE that completes what every port declares, rows
that are owed and have not come are missing. The next pass over a tile of an entry's layer, on an ox of the census whose
domain runs and whose loft holds the scores where it is to reuse them, with every sheaf in T1, is recorded; of an entry that
has sat out nothing follows; a scoring pass may make the choice, another deliver its rows, and a stall may end. -/
def Obligations.StepMessagesComplete : Prop :=
  ∀ (p : Nat) (m : SlMsg) (s : State) (f : Nat) (k : Flock) (r : StepRun) (l : Layout) (e : PlanEntry),
    let i := msgField m 0 12
    (slTakes s p m 4 1 → stepRuns (slTaken s p m 4 1) p m f k r → (slTaken s p m 4 1).layout? r.plan.layout = some l →
      r.plan.entries[i]? = some e → e.sitOut = none → queryBad r l m = false →
      let u := (slTaken s p m 4 1).modPlanEntry f i fun e =>
        { e with rows := e.rows ++ groupRows l p m, drafts := if e.kind = .decode then some (msgField m 77 4) else e.drafts }
      ∀ e1, u.planEntry? f i = some e1 → exec (.query p m) s = .next
        ((if e1.allRows l (msgField m 16 10) then u.layerQueried f i (msgField m 16 10) else u).deliver f i (msgField m 16 10)))
    ∧ (slTakes s p m 5 1 → stepRuns (slTaken s p m 5 1) p m f k r →
      (slTaken s p m 5 1).layout? r.plan.layout = some l →
      r.plan.entries[i]? = some e → e.sitOut = none → e.oneToken = false → appendBad r l m = false →
      exec (.appendData p m) s = .next ((((slTaken s p m 5 1).countMsg f p 1 0).modPlanEntry f i fun e =>
        { e with appends := e.appends ++ appendRecords l m }).portsDone f))
    ∧ (∀ x, slTakes s p m 6 1 → stepRuns (slTaken s p m 6 1) p m f k r →
      (slTaken s p m 6 1).layout? r.plan.layout = some l → 16 ≤ m.body.length →
      r.plan.entries[i]? = some e → e.sitOut = none → (slTaken s p m 6 1).sess? e.handle = some x →
      logitsBad l x e m = false →
      exec (.rows p m) s = .next
        ((((slTaken s p m 6 1).countMsg f p 0 1).weave f i k.ports r.plan.step l x e m).portsDone f))
    ∧ (slTakes s p m 8 1 → stepRuns (slTaken s p m 8 1) p m f k r →
      exec (.stepDone p m) s = .next (((slTaken s p m 8 1).modRun f fun r =>
        { r with stepDone := (r.stepDone.filter fun d => d.1 != p) ++ [(p, msgField m 0 32, msgField m 32 16)] }).portsDone f))
    ∧ ∀ ly tile j x t, f < 8 → s.run? f = some r → s.planEntry? f j = some e → s.sess? e.handle = some x →
      s.layout? r.plan.layout = some l → ly < l.layers → s.passTurn e x l ly tile = some t →
      (t.scoring = true ∨ e.reuses ly = false
        ∨ assocGet t.ox s.recovery.lofts = some (r.plan.step, j, ly) ∧ s.recovery.oxen.contains t.ox = true) →
      s.readyOxen.contains t.ox = true → (t.sheaves.any fun g => (s.inT1 g).isNone) = false →
      let u := s.recordPass f j ly tile t.chunk t.scoring t.ox r.plan.step (handlePen e.handle)
        (chunkRows (e.rowCount l) t.cut t.chunk).2 ((t.sheaves.map (·.count)).sum)
      exec (.oxPassDone f j ly tile none) s = .next
        (if e.sitOut.isSome then u
         else if t.scoring then (u.trySelect f j ly r x l).tryEndStall f
         else (u.deliver f j ly).tryEndStall f)

/-- STEP_LINK_HELLO, SLOT_TABLE, READY, RESYNC_DONE, RESYNC_TIMEOUT and STEP_LINK_ERROR (10 R248, R253, R254, R259, R268), as a Step
Link port delivers them. The first HELLO, of version 1, an accelerator's, with grants no lower than what the device sends into,
is seen: its grants are kept, and what waits is sent. After it the first slot table is kept, and the port's flock, where it
has one, may join. READY of a port that was sent JOIN makes it UP, or UP once its retrain ends, and its flock may resume and
deliver its plan. RESYNC_DONE takes the port off those that its flock waits for, which may then resume; a port that has not
answered RESYNC in 2^20 cycles takes a link reset. STEP_LINK_ERROR is counted and raised with what it carries. -/
def Obligations.BringUpMessagesComplete : Prop :=
  ∀ (p : Nat) (m : SlMsg) (grants : List Nat) (s : State) (f : Nat) (k : Flock) (t0 : Nat),
    (slTakes s p m 9 1 → let u := slTaken s p m 9 1
      (u.stepPort p).helloSeen = false → msgField m 40 8 = 1 → msgField m 48 1 = 1 →
      (∀ v < 4, (partnerGrants (.step p)).getD v 0 ≤ grants.getD v 0) → exec (.stepLinkHello p m grants) s = .next
        ((u.modStepPort p fun q => { q with
          helloSeen := true, refused := false, grants := grants, since := u.clock.now
          flits := { q.flits with totals := grants.map fun g => g % 65536 } }).pumpPort (.step p)))
    ∧ (slTakes s p m 9 2 → let u := slTaken s p m 9 2
      (u.stepPort p).helloSeen = true → (u.stepPort p).slots = none →
      let v := u.modStepPort p fun q => { q with
        slots := some (msgField m 0 32, msgField m 32 32, BitVec.ofNat 16 (msgField m 64 10), msgField m 80 4)
        since := u.clock.now }
      exec (.slotTable p m) s = .next (match v.flockOf p with | some (f, _) => v.tryJoin f | none => v))
    ∧ (slTakes s p m 9 4 → let u := slTaken s p m 9 4
      (u.stepPort p).joinSent = true →
      let v := u.modStepPort p fun q => { q with
        state := if q.state = .retrain then q.state else .up, saved := .up, joined := true, joinSent := false, resets := 0 }
      exec (.ready p m) s = .next (match v.flockOf p with | some (f, _) => (v.tryResume f).deliverPlan f | none => v))
    ∧ (slTakes s p m 9 6 → (slTaken s p m 9 6).flockOf p = some (f, k) → exec (.resyncDone p m) s = .next
      (((slTaken s p m 9 6).modFlock f fun k => { k with resync := k.resync.filter fun r => r.1 != p }).tryResume f))
    ∧ (p < 8 → s.flockOf p = some (f, k) → assocGet p k.resync = some t0 →
      exec (.resyncTimeout p) s = .next ((s.at_ (t0 + 2 ^ 20)).linkReset (.step p)))
    ∧ (slTakes s p m 9 7 → exec (.stepLinkError p m) s = .next
      (((slTaken s p m 9 7).bumpPort (.step p) .errorsReported).raise 0 0x0505 p (msgField m 0 64)))

/-! ### Completion: the links and the census -/

/-- FLIT, NAK and REPLAY_TIMER (10 R246 to R249, R255) of a port that carries flits; each flit is counted. A flit whose CRC fails is
counted, and asks for a replay unless one is asked for. A data flit or an idle flit whose credit report stands takes its
acknowledgement and its credit; the data flit next in order is accepted, one ahead of it asks for a replay, an old one is
dropped; what waits is sent. A NAK that is not of the replay running resends what follows what it acknowledges. A replay
buffer whose oldest flit is unacknowledged for 1,024 cycles is sent again. After a replay, the eighth without progress retrains
the port. -/
def Obligations.FlitsComplete : Prop :=
  ∀ (k : Link) (h : BitVec 64) (payload : List Byte) (s : State), linkExists k = true → s.linkUp k = true →
    let u := s.modPort k fun q => { q with ctrs := tallyAdd q.ctrs .flitsRx 1 64 }
    (payload.length = 244 →
      exec (.flit k false h payload) s = .next ((u.bumpPort k .crcErrors).nakOnce k)
      ∧ ∀ x, (u.port k).flits.control h = some x →
        let v := u.modPort k fun q => { q with flits := x }
        let d := (flitField h 8 16 + 65536 - x.expect) % 65536
        (flitField h 0 2 = 0 → flitField h 56 8 = 0 → exec (.flit k true h payload) s = .next (v.pumpPort k))
        ∧ (flitField h 0 2 = 1 → 1 ≤ flitField h 56 8 → flitField h 56 8 ≤ 244 →
          exec (.flit k true h payload) s = .next (if d = 0 then (v.modPort k fun q => q.accept h).pumpPort k
            else if 32768 ≤ d then v.pumpPort k else (v.nakOnce k).pumpPort k)))
    ∧ (flitField h 0 2 = 2 → flitField h 56 8 = 0 → ∀ x, (u.port k).flits.control h = some x →
      x.lastNak ≠ some (flitField h 24 16) → exec (.nak k h) s = .next
        ((((((u.modPort k fun q => { q with flits := x }).modPort k fun q =>
          { q with flits := { q.flits with lastNak := some (flitField h 24 16) } }).resend k).afterReplay k).pumpPort k)))
    ∧ ∀ r rs, (s.port k).flits.replay = r :: rs →
      exec (.replayTimer k) s = .next (((s.at_ (r.2 + 1024)).resend k).afterReplay k)

/-- RETRAIN_DONE, RETRAIN_TIMEOUT, TRAINING_DONE, TRAINING_TIMEOUT, BRINGUP_OVERRUN, PORT_RETRY and LOCK_OR_ALIGNMENT_LOST
(10 R244, R249 to R254, 11 R276, 13 R341). A retrain whose lanes give a width goes back to the state it left at the lower of
that width and its own, a narrower one being a census change, and sends again what is unacknowledged; a Commons port rejoins
the routes, and a Step Link port of no flock goes OFF. One that does not
end in 2^20 cycles fails. Training that finds a width makes the port LINKED at that width and in the census, a census change
where it comes back after a failure, and it says HELLO, or is OFF where it is a Step Link port of no flock; training that finds
none, or does not end in 2^23 cycles, is tried a second time, and then the port fails. A bring-up phase over its bound is a link
reset, and after three of them the port fails. A failed port trains again every 2^28 cycles. A port that carries flits and
loses lock or alignment retrains. -/
def Obligations.LinkTrainingCompletes : Prop :=
  ∀ (k : Link) (usable : BitVec 32) (s : State), linkExists k = true →
    ((s.port k).state = .retrain →
      (∀ w0, widthOf k usable = some w0 →
        let w := min w0 (s.port k).width
        let u := s.modPort k fun q => { q with state := q.saved, width := w, flits := { q.flits with stuck := 0 } }
        let v := (if w < (s.port k).width then (u.bumpPort k .degrades).censusChange false else u).sendAgain k
        (∀ p, k = .step p → exec (.retrainDone k usable) s = .next
          (if (v.flockOf p).isNone then v.modPort k fun q => { q with state := .off } else v))
        ∧ ∀ p, k = .commons p → exec (.retrainDone k usable) s = .next v.joinRoute)
      ∧ exec (.retrainTimeout k) s = .next ((s.at_ ((s.port k).since + 2 ^ 20)).portFails k))
    ∧ ((s.port k).state = .training →
      (widthOf k usable = none → exec (.trainingDone k usable) s = .next (s.trainingFailed k))
      ∧ (∀ w, widthOf k usable = some w →
        let u := s.modPort k fun q => { q with
          state := .linked, width := w, census := true, known := true, retried := false, since := s.clock.now, attempts := 0
          resets := 0, flits := {}, helloSeen := false, slots := none, joined := false, joinSent := false, streamSeq := 0
          landedSeq := 0, refused := false }
        let v := if (s.port k).census = false ∧ (s.port k).retried = true ∧ s.ident.devState ≠ .boot then u.censusChange false
          else u
        exec (.trainingDone k usable) s = .next
          (if v.idleStepPort k then v.modPort k fun q => { q with state := .off } else v.sendHello k))
      ∧ exec (.trainingTimeout k) s = .next ((s.at_ ((s.port k).since + 2 ^ 23)).trainingFailed k))
    ∧ (∀ b, bringupBound k (s.port k) = some b →
      ((s.port k).resets < 3 → exec (.bringupOverrun k) s = .next
        (((s.at_ ((s.port k).since + b)).linkReset k).modPort k fun q => { q with resets := (s.port k).resets + 1 }))
      ∧ (3 ≤ (s.port k).resets → exec (.bringupOverrun k) s = .next ((s.at_ ((s.port k).since + b)).portFails k)))
    ∧ ((s.port k).state = .failed → exec (.portRetry k) s = .next
      ((s.at_ ((s.port k).since + 2 ^ 28)).modPort k fun q => { q with
        state := .training, since := max s.clock.now ((s.port k).since + 2 ^ 28), attempts := 0, retried := true }))
    ∧ (s.linkUp k = true → exec (.lockOrAlignmentLost k) s = .next (s.retrain k))

/-- FLASH_CHANNEL_SILENT, HBM_STACK_FAIL and UNIT_RESET (13 R334 to R338). A silent channel of the census leaves it. A failed
stack of the census leaves it, a census change; moves into T1 under way are asked for again, and those of the sessions named
that have data in T1 lose it and fault with HOME_LOST. A unit of the census that resets counts a reset and its next
incarnation, and its work in flight ends as Table 13.2 says; it goes on where its self-test passes and this is not its third
reset in 2^26 cycles, and fails otherwise; a fault of what no unit reset clears triggers a warm reset. -/
def Obligations.CensusLossesComplete : Prop :=
  ∀ (n : Nat) (unit : ResetUnit) (ok : Bool) (s : State),
    (n < 128 → n ∈ s.recovery.channels → exec (.flashChannelSilent n) s = .next (s.channelLeaves n))
    ∧ (n < 12 → n ∈ s.recovery.hbmStacks → ∀ lost : List Handle,
      let inT1 (h : Handle) : Bool := match s.sess? h with
        | some x => x.tier == .t1 || x.map.any fun f => f.tier == .t1
        | none => false
      let u := { s with recovery := { s.recovery with hbmStacks := s.recovery.hbmStacks.filter (· != n) } }
      exec (.hbmStackFail n lost) s = .next ((lost.filter inT1).foldl
        (fun t h => t.faultSession h .homeLost fun f => f.tier == .t1) ((u.requeue fun m => m.dst == .t1).censusChange true)))
    ∧ (unitExists unit = true → s.ident.devState ≠ .boot → s.recovery.holds unit = true →
      (unit = .unresettable → exec (.unitReset unit ok) s = .next (s.triggerWarm 5))
      ∧ (unit ≠ .unresettable →
        let r := s.recovery.unit unit
        let resets := (r.resets.filter fun t => decide (s.clock.now ≤ t + 2 ^ 26)) ++ [s.clock.now]
        let u := ((({ s with recovery := { s.recovery with
            units := assocSet unit { incarnation := r.incarnation + 1, resets := resets } s.recovery.units } }).bumpDev .unitResets
          1).unitWork unit)
        exec (.unitReset unit ok) s = .next (if ok = true ∧ resets.length < 3 then u else u.unitFails unit)))

/-! ### Completion: the Commons -/

/-- COMMONS_HELLO, WRITE, READ, ATOMIC, COPY, COMMONS_RESPONSE, REQUEST_RETRANSMIT and ROUTE_WAIT_EXPIRY (11 R276, R281, R283 to R289),
ATTEND_REQ (07 R186 to R188) and SEARCH_REQ (11 R303). A memory request is taken as its source's PSEQ puts it: the next one in
order is applied, and what was held behind it follows; one applied before is answered again. A response answers the request
that it names, where its source is that request's destination. A request without response is sent again 2^14 cycles after it was
sent, eight times, and then fails; one answered BUSY is sent again after its hint; one that has waited 2^20 cycles for a route
fails, and where there is still none is counted and raised. A HELLO of version 1, of a role that Table 11.2 has and of no node
number of this device, makes a port UP and joins the routes. Attention and search that a granted pen asks for wait for the
service plan, and attention has what lies in flash promoted. -/
def Obligations.PacketsComplete : Prop :=
  (∀ (p : Pkt) (dataOk : Bool) (port : Nat) (m : SlMsg) (id : Nat) (s : State) (r : Request),
    let u := pktTaken s p
    (pktTakes s p 1 → exec (.write p) s = .next (u.memoryArrives p.header p.body true))
    ∧ (pktTakes s p 2 → exec (.read p dataOk) s = .next (u.memoryArrives p.header p.body dataOk))
    ∧ (pktTakes s p 3 → exec (.atomic p) s = .next (u.memoryArrives p.header p.body true))
    ∧ (pktTakes s p 4 → exec (.copy p dataOk) s = .next (u.memoryArrives p.header p.body dataOk))
    ∧ (let i := u.inStream (hdrField p.header 32 13)
      (hdrField p.header 64 48 = i.applied + 1 → ∀ moves v, u.applyMemory p.header p.body dataOk = (moves, v) →
        u.memoryArrives p.header p.body dataOk
          = if moves then v.drainHeld (hdrField p.header 32 13) (i.heldReqs.length + 1) else v)
      ∧ (hdrField p.header 64 48 ≤ i.applied →
        u.memoryArrives p.header p.body dataOk = u.answerAgain p.header p.body dataOk))
    ∧ (pktTakes s p 0x80 → 32 ≤ p.body.length → u.request? (hdrField p.header 384 64) = some r →
      r.dest.toNat = hdrField p.header 32 13 →
      let v := bytesToNat (p.body.take 32)
      exec (.commonsResponse p) s = .next
        (((u.answered r (bitsOf v 0 8) (bitsOf v 16 16) (bitsOf v 128 64) (p.body.drop 32)).learn
          (hdrField p.header 32 13) (hdrField p.header 128 32))))
    ∧ (port < 18 → (s.port (.commons port)).carries = true → msgCls m = 9 → msgOp m = 1 → m.vc = 0 → msgLen m = 16 →
      m.body.length = 16 → bitsOf m.header.toNat 16 16 = 0 → bitOf (bytesToNat m.body) 50 = false →
      (s.port (.commons port)).helloSeen = false → msgField m 40 8 = 1 →
      (msgField m 48 2 = 2 ∨ msgField m 48 2 < 2 ∧ msgField m 51 13 ≠ s.node
        ∧ (s.harvest.aliases.any fun a => a.1.toNat == msgField m 51 13) = false) →
      exec (.commonsHello port m) s = .next
        (((s.modPort (.commons port) fun q => { q with
          helloSeen := true, refused := false, state := if q.state = .retrain then q.state else .up
          saved := if q.state = .retrain then .up else q.saved, since := s.clock.now
          peer := if msgField m 48 2 = 2 then none else some (BitVec.ofNat 13 (msgField m 51 13)) }).pumpPort
          (.commons port)).joinRoute))
    ∧ (s.request? id = some r →
      (r.waiting = none →
        (r.busyUntil = none → r.retries < 8 → exec (.requestRetransmit id) s = .next
          (((s.at_ (r.sent + 2 ^ 14)).modRequest id fun q => { q with retries := q.retries + 1 }).resendRequest r))
        ∧ (r.busyUntil = none → 8 ≤ r.retries →
          exec (.requestRetransmit id) s = .next ((s.at_ (r.sent + 2 ^ 14)).failRequest r))
        ∧ ∀ t, r.busyUntil = some t → exec (.requestRetransmit id) s = .next
          (((s.at_ t).modRequest id fun q => { q with busyUntil := none }).resendRequest { r with busyUntil := none }))
      ∧ ∀ t0, r.waiting = some t0 →
        let v := s.at_ (t0 + 2 ^ 20)
        exec (.routeWaitExpiry id) s = .next ((if (v.nextRoute r.dest.toNat).isSome then v
          else (v.bumpDev .unreachable 1).raise 0 0x0604 r.dest.toNat 0).failRequest r)))
  ∧ ∀ (p : Pkt) (failed : Option Nat) (s : State) (g : MapRec),
    let u := pktTaken s p
    let h := p.header
    (serviceTakes s p 0x10 → hdrField h 8 1 = 0 → u.grantOf h = some g → g.bit 5 = true → attendBad p.body = false →
      (∀ o ∈ attendOrdinals p.body, (u.heldSheaf (hdrField h 32 13) (hdrField h 48 10)
        (BitVec.ofNat 64 (bitsOf (bytesToNat (p.body.take 64)) 64 64)) (bitsOf (bytesToNat (p.body.take 64)) 128 10) o).isSome
          = true) →
      exec (.attendReq p failed) s = .next
        (({ u with commons := { u.commons with attends := u.commons.attends ++ [(h, p.body, failed)] } }).promoteAttend h p.body))
    ∧ (serviceTakes s p 0x11 → hdrField h 8 1 = 0 → u.grantOf h = some g → g.bit 6 = true →
      let d : Desc := BitVec.ofNat 512 (bytesToNat (p.body.take 64))
      ∀ x, u.index? g.localPen (operand d 0 4) = some x → p.body.length = 64 + 2 * indexDim x.params →
        badAmong (searchChecks false d) = none →
        let q := searchOf d none (some h) x.commitSeq x.generation (p.body.drop 64) u.clock.now
        q.k ≠ 0 → q.stripLimit ≠ 0 → exec (.searchReq p) s = .next
          (u.modIndex g.localPen (operand d 0 4) fun y => { y with
            searches := y.searches ++ [{ q with stepsLeft := searchSteps u.recovery.gleaners.length y g.localPen (operand d 0 4) q }] }))

/-- REG_READ, REG_OFFER, REG_COMMIT, REG_WITHDRAW, REG_LIFE, REG_RETIRE, REG_REGROW and REG_MIRROR (11 R290 to R297, 12 R312). Of a
handle that this device answers for: a read is answered with the entry; a change not taken before is taken into the registry's
order; each waits while the device asks its partner who answers for the slice. REGROW begins to regrow each session that it
names and the device does not hold, and is answered OK. An entry that the named partner mirrors is stored and acknowledged,
unless the device stands in for it. -/
def Obligations.RegistryPacketsComplete : Prop :=
  ∀ (p : Pkt) (s : State),
    let u := pktTaken s p
    let h : Handle := BitVec.ofNat 64 (bytesAt p.body 0 8)
    ((u.partner.deposed && handleNode h == u.node) = false → u.isSelf (handleNode h) = true →
      (serviceTakes s p 0x20 → p.body.length = 8 → exec (.regRead p) s = .next
        (if u.partner.asking then u.holdReg h 0x20 p else u.answerRead h p.header))
      ∧ ((u.commons.regPending.any fun r => r.origin == .remote p.header) = false →
        let taken (op : Nat) : Out := .next
          (if u.partner.asking then u.holdReg h op p else u.submitReg h op p.body (.remote p.header))
        (serviceTakes s p 0x21 → p.body.length = 18 → exec (.regOffer p) s = taken 0x21)
        ∧ (serviceTakes s p 0x22 → p.body.length = 16 → exec (.regCommit p) s = taken 0x22)
        ∧ (serviceTakes s p 0x23 → p.body.length = 16 → exec (.regWithdraw p) s = taken 0x23)
        ∧ (serviceTakes s p 0x24 → p.body.length = 17 → exec (.regLife p) s = taken 0x24)
        ∧ (serviceTakes s p 0x25 → p.body.length = 16 → exec (.regRetire p) s = taken 0x25)))
    ∧ (∀ n, serviceTakes s p 0x26 → p.body.length = 8 * n → exec (.regRegrow p) s = .next
      ((((List.range n).map fun i => (BitVec.ofNat 64 (bytesAt p.body (8 * i) 8) : Handle)).foldl
        (fun t h => t.regrowHome h) u).respond p.header rsOk 0 0 []))
    ∧ (serviceTakes s p 0x28 → u.namedPartner = some (hdrField p.header 32 13) → p.body.length = 32 →
      u.partner.standIn = false → exec (.regMirror p) s = .next
        ((u.storeMirror (hdrField p.header 32 13) (parseRegEntry p.body)).respond p.header rsOk 0 0 []))

/-- HANDOFF_ASK, HOME_CHANGED, RESTARTED, RECORDS, FETCH_RECORDS, DROP, OFFER_EXPIRY and HANDOFF_CHECK (11 R289 to R297, 12 R312 to
R317, R330). HANDOFF_ASK of a session that this device does not hold, and has not reserved for, reserves what it asks for and
answers with it; of one that it holds it is answered CONFLICT. HOME_CHANGED of a newer home ends the session's hand-over; of a
session not held here it changes nothing and is answered. RESTARTED of the partner gives its slices back. A RECORDS batch of the
named partner that is next in order is applied, and those held behind it follow; one applied before is acknowledged again. FETCH
answers each handle's groups above its step, and its latest header; DROP forgets the handles it lists, or everything. 2^26 cycles
after it was applied an offer is cleared. 2^20 cycles after the last of a session's data was written with no outcome, its source
reads the registry's entry. -/
def Obligations.PartnerPacketsComplete : Prop :=
  ∀ (p : Pkt) (h : Handle) (s : State),
    let u := pktTaken s p
    let src := hdrField p.header 32 13
    let g : Handle := BitVec.ofNat 64 (bytesAt p.body 8 8)
    (serviceTakes s p 0x27 → 16 ≤ p.body.length →
      (bytesAt p.body 0 8 = nHandoffAsk → (u.sess? g).isSome = true →
        exec (.handoffAsk p) s = .next (u.respond p.header rsConflict 0 0 []))
      ∧ (∀ v i, bytesAt p.body 0 8 = nHandoffAsk → u.sess? g = none →
        (u.commons.incoming.find? fun i => i.handle == g && i.source.toNat == src && i.bytes == bytesAt p.body 16 8) = none →
        u.reserveIncoming src g (bytesAt p.body 16 8) = .ok (v, i) →
        exec (.handoffAsk p) s = .next (v.answerAsk p.header i))
      ∧ (bytesAt p.body 0 8 = nHomeChanged → u.sess? g = none →
        exec (.homeChanged p) s = .next (u.respond p.header rsOk 0 0 []))
      ∧ (∀ x hd, bytesAt p.body 0 8 = nHomeChanged → u.sess? g = some x → x.homeVersion < bytesAt p.body 16 8 →
        x.handover = some hd → exec (.homeChanged p) s = .next
          ((u.homeLeft g hd.dest.toNat (bytesAt p.body 16 8)).respond p.header rsOk 0 0 []))
      ∧ (bytesAt p.body 0 8 = nRestarted → u.partner.node.map (·.toNat) = some src →
        (u.commons.requests.any fun r => match r.use with | .giveBack _ => true | _ => false) = false →
        exec (.restarted p) s = .next (u.giveBack src p.header)))
    ∧ (serviceTakes s p 0x30 → u.namedPartner = some src → 16 ≤ p.body.length →
      (bytesAt p.body 0 1 % 16 = 1 → bytesAt p.body 8 8 ≤ u.partner.applied →
        exec (.records p) s = .next (u.respond p.header rsOk 0 u.partner.applied []))
      ∧ (bytesAt p.body 0 1 % 16 = 1 → bytesAt p.body 8 8 = u.partner.applied + 1 →
        exec (.records p) s = .next
          (State.drainBatches (u.partner.heldBatches.length + 1) (u.applyBatch p.header p.body)))
      ∧ (bytesAt p.body 0 1 % 16 = 2 → p.body.length = 16 + 16 * bytesAt p.body 2 2 →
        exec (.fetchRecords p) s = .next (u.respond p.header rsOk 0 0
          ((List.range (bytesAt p.body 2 2)).flatMap fun i =>
            let a : Handle := BitVec.ofNat 64 (bytesAt p.body (16 + 16 * i) 8)
            let held := (assocGet a u.partner.mirror).getD ((assocGet a u.partner.flashMirror).getD [])
            (sortBy (fun x y => decide (x.1 ≤ y.1))
              (held.filter fun x => x.1 == 0 || decide (bytesAt p.body (24 + 16 * i) 8 < x.1))).flatMap fun x =>
                natToBytes 8 a.toNat ++ x.2)))
      ∧ (bytesAt p.body 0 1 % 16 = 3 → p.body.length = 16 + 8 * bytesAt p.body 2 2 →
        exec (.drop p) s = .next ((u.dropMirror (bytesAt p.body 2 2 == 0)
          ((List.range (bytesAt p.body 2 2)).map fun i => BitVec.ofNat 64 (bytesAt p.body (16 + 8 * i) 8))).respond p.header rsOk
            0 0 [])))
    ∧ (∀ e, s.entry? h = some e → e.handle = h → e.offerValid = true → exec (.offerExpiry h) s = .next
      (((s.at_ (e.offerAt + 2 ^ 26)).modEntry h fun e => { e with offerNode := 0, offerValid := false, moving := false }).mirrorEntry
        h))
    ∧ ∀ x hd, s.sess? h = some x → x.handover = some hd → hd.final = true → hd.committed = false →
      (s.commons.requests.any fun r => r.use == .registry h) = false → exec (.handoffCheck h) s = .next
        ((s.at_ (hd.lastWrite + 2 ^ 20)).regCall h 0x20 (natToBytes 8 h.toNat) (.registry h))

/-! ### Completion: resets, power and supplies -/

/-- WARM_RESET, WARM_RESET_REJOIN, REEVE_WATCHDOG, WARM_RESET_TIMEOUT and WARM_RST_L (13 R347 to R350, 18 R440). A triggered warm
reset aborts what is owed a completion, ends a checkpoint or restore, quiesces, drops a live update and resets the main side;
HBM that does not leave self-refresh makes it a power cycle of cause 8. Its rejoin ends it, and the ladder's pending action with
it. The watchdog of the Reeve, with no Reeve hart halted, and a low WARM_RST_L of a microsecond on a device that has served,
trigger one, of causes 3 and 2; one that does not end in 2^27 cycles becomes a power cycle of cause 6. A trigger is ignored in BOOT and
while a warm reset stands; the third within 2^31 cycles is a power cycle of cause 7; any other begins a warm reset, of rung 3 and its
cause. -/
def Obligations.WarmResetsComplete : Prop :=
  (∀ (s : State) (n : Nat),
    (∀ t0, s.recovery.warm = some (t0, 0) →
      let u := (({ s with ident := { s.ident with devState := .warmReset } }).abortAll.endHarvest.quiesce.cutUpdate).resetMain
      exec (.warmReset true) s = .next { u with recovery := { u.recovery with warm := some (t0, 1) } }
      ∧ exec (.warmReset false) s = .next (u.powerCycle 8))
    ∧ (∀ t0, s.recovery.warm = some (t0, 1) → ∀ units rings handles,
      ∃ t, exec (.warmResetRejoin units rings handles) s = .next t ∧ t.recovery.warm = none
      ∧ t.ladder.busy = false ∧ t.ladder.waiting = none)
    ∧ (s.watchmanRuns = true → (s.debugPort.harts.any fun h => h.1 < 16 && h.2.halted) = false → s.recovery.warm = none →
      s.ident.devState ≠ .boot → exec .reeveWatchdog s = .next
        ((s.at_ (max s.ident.reeveHeartbeatChanged s.watchman.watchFrom + 2 ^ 22)).triggerWarm 3))
    ∧ (∀ t0 ph, s.recovery.warm = some (t0, ph) → s.watchmanRuns = true → exec .warmResetTimeout s = .next
      ((s.at_ (max t0 s.watchman.watchFrom + 2 ^ 27)).powerCycle 6))
    ∧ (1000 ≤ n → s.aoRuns = true → s.board.served = true → s.board.pwrCycleLow = false →
      exec (.warmRstL n) s = .next (s.triggerWarm 2)))
  ∧ ∀ (s : State) (cause : Nat),
    (s.recovery.warm ≠ none ∨ s.ident.devState = .boot → s.triggerWarm cause = s)
    ∧ (s.recovery.warm = none → s.ident.devState ≠ .boot →
      let recent := s.recovery.warmHistory.filter fun t => decide (s.clock.now < t + 2 ^ 31)
      (2 ≤ recent.length → s.triggerWarm cause = s.powerCycle 7)
      ∧ (recent.length < 2 → (s.triggerWarm cause).recovery.warm = some (s.clock.now, 0)
        ∧ (s.triggerWarm cause).recovery.lastRung = 3 ∧ (s.triggerWarm cause).recovery.lastCause = cause))

/-- PWR_CYCLE_RELEASE, POWER_CYCLE_TIMEOUT, PORST_L_ASSERT, PORST_L_RELEASE, BOOT_SERVING, RAIL_FAULT, RAIL_RESTORED, REFCLK_AO_LOSS,
REFCLK_AO_RETURN (13 R350, 18 R439 to R443) and HEARTH_TICK (15 R374, R380 to R385). PWR_CYCLE_L, not held until RELEASE, rises 2^26
cycles after it fell, and the boot begins; a boot that does not serve in 2^32 cycles is a power cycle, of the cause last noted, and
the third such holds the device down, HALTED. An assertion of PORST_L of 10 µs or more resets the device, its release takes
NODE_SEL and the straps and releases it; a rail out of order, a rail in fault (of those the board feeds), and the loss of the
always-on clock reset the device as it does, and their return releases it. A boot ends with the image that the boot ROM finds, or
HALTED without one. A Hearth tick, every 1,024 cycles, takes the metered energy and the samples, and shuts a device that is too
hot down. -/
def Obligations.PowerAndSuppliesComplete : Prop :=
  (∀ (s : State) (n : Nat) (sel : BitVec 13) (b c : Bool) (w : SlotBoot),
    (s.board.pwrCycleLow = true → (s.board.hold = 0 ∨ s.board.hold = 3) → exec .pwrCycleRelease s = .next
      ((s.at_ (s.board.pwrCycleSince + 2 ^ 26)).riseAgain))
    ∧ (∀ t0, s.board.powerOn = some t0 → s.watchmanRuns = true →
      let u := s.at_ (max t0 s.watchman.watchFrom + 2 ^ 32)
      let n := s.board.powerTries + 1
      let held := u.driveLow.powerLoss
      let cycled := u.powerCycle s.recovery.lastCause
      exec .powerCycleTimeout s = .next (if 3 ≤ n then { held with
          board := { held.board with powerTries := n, hold := 2 }, ident := { held.ident with devState := .halted } }
        else { cycled with board := { cycled.board with powerTries := n } }))
    ∧ (10000 ≤ n → s.board.porst = false → exec (.porstLAssert n) s = .next
      { ({ s with free := s.free + 1 } : State).porstReset with
        board := { (({ s with free := s.free + 1 } : State).porstReset).board with porst := true } })
    ∧ (s.board.porst = true → exec (.porstLRelease sel b c w) s = .next
      (({ s with board := { s.board with porst := false, strap := sel, bscanStrap := !b, watchmanBoot := w }
                 security := { s.security with certValid := c } }).released))
    ∧ (∀ i blown lost channels hbm, s.board.booting = true → s.aoRuns = true → s.board.pwrCycleLow = false →
      s.security.bootSlot s.security.reeveSlots w = some i →
      exec (.bootServing channels hbm lost w blown) s = .next (s.boot channels hbm lost i blown))
    ∧ ∀ blown lost channels hbm, s.board.booting = true → s.aoRuns = true → s.board.pwrCycleLow = false →
      s.security.bootSlot s.security.reeveSlots w = none → exec (.bootServing channels hbm lost w blown) s = .next
        { s with board := { s.board with booting := false, noReeve := true }, ident := { s.ident with devState := .halted } })
  ∧ ∀ (s : State) (rail energy : Nat) (samples : List (Option Int)),
    (1 ≤ rail → rail ≤ 11 → exec (.railFault rail true) s = .next
        { s.porstReset with board := { s.porstReset.board with railOrder := true } }
      ∧ (s.board.porst = false → (s.board.pwrCycleLow = false ∨ rail < 3) → exec (.railFault rail false) s = .next
        { s.porstReset with board := { s.porstReset.board with railFault := true } }))
    ∧ (s.board.railFault = true ∨ s.board.railOrder = true → exec .railRestored s = .next
      (({ s with board := { s.board with railFault := false, railOrder := false } }).released))
    ∧ (s.board.refclkLost = false → exec .refclkAoLoss s = .next
      { s.porstReset with board := { s.porstReset.board with refclkLost := true } })
    ∧ (s.board.refclkLost = true → exec .refclkAoReturn s = .next
      (({ s with board := { s.board with refclkLost := false } }).released))
    ∧ (let u := s.at_ (s.clock.hearthTick + 1024)
      let v := { u with clock := { u.clock with hearthTick := s.clock.hearthTick + 1024 }
                        hearth := { u.hearth.refill energy with lastEnergy := energy } }
      let w := (v.sampleSensors samples).setDerate.thermalTick
      exec (.hearthTick samples energy) s = .next
        (if w.hearth.shutdown && !w.board.pwrCycleLow then w.thermalShutdown else w))

/-- WAKE_ISSUE, DOMAIN_SLEEP, DOMAIN_OFF_TIMER and DOMAIN_WOKEN (15 R370 to R372), HEARTBEAT_WINDOW and REEVE_HEARTBEAT_TICK (00 R451,
04 R93, 03 Table 3.2). The ladder's first waiting change is issued: a wake of a domain ends 1,000 cycles later out of OFF and 50
out of SLEEP, a domain that may still rest goes to its state (a Commons port's port is then OFF), and the ladder waits its spacing. A domain whose time of rest has come
enters the ladder. A woken domain is in RUN, idle from that cycle. Every 2^18 cycles each pen's heartbeat window ends; every 2^16
REEVE_HEARTBEAT is due, and rises by 1 where the Reeve's firmware runs. -/
def Obligations.DomainsAndHeartbeatsComplete : Prop :=
  ∀ (s : State) (d : Nat),
    (∀ a x y rest, s.hearth.changes = (a, x, y) :: rest →
      let u := { s with clock := { s.clock with now := max s.clock.now s.hearth.nextIssue }
                        hearth := { s.hearth with changes := rest } }
      exec .wakeIssue s = .next (u.issueChange x y)
      ∧ (y ≠ .run → u.mayRest x y = false → u.issueChange x y = u)
      ∧ (y ≠ .run → u.mayRest x y = true → u.issueChange x y
        = { (u.setDomain x { state := y, idleSince := u.idleFrom x }).portRests x y with
            hearth := { ((u.setDomain x { state := y, idleSince := u.idleFrom x }).portRests x y).hearth with
              nextIssue := u.clock.now + if y = .off then 250 else 25 } })
      ∧ (y = .run →
        let off := (u.domain x).state == .off
        let v := u.setDomain x { u.domain x with wakeDue := some (u.clock.now + if off then 1000 else 50) }
        u.issueChange x y = { v with hearth := { v.hearth with nextIssue := u.clock.now + if off then 250 else 25 } }))
    ∧ (d < 106 → exec (.domainSleep d) s = .next (s.restDomain d .sleep)
      ∧ exec (.domainOffTimer d) s = .next (s.restDomain d .off)
      ∧ ∀ t0, (s.domain d).wakeDue = some t0 → exec (.domainWoken d) s = .next
        ((s.at_ t0).setDomain d { state := .run, idleSince := max s.clock.now t0 }))
    ∧ exec .heartbeatWindow s = .next { s with
        clock := { s.clock with
          now := max s.clock.now (s.clock.heartbeatWindow + 2 ^ 18), heartbeatWindow := s.clock.heartbeatWindow + 2 ^ 18 }
        pens := s.pens.map fun q => (q.1, q.2.heartbeatWindow s.clock.heartbeatWindow) }
    ∧ (let now := max s.clock.now (s.clock.reeveHeartbeat + 2 ^ 16)
      let u := { s with clock := { s.clock with now := now, reeveHeartbeat := s.clock.reeveHeartbeat + 2 ^ 16 } }
      exec .reeveHeartbeatTick s = .next (if s.firmwareRuns then { u with ident := { s.ident with
        reeveHeartbeat := s.ident.reeveHeartbeat + 1, reeveHeartbeatChanged := now } } else u))

/-! ### Completion: the side band, SPDM and the debug port -/

/-- STATUS_READ, EVENT_SUBSCRIBE, EVENT_RECORD, EVENT_RECORD_TIMEOUT, WATCHMAN_STATUS, SB_BAD_REQUEST and WATCHMAN_WATCHDOG (17
R418 to R421, R424, Table 17.3). The identity and status block is read where the range lies in it. EVENT_SUBSCRIBE 0x00 ends the
subscription; another endpoint becomes the subscriber, and is served the first ring whose attention waits where no record is out. Its
response consumes the record, and the next one goes out; without a response in 2^20 cycles the record is sent again, four times
in all, and then the subscription ends. WATCHMAN_STATUS answers what Table 17.3 lists, in recovery mode as well; a request that
is not well formed is answered BAD_REQUEST; the watchdog resets the Watchman 2^20 cycles after it was serviced. -/
def Obligations.SideBandCompletes : Prop :=
  ∀ (s : State) (offset count : Nat) (eid command : BitVec 8) (ops : List Byte),
    (sbAnswers s false →
      (1 ≤ count → count ≤ 1024 → offset + count ≤ 0x800 → exec (.statusRead offset count) s = .next
        (s.emit (.sideBand (sbBody 2 0 (((fitTo 2048 s.statusBlock).drop offset).take count)))))
      ∧ (exec (.eventSubscribe 0) s = .next
        { s.emit (.sideBand (sbBody 4 0 [])) with watchman := { s.watchman with subscriber := none, record := none } })
      ∧ (eid ≠ 0 →
        let u := { s.emit (.sideBand (sbBody 4 0 [])) with watchman := { s.watchman with subscriber := some eid } }
        (s.watchman.attention = [] ∨ s.watchman.record.isSome = true → exec (.eventSubscribe eid) s = .next u)
        ∧ ∀ r rest, s.watchman.attention = r :: rest → s.watchman.record = none → exec (.eventSubscribe eid) s = .next
          (({ u with watchman := { u.watchman with attention := rest } }).watchmanTakes r))
      ∧ (∀ r t0 n, s.watchman.record = some (r, t0, n) → ((s.crierOf 0).ring r).head ≠ ((s.crierOf 0).ring r).written →
        exec .eventRecord s = .next ((({ s with watchman := { s.watchman with record := none } }).writeConsumer 0 r
          (BitVec.ofNat 64 (add32 ((s.crierOf 0).ring r).head 1))).serveRing r))
      ∧ exec (.sbBadRequest command ops) s = .next (s.emit (.sideBand (sbBody command.toNat 3 []))))
    ∧ (∀ r t0 n, s.sbListens = true → s.watchman.record = some (r, t0, n) →
      (n < 3 → exec .eventRecordTimeout s = .next ((s.at_ (t0 + 2 ^ 20)).sendRecord r (n + 1)))
      ∧ (3 ≤ n → exec .eventRecordTimeout s = .next
        { s.at_ (t0 + 2 ^ 20) with watchman := { s.watchman with record := none, subscriber := none } }))
    ∧ (sbAnswers s true → exec .watchmanStatus s = .next (s.emit (.sideBand (sbBody 6 0 (packBytes 9
      [(24, s.watchmanVersion), (16, s.watchman.resetCount), (8, bitNat s.watchman.recovery),
        (8, if s.board.pwrCycleLow then s.board.hold else 0), (3, s.recovery.lastRung), (5, s.recovery.lastCause), (8, 0)])))))
    ∧ (s.sbListens = true → exec .watchmanWatchdog s = .next ((s.at_ (s.watchman.serviced + 2 ^ 20)).watchmanResets))

/-- The MCTP control commands and the bus addresses (17 R416, R417; the codes are the family's, log entry 31), where the side band
answers, to this endpoint: SET_ENDPOINT_ID of an id that is neither null nor broadcast stores it; the id, the UUID, the versions
of a type that is supported, the message types and the vendor id of selector 0 are answered; another selector and a command that
Table 17.2 does not list have their error answered. ENTDAA and SETDASA store the bus address, RSTDAA forgets it. A message that
the Watchman cannot take changes nothing. -/
def Obligations.MctpCompletes : Prop :=
  ∀ (s : State) (dest eid ty sel command : BitVec 8) (a : BitVec 7) (n : Nat) (r : Bool),
    (sbAnswers s true → s.forMe dest = true →
      (eid ≠ 0 → eid ≠ 0xFF → exec (.setEndpointId dest eid) s = .next
        (({ s with watchman := { s.watchman with eid := some eid } }).mctpReply 1 0 [0, eid, 0]))
      ∧ exec (.getEndpointId dest) s = .next (s.mctpReply 2 0 [s.watchman.eid.getD 0, 0, 0])
      ∧ exec (.getEndpointUuid dest) s = .next (s.mctpReply 3 0 (natToBytes 16 Config.endpointUuid.toNat))
      ∧ (ty = 0xFF ∨ ty ∈ mctpTypes → exec (.getMctpVersionSupport dest ty) s = .next
        (s.mctpReply 4 0 (Config.mctpVersions ty.toNat)))
      ∧ exec (.getMessageTypeSupport dest) s = .next (s.mctpReply 5 0 (natToBytes 1 mctpTypes.length ++ mctpTypes))
      ∧ exec (.getVendorMessageSupport dest 0) s = .next (s.mctpReply 6 0 [0xFF, 0, 0x10, 0xEB])
      ∧ (sel ≠ 0 → exec (.getVendorMessageSupport dest sel) s = .next (s.mctpReply 6 2 []))
      ∧ (command = 0 ∨ 6 < command.toNat → exec (.unsupportedMctpCmd dest command) s = .next (s.mctpReply command.toNat 5 [])))
    ∧ (s.sbListens = true → exec (.entdaa a) s = .next (s.busAddress (some a)))
    ∧ (sbAnswers s true → exec (.setdasa a) s = .next (s.busAddress (some a)) ∧ exec .rstdaa s = .next (s.busAddress none))
    ∧ exec (.mctpMessageDiscard dest n r) s = .next s

/-- PLDM base and platform commands (17 R422; the codes are the family's, log entry 31), where the Watchman answers: the terminus id,
the versions and commands of a supported type, the types, the repository, a record, the numeric sensors of Table 17.4 with their
readings and its state sensors with their states; a type, a record or a sensor that the device does not have is answered with its
error, as is a command that R422 does not list. -/
def Obligations.PldmQueriesComplete : Prop :=
  ∀ (s : State) (ty command : BitVec 8) (rec_ : BitVec 32) (sensor : BitVec 16), sbAnswers s false →
    exec .gettid s = .next (s.pldmReply 0 0x02 0 [Config.pldmTid])
    ∧ exec (.getpldmversion ty) s = .next (if pldmTypes.contains ty.toNat then
        s.pldmReply 0 0x03 0 (packBytes 5 [(32, 0), (8, 5)] ++ Config.pldmVersions ty.toNat) else s.pldmReply 0 0x03 0x83 [])
    ∧ exec .getpldmtypes s = .next (s.pldmReply 0 0x04 0 (natToBytes 8 ((pldmTypes.map fun t => 2 ^ t).sum)))
    ∧ exec (.getpldmcommands ty) s = .next (if pldmTypes.contains ty.toNat then
        s.pldmReply 0 0x05 0 (natToBytes 32 (pldmCommands ty.toNat)) else s.pldmReply 0 0x05 0x83 [])
    ∧ exec .getpdrrepositoryinfo s = .next (s.pldmReply 2 0x50 0 (0 :: Config.pdrInfo s.ident.pc s.censusUnits))
    ∧ exec (.getpdr rec_) s = .next (match Config.pdr s.ident.pc s.censusUnits rec_.toNat with
        | some d => s.pldmReply 2 0x51 0 d | none => s.pldmReply 2 0x51 0x82 [])
    ∧ exec (.getsensorreading sensor) s = .next (
        if 1 ≤ sensor.toNat ∧ sensor.toNat ≤ 0x50 then s.thermalReply (sensor.toNat - 1)
        else if sensor = 0x60 then s.countReply (s.hearth.lastEnergy * 25 / 1024)
        else if sensor = 0x61 then s.countReply s.hearth.store
        else if sensor = 0x62 then s.countReply (s.hearth.derate * 65536 / 320)
        else if sensor = 0x63 then s.countReply s.hearth.owed
        else if 0x110 ≤ sensor.toNat ∧ sensor.toNat ≤ 0x117 then s.countReply (s.censusCount (sensor.toNat - 0x110))
        else s.pldmReply 2 0x11 0x80 [])
    ∧ (∀ v, s.stateSensor sensor.toNat = some v → exec (.getstatesensorreadings sensor) s = .next
        (({ s with free := s.free + 1 }).pldmReply 2 0x21 0
          (packBytes 5 [(8, 1), (8, 0), (8, v), (16, (Config.sensorHistory s.free).toNat)])))
    ∧ (s.stateSensor sensor.toNat = none → exec (.getstatesensorreadings sensor) s = .next (s.pldmReply 2 0x21 0x80 []))
    ∧ (pldmListed ty.toNat command.toNat = false →
        exec (.unsupportedPldmCmd ty command) s = .next (s.pldmReply ty.toNat command.toNat 5 []))

/-- PLDM firmware update (17 R423, R424, 18 R442; the codes are the family's, log entry 31). An update of a component that may be
updated begins while no other runs, no live update and no staging by a mailbox, and its first block is asked for. A block is
taken behind what has come; the next is asked for, or, with the last, the image is verified. A staged image whose security
number the rollback fuses allow is activated, and where the Reeve's slots both failed a Reeve image boots. Cancelled, or without a
transfer for 2^28 cycles, the update is dropped. -/
def Obligations.PldmUpdateCompletes : Prop :=
  ∀ (s : State) (component : BitVec 16) (size : Nat) (block : List Byte) (u : Update) (i : Image),
    (sbAnswers s (component.toNat == 2) → s.watchman.update = none → s.ident.liveUpdate = none → s.stagingByMailbox = false →
      (component = 1 ∨ component = 2) → s.updatable component.toNat = true →
      exec (.requestupdate component size) s = .next
        ((({ s with watchman := { s.watchman with
          update := some { component := component.toNat, size := size, last := s.clock.now } } }).pldmReply 5 0x10 0
          (packBytes 3 [])).askBlock 0))
    ∧ (s.watchman.update = some u →
      (s.updatable u.component = true → u.received.length < u.size → u.staged = false → sbAnswers s (u.component == 2) →
        let got := (u.received ++ fitTo 1024 block).take u.size
        let v := { s with watchman := { s.watchman with update := some { u with received := got, last := s.clock.now } } }
        exec (.requestfirmwaredata block true) s = .next
          (if u.size ≤ got.length then v.verifyUpdate { u with received := got, last := s.clock.now }
           else v.askBlock got.length))
      ∧ (sbAnswers s true → s.updatable u.component = true → u.staged = true → s.security.staged = some i →
        s.security.rollback ≤ i.svn →
        let v := { s with watchman := { s.watchman with update := none } }
        exec .activatefirmware s = .next
          ((if s.board.noReeve && !i.watchman then v.bootImage i else v.activate i).pldmReply 5 0x1A 0 (natToBytes 2 0)))
      ∧ (sbAnswers s true → exec .cancelupdate s = .next ((s.dropUpdate u).pldmReply 5 0x1D 0 (packBytes 9 [])))
      ∧ exec .pldmUpdateIdle s = .next ((s.at_ (u.last + 2 ^ 28)).dropUpdate u))

/-- The SPDM handshake and measurements (16 R392, R393, R405 to R407), on a transport that hears them: GET_VERSION begins a connection;
capabilities follow the version, algorithms that agree follow them; then, with a certificate that checks, digests, a part of the
certificate inside it, CHALLENGE and the measurement blocks are answered; what needs a fresh random value waits where the entropy
source has failed. A request that is not supported is answered so. -/
def Obligations.SpdmRequestsComplete : Prop :=
  ∀ (s : State) (tr : Transport) (off len : BitVec 16) (nonce : BitVec 256) (index code : BitVec 8),
    s.spdmHears tr = true →
    exec (.getVersion tr) s = .next
      ((s.setConn tr { version := true }).spdmReply tr 0x04 (packBytes 4 [(8, 0), (8, 1), (16, 0x1300)]))
    ∧ ((s.spdmConn tr).version = true → exec (.getCapabilities tr) s = .next
      ((s.setConn tr { s.spdmConn tr with capabilities := true }).spdmReply tr 0x61 (natToBytes 4 spdmFlags)))
    ∧ ((s.spdmConn tr).capabilities = true → exec (.negotiateAlgorithms tr true) s = .next
      ((s.setConn tr { s.spdmConn tr with algorithms := true }).spdmReply tr 0x63 []))
    ∧ ((s.spdmConn tr).algorithms = true → s.security.certValid = true →
      let part := (Config.certificate.drop off.toNat).take len.toNat
      let blocks := if index = 0xFF then (List.range 8).flatMap fun i => s.measurement (i + 1) else s.measurement index.toNat
      exec (.getDigests tr) s = .next (s.spdmReply tr 0x01 (natToBytes 1 1 ++ sha256 Config.certificate))
      ∧ (off.toNat < Config.certificate.length → exec (.getCertificate tr 0 off len) s = .next (s.spdmReply tr 0x02
          (natToBytes 2 part.length ++ natToBytes 2 (Config.certificate.length - off.toNat - part.length) ++ part)))
      ∧ (s.security.entropyOk = true → exec (.challenge tr 0 nonce) s = .next (s.answerChallenge tr nonce))
      ∧ (s.security.entropyOk = false → exec (.challenge tr 0 nonce) s = .next (s.holdFresh (.challenge tr nonce)))
      ∧ (∀ signed, exec (.getMeasurements tr 0 signed nonce) s = .next (s.spdmReply tr 0x60 (natToBytes 1 8)))
      ∧ (1 ≤ index.toNat → index.toNat ≤ 8 ∨ index = 0xFF →
        exec (.getMeasurements tr index false nonce) s = .next (s.spdmReply tr 0x60 blocks)
        ∧ (s.security.entropyOk = true →
          exec (.getMeasurements tr index true nonce) s = .next (s.answerMeasurements tr index nonce))
        ∧ (s.security.entropyOk = false →
          exec (.getMeasurements tr index true nonce) s = .next (s.holdFresh (.measurements tr index nonce)))))
    ∧ exec (.unsupportedRequest tr code) s = .next (s.spdmError tr errUnsupported)

/-- The SPDM session on the host port (16 R401, R405, R406, R408): with none open, algorithms agreed, a certificate that checks and
entropy, KEY_EXCHANGE is answered; FINISH that verifies opens the session. In it END_SESSION closes it, HEARTBEAT and KEY_UPDATE
are answered, each counting as its latest message; an operator key is enrolled or removed on a request of the admin context that
R401 accepts. Without a message for 100,000,000 cycles it closes. A message whose tag fails is counted as a host error, and the eighth in
succession closes the session. -/
def Obligations.SpdmSessionCompletes : Prop :=
  ∀ (s : State) (q : Req) (slot : Nat) (enrol : Bool) (key sig : BitVec 512) (signer : Option Nat),
    (s.spdmHears .hostPort = true →
      (s.security.session = false → (s.spdmConn .hostPort).algorithms = true → s.security.certValid = true →
        s.security.entropyOk = true → exec (.keyExchange .hostPort) s = .next s.answerKeyExchange)
      ∧ (s.security.handshaking = true → exec (.finish .hostPort true) s = .next s.openSpdm)
      ∧ (s.security.session = true →
        exec (.endSession .hostPort) s = .next ((s.sessionMessage.spdmReply .hostPort 0x6C []).closeSpdm)
        ∧ exec (.heartbeat .hostPort) s = .next (s.sessionMessage.spdmReply .hostPort 0x68 [])
        ∧ exec (.keyUpdate .hostPort) s = .next (s.sessionMessage.spdmReply .hostPort 0x69 [])
        ∧ (q.secured = true → q.ctx = 0x400 → s.sessionMessage.operatorOk slot enrol key signer sig = true →
          exec (.operatorKey q slot enrol key signer sig) s = .next
            (({ s.sessionMessage with security := { s.sessionMessage.security with
              operatorKeys := if enrol then assocSet slot key s.security.operatorKeys
                else assocDel slot s.security.operatorKeys } }).spdmReply .hostPort 0x7E []))))
    ∧ (s.security.session = true →
      exec .spdmHeartbeatTimeout s = .next ((s.at_ (s.security.lastMessage + 100000000)).closeSpdm)
      ∧ (let x := Config.unreadHeader s.free
        let u := ({ s with free := s.free + 1 } : State).hostError .accessDenied x.1 x.2
        let v := { u with security := { u.security with tagFails := u.security.tagFails + 1 } }
        exec .securedMessageTagFail s = .next (if 8 ≤ u.security.tagFails + 1 then v.closeSpdm else v)))

/-- The debug port (17 R425 to R428, 16 R409 to R413) and DRBG_RESEED (16 R393). IDCODE reads 0xB41605D7, BYPASS one bit,
Test-Logic-Reset selects IDCODE, SAMPLE/PRELOAD captures the cells. While the always-on domain runs: in boundary-scan mode EXTEST, CLAMP and
HIGHZ act; a nonce, of a source that has not failed, is fresh and outstanding; a token consumes it, and is accepted where every
field checks, refused where not, and locked out after eight refusals; the status is read, and BSCAN_REFUSED with it; DBG_RELOCK
at level 1 returns to level 0 and closes the session, and else selects its register; DTMCS reads its status, cleared on request.
A DMI access fails at level 0; at another, with the debug domain in RUN, it reads or writes the debug module, and shifts the last
one's result out. A reseed that succeeds lets what waited for it run; one that fails holds what comes. -/
def Obligations.DebugPortCompletes : Prop :=
  ∀ (s : State) (token : BitVec 896) (bit : Bool) (v data : BitVec 32) (addr : BitVec 7) (op : BitVec 2),
    exec .idcode s = .next (s.shiftOut 0x01 32 0xB41605D7)
    ∧ exec .bypass s = .next (s.shiftOut 0x1F 1 0)
    ∧ exec .testLogicReset s = .next { s with debugPort := { s.debugPort with tap := 0x01 } }
    ∧ (let x := Config.bscanCapture s.free % 2 ^ Config.bscanWidth
      exec .samplePreload s = .next
        ((({ s with free := s.free + 1 }).modDebug fun d => { d with bscan := x }).shiftOut 0x02 Config.bscanWidth x))
    ∧ (s.aoRuns = true →
      (s.debugPort.bscanMode = true →
        exec .extest s = .next (s.shiftOut 0x00 Config.bscanWidth s.debugPort.bscan)
        ∧ exec .clamp s = .next (s.shiftOut 0x03 1 0) ∧ exec .highz s = .next (s.shiftOut 0x04 1 0))
      ∧ (s.security.entropyOk = true → exec .dbgNonce s = .next
        ((({ s with free := s.free + 1 }).modDebug fun d => { d with nonce := some ((Config.random s.free).setWidth 256) }).shiftOut
          0x08 256 ((Config.random s.free).setWidth 256).toNat))
      ∧ (let u := s.modDebug fun d => { d with nonce := none, tap := 0x09 }
        (8 ≤ s.debugPort.refusals → exec (.dbgToken token) s = .next (u.modDebug fun d => { d with tokenResult := 3 }))
        ∧ (s.debugPort.refusals < 8 → exec (.dbgToken token) s = .next
          (if s.tokenOk token then u.acceptToken (tokenField token 32 2) else u.refuseToken)))
      ∧ exec .dbgStatus s = .next
        ((s.shiftOut 0x0A 64 s.debugPort.status).modDebug fun d => { d with bscanRefused := false })
      ∧ (s.debugPort.level = 1 → exec (.dbgRelock true) s = .next
        { s with debugPort := { s.debugPort with tap := 0x0B, level := 0, sessionOpen := false } })
      ∧ (s.debugPort.level ≠ 1 ∨ bit = false → exec (.dbgRelock bit) s = .next
        { s with debugPort := { s.debugPort with tap := 0x0B } })
      ∧ exec (.dtmcs v) s = .next
        ((s.shiftOut 0x10 32 (packNat [(4, 1), (6, 7), (2, s.debugPort.dmiStatus), (20, 0)])).modDebug fun d =>
          if bitOf v.toNat 16 || bitOf v.toNat 17 then { d with dmiStatus := 0 } else d)
      ∧ (let u := s.shiftOut 0x11 41 (packNat [(2, s.debugPort.dmiStatus), (32, s.debugPort.dmi.toNat), (7, addr.toNat)])
        (s.debugPort.level = 0 → exec (.dmi addr data op) s = .next
          (u.modDebug fun d => { d with dmiStatus := 2, dmi := 0 }))
        ∧ (s.debugPort.level ≠ 0 → s.domainRuns 105 = true →
          (op = 1 → exec (.dmi addr data op) s = .next (u.modDebug fun d =>
            { d.afterRead addr.toNat with dmi := BitVec.ofNat 32 (d.read addr.toNat), dmiStatus := 0 }))
          ∧ (op = 2 → addr ≠ 0x10 → exec (.dmi addr data op) s = .next (u.modDebug fun d =>
            { d.write addr.toNat data.toNat with dmiStatus := 0, dmi := data }))
          ∧ (op = 2 → addr = 0x10 → exec (.dmi addr data op) s = .next ((u.writeDmcontrol data.toNat).modDebug fun d =>
            { d with dmiStatus := 0, dmi := data })))))
    ∧ exec (.drbgReseed false) s = .next { s with security := { s.security with entropyOk := false } }
    ∧ exec (.drbgReseed true) s = .next (s.security.heldFresh.foldl (fun t o => t.runFresh o)
      { s with security := { s.security with entropyOk := true, heldFresh := [] } })

/-! ### What commands leave alone -/

/-- The commands of the side band that only ask, of SPDM and of the debug port leave every tenant's and the fabric's state as
it was. -/
def Obligations.ManagementFrame : Prop :=
  ∀ (c : Instr) (s t : State),
    (match c with
     | .statusRead .. | .watchmanStatus | .sbBadRequest .. | .setEndpointId .. | .getEndpointId _ | .getEndpointUuid _
     | .getMctpVersionSupport .. | .getMessageTypeSupport _ | .getVendorMessageSupport .. | .unsupportedMctpCmd ..
     | .mctpMessageDiscard .. | .entdaa _ | .setdasa _ | .rstdaa | .gettid | .getpldmversion _ | .getpldmtypes
     | .getpldmcommands _ | .getpdrrepositoryinfo | .getpdr _ | .getsensorreading _ | .getstatesensorreadings _
     | .unsupportedPldmCmd .. | .getVersion _ | .getCapabilities _ | .negotiateAlgorithms .. | .getDigests _
     | .getCertificate .. | .challenge .. | .getMeasurements .. | .keyExchange _ | .finish .. | .endSession _
     | .heartbeat _ | .keyUpdate _ | .spdmHeartbeatTimeout | .operatorKey .. | .unsupportedRequest .. | .idcode | .extest
     | .samplePreload | .clamp | .highz | .dbgNonce | .dbgStatus | .dbgRelock _ | .dtmcs _ | .bypass
     | .testLogicReset => True
     | _ => False) →
    exec c s = .next t →
    t.pens = s.pens ∧ t.sessions = s.sessions ∧ t.slice = s.slice ∧ t.layouts = s.layouts ∧ t.flocks = s.flocks
      ∧ t.moves = s.moves ∧ t.stepPorts = s.stepPorts ∧ t.commons = s.commons ∧ t.partner = s.partner ∧ t.flash = s.flash
      ∧ t.harvest = s.harvest ∧ t.recovery = s.recovery ∧ t.hearth = s.hearth ∧ t.board = s.board ∧ t.ident = s.ident
      ∧ t.ladder = s.ladder ∧ t.adminMb = s.adminMb ∧ t.sbMb = s.sbMb ∧ t.dispatched = s.dispatched
      ∧ t.crierArea = s.crierArea

/-- Accesses of the control node to mailboxes, doorbells and the Crier leave sessions, registry, layouts, flocks, moves, links,
partnership, units and power as they were. -/
def Obligations.HostPortFrame : Prop :=
  ∀ (c : Instr) (s t : State),
    (match c with
     | .hostAccessError .. | .healthRead _ | .hostErrorsClear .. | .doorbell .. | .mailboxOverrun .. | .mbSubmit ..
     | .eventMaskWrite .. | .attnPendingWrite .. | .attnMaskWrite .. | .evBaseWrite .. | .evCtrlWrite ..
     | .moderationWrite .. | .consumerWrite .. | .moderationTimer .. | .mailboxTimeout _ | .mbLate _ => True
     | _ => False) →
    exec c s = .next t →
    t.sessions = s.sessions ∧ t.slice = s.slice ∧ t.layouts = s.layouts ∧ t.flocks = s.flocks ∧ t.moves = s.moves
      ∧ t.stepPorts = s.stepPorts ∧ t.commons = s.commons ∧ t.partner = s.partner ∧ t.flash = s.flash
      ∧ t.harvest = s.harvest ∧ t.recovery = s.recovery ∧ t.hearth = s.hearth ∧ t.board = s.board
      ∧ t.debugPort = s.debugPort ∧ t.ladder = s.ladder ∧ t.dispatched = s.dispatched ∧ t.penGens = s.penGens
      ∧ t.pens.map (fun q => (q.1, q.2.cfg, q.2.constraints, q.2.indexes, q.2.heartbeat, q.2.reinit))
        = s.pens.map (fun q => (q.1, q.2.cfg, q.2.constraints, q.2.indexes, q.2.heartbeat, q.2.reinit))

/-- The mailbox commands over pens, rings, layouts and constraint sets leave sessions, flocks, moves, links, partnership and
units as they were; those of LAYOUT_LOAD and LAYOUT_UNLOAD also every pen's rings, and the others every layout. -/
def Obligations.ConfigurationFrame : Prop :=
  ∀ (c : Instr) (s t : State),
    (match c with
     | .nirvexCaps _ | .penCreate _ | .penDestroy _ | .penConfig _ | .ringCreate _ | .ringConfig _ | .layoutLoad _
     | .layoutUnload _ | .constraintLoad .. | .constraintUnload _ => True
     | _ => False) →
    exec c s = .next t →
    t.sessions = s.sessions ∧ t.slice = s.slice ∧ t.flocks = s.flocks ∧ t.moves = s.moves ∧ t.stepPorts = s.stepPorts
      ∧ t.commons = s.commons ∧ t.partner = s.partner ∧ t.harvest = s.harvest ∧ t.hearth = s.hearth ∧ t.board = s.board
      ∧ t.debugPort = s.debugPort ∧ t.dispatched = s.dispatched
      ∧ ((∀ mb, c ≠ .layoutLoad mb ∧ c ≠ .layoutUnload mb) → t.layouts = s.layouts)
      ∧ ((∃ mb, c = .layoutLoad mb ∨ c = .layoutUnload mb) →
        t.pens.map (fun q => (q.1, q.2.cfg, q.2.rings)) = s.pens.map (fun q => (q.1, q.2.cfg, q.2.rings)))

/-- The commands over vector indexes leave sessions, registry, flocks, moves, layouts, links, partnership, units and power as
they were, and every pen's configuration, constraint sets, heartbeat and reinit. -/
def Obligations.IndexFrame : Prop :=
  ∀ (c : Instr) (s t : State),
    (match c with
     | .indexInsert .. | .indexDelete .. | .indexCommit .. | .search .. | .indexCreate _ | .indexDestroy _
     | .compactionTimer .. => True
     | _ => False) →
    exec c s = .next t →
    t.sessions = s.sessions ∧ t.slice = s.slice ∧ t.layouts = s.layouts ∧ t.flocks = s.flocks ∧ t.moves = s.moves
      ∧ t.stepPorts = s.stepPorts ∧ t.commons = s.commons ∧ t.partner = s.partner ∧ t.harvest = s.harvest
      ∧ t.recovery = s.recovery ∧ t.hearth = s.hearth ∧ t.board = s.board ∧ t.ident = s.ident ∧ t.ladder = s.ladder
      ∧ t.pens.map (fun q => (q.1, q.2.cfg, q.2.constraints, q.2.heartbeat, q.2.reinit))
        = s.pens.map (fun q => (q.1, q.2.cfg, q.2.constraints, q.2.heartbeat, q.2.reinit))
end

