-- ==== Sys2Proof/Laws/Carriers.lean ====
section
/-!
SUPPORT. One law per carrier: what it answers once a command's conditions hold. The meanings of the commands go through
these, so that proofs cite them instead of unfolding the carrier.
-/
set_option Elab.async false
namespace Sys2Proof.Laws
open Sys2Proof.Machine Sys2Proof.Safety

/-- What a mailbox command's own part answers becomes the outcome. -/
def mbAnswer (mb : Mb) (c : MbCmd) : MbDone → Out
  | .now s r => .next (s.mbFinish ⟨mb, c⟩ r)
  | .later s => .next s.reeveNext

/-- What a ring command's own part answers becomes the outcome. -/
def ringAnswer (c : RingCmd) : RingDone → Out
  | .now s r => .next (s.complete c r)
  | .later s => .next s

theorem mbRun_begins {s : State} {mb : Mb} {op : Nat} {c : MbCmd} (h : reeveBegins s mb op c)
    (body : State → MbCmd → MbDone) : mbRun s mb op body = mbAnswer mb c (body (s.mbTake mb c) c) := by
  obtain ⟨h1, h2, h3⟩ := h
  simp only [mbRun, h1, h2, h3, Bool.not_true, Bool.false_eq_true, if_false]
  cases body (s.mbTake mb c) c <;> rfl

theorem ringRun_begins {s : State} {pen ring op : Nat} {c : RingCmd} (h : unitBegins s pen ring op c)
    (body : State → RingCmd → RingDone) : ringRun s pen ring op body = ringAnswer c (body (s.ringTake c) c) := by
  obtain ⟨h1, h2, h3⟩ := h
  have h4 : (decide (op ≤ 0x0102) && !s.reeveFree c.serial) = false := by
    by_cases h : op ≤ 0x0102
    · simp [h2 h]
    · simp [h]
  simp only [ringRun, h1, h3, h4, Bool.false_eq_true, if_false]
  cases body (s.ringTake c) c <;> rfl

theorem ringRunHome_begins {s : State} {pen ring op : Nat} {c : RingCmd} (h : unitBegins s pen ring op c)
    (n : notOffered s c) (body : State → RingCmd → RingDone) :
    ringRunHome s pen ring op body = ringAnswer c (body (s.ringTake c) c) := by
  rw [ringRunHome, ringRun_begins h]
  congr 1
  have e : (s.ringTake c).sess? (descHandle c.desc) = s.sess? (descHandle c.desc) := rfl
  rw [e]
  cases hd : (s.sess? (descHandle c.desc)).bind (·.handover) with
  | none => rfl
  | some x => simp [n x hd]

theorem hostWrite_takes {s : State} {q : Req} {pl : HostPlace} {off width : Nat} (h : hostTakes s q pl off width)
    (effect : State → State) : hostWrite s q pl off width effect = .next (effect (hostTaken s q off)) := by
  simp only [hostWrite, h.1, h.2, hostTaken, Bool.not_true, Bool.false_eq_true, if_false]

theorem slReceive_takes {s : State} {p cls op : Nat} {m : SlMsg} (h : slTakes s p m cls op) (body : State → Out) :
    slReceive s p m cls op body = body (slTaken s p m cls op) := by
  obtain ⟨h1, h2, h3, h4, h5, h6, h7, h8⟩ := h
  have a : ¬8 ≤ p := by omega
  have b : ¬(msgCls m ≠ cls ∨ msgOp m ≠ op) := by simp [h3, h4]
  have c : (upstreamVc cls op != some m.vc || msgLen m != m.body.length || decide (0x04000040 < msgLen m)
      || !shortLenOk cls op m.body.length) = false := by
    have : ¬0x04000040 < msgLen m := by omega
    rw [h6] at this
    simp [h5, h6, h8, this]
  simp only [slReceive, slTaken, if_neg a, h2, if_neg b, c, Bool.not_true, Bool.false_eq_true, if_false]

theorem stepMessage_runs {s : State} {p f : Nat} {m : SlMsg} {k : Flock} {r : StepRun} (h : stepRuns s p m f k r)
    (body : State → Nat → Flock → StepRun → State) : stepMessage s p m body = .next (body s f k r) := by
  obtain ⟨h1, h2, h3, h4⟩ := h
  simp only [stepMessage, h1, h2, h3, h4, and_self, if_true]

theorem pktReceive_takes {s : State} {p : Pkt} {op : Nat} (h : pktTakes s p op) (body : State → Out) :
    pktReceive s p (pktOp p == op) body = body (pktTaken s p) := by
  obtain ⟨h1, h2, h3, h4, h5, h6, h7, h8, h9, h10, h11, h12⟩ := h
  have a : ¬18 ≤ p.port := by omega
  have b : (hdrField p.header 192 32 != p.body.length || decide (8392704 < p.body.length)
      || !opKnown (hdrField p.header 0 8) || p.vc != opVc (hdrField p.header 0 8)) = false := by
    have e : hdrField p.header 0 8 = op := h5
    have : ¬8392704 < p.body.length := by omega
    simp [h3, e, h6, h7, this]
  have e0 : (if pktRsvd p = true then s.bumpPort (.commons p.port) .rsvdNonzero else s) = pktCounted s p := rfl
  have e : hdrField p.header 0 8 = op := h5
  have f : (!(pktCounted s p).isOwn (hdrField p.header 16 13) || (pktCounted s p).isOwn (hdrField p.header 32 13)) = false := by
    simp [h8, h9]
  have g : (op != 0x80 && (if hdrField p.header 160 32 = 0 then decide (1 < hdrField p.header 64 48)
      else hdrField p.header 160 32 != (pktCounted s p).commons.incarnation.toNat)) = false := by
    rcases h12 with h | h
    · simp [h]
    · split at h
      · rename_i z; simp [z]; omega
      · rename_i z; rw [if_neg z, h]; simp
  have i : ¬hdrField p.header 128 32 < ((pktCounted s p).inStream (hdrField p.header 32 13)).incarnation.toNat := by omega
  have j : ((s.port (.commons p.port)).state != .up) = false := by rw [h2]; rfl
  have k : (pktOp p == op) = true := by rw [h5]; exact beq_self_eq_true op
  rw [e] at b
  simp only [pktReceive, if_neg a, e, j, b, k, e0, f, h10, if_neg i, g, Bool.false_eq_true, if_false, Bool.not_true]
  rfl

theorem serviceReceive_takes {s : State} {p : Pkt} {op : Nat} (h : serviceTakes s p op) (body : State → Out) :
    serviceReceive s p (pktOp p == op) body = body (pktTaken s p) := by
  rw [serviceReceive, pktReceive_takes h.1]
  simp only [h.2.2, Bool.false_eq_true, if_false]

theorem sbWhen_answers {s : State} {inRecovery : Bool} (h : sbAnswers s inRecovery) (t : State) :
    sbWhen s inRecovery t = .next t := by
  obtain ⟨h1, h2⟩ := h
  have : (s.sbListens && (inRecovery || !s.watchman.recovery)) = true := by
    rcases h2 with h | h <;> simp [h1, h]
  simp only [sbWhen, this, if_true]

theorem badAmong_cons_false (k : Nat) (l : List (Nat × Bool)) : badAmong ((k, false) :: l) = badAmong l := rfl

theorem foldl_keeps_some {α β : Type} (f : Option β → α → Option β) (hf : ∀ m x, m.isSome = true → (f m x).isSome = true)
    (l : List α) (m : Option β) (hm : m.isSome = true) : (l.foldl f m).isSome = true := by
  induction l generalizing m with
  | nil => exact hm
  | cons a l ih => exact ih _ (hf m a hm)

/-- Nothing is reported exactly where no check offends. -/
theorem badAmong_none_iff (l : List (Nat × Bool)) : badAmong l = none ↔ ∀ x ∈ l, x.2 = false := by
  induction l with
  | nil => simp [badAmong]
  | cons a l ih =>
    obtain ⟨k, b⟩ := a
    cases b with
    | false => rw [badAmong_cons_false, ih]; simp
    | true =>
      constructor
      · intro h
        have : (badAmong ((k, true) :: l)).isSome = true := by
          refine foldl_keeps_some _ (fun m x hm => ?_) l _ rfl
          split
          · rfl
          · exact hm
        rw [h] at this
        exact absurd this (by simp)
      · intro h
        have := h (k, true) (by simp)
        simp at this

theorem unlessBad_passes {s : State} {l others : List (Nat × Bool)} (h : ∀ x ∈ l, x.2 = false)
    (h' : ∀ x ∈ others, x.2 = false) (body : MbDone) : unlessBad s l body others = body := by
  simp only [unlessBad, badFirst, (badAmong_none_iff l).2 h, (badAmong_none_iff others).2 h']

theorem withPen_some {s : State} {mb : Mb} {d : Desc} {off : Nat} {q : Pen} (h : s.pen? (mbTarget mb d off) = some q)
    (body : Nat → Pen → MbDone) : withPen s mb d off body = body (mbTarget mb d off) q := by
  simp only [withPen, penOr, h]

@[simp] theorem mbTake_clock (s : State) (mb : Mb) (c : MbCmd) : (s.mbTake mb c).clock = s.clock := by cases mb <;> rfl
@[simp] theorem mbTake_hearth (s : State) (mb : Mb) (c : MbCmd) : (s.mbTake mb c).hearth = s.hearth := by cases mb <;> rfl
@[simp] theorem mbTake_harvest (s : State) (mb : Mb) (c : MbCmd) : (s.mbTake mb c).harvest = s.harvest := by cases mb <;> rfl

end Sys2Proof.Laws
end

