-- ==== Sys2Proof/Laws/Maps.lean ====
section
/-!
SUPPORT. Laws of the association lists, tallies and sparse memories: read after write, and what a write leaves alone.
-/
set_option Elab.async false
namespace Sys2Proof.Laws
open Sys2Proof.Machine

variable {κ α : Type} [DecidableEq κ]

@[simp] theorem assocGet_set (k : κ) (v : α) (l : List (κ × α)) : assocGet k (assocSet k v l) = some v := by
  induction l with
  | nil => simp [assocSet, assocGet]
  | cons a l ih => obtain ⟨j, w⟩ := a; simp only [assocSet]; split <;> simp_all [assocGet]

theorem assocGet_set_ne {j k : κ} (h : j ≠ k) (v : α) (l : List (κ × α)) : assocGet j (assocSet k v l) = assocGet j l := by
  induction l with
  | nil => simp [assocSet, assocGet, Ne.symm h]
  | cons a l ih =>
    obtain ⟨i, w⟩ := a
    simp only [assocSet]
    split
    · rename_i e; subst e; simp [assocGet, Ne.symm h]
    · simp [assocGet, ih]

@[simp] theorem assocGet_mod (k : κ) (f : α → α) (l : List (κ × α)) : assocGet k (assocMod k f l) = (assocGet k l).map f := by
  induction l with
  | nil => rfl
  | cons a l ih => obtain ⟨j, w⟩ := a; simp only [assocMod, assocGet]; split <;> simp_all [assocGet]

theorem assocGet_mod_ne {j k : κ} (h : j ≠ k) (f : α → α) (l : List (κ × α)) : assocGet j (assocMod k f l) = assocGet j l := by
  induction l with
  | nil => rfl
  | cons a l ih => obtain ⟨i, w⟩ := a; simp only [assocMod, assocGet]; split <;> split <;> simp_all [assocGet]

@[simp] theorem assocGet_del (k : κ) (l : List (κ × α)) : assocGet k (assocDel k l) = none := by
  induction l with
  | nil => rfl
  | cons a l ih => obtain ⟨j, w⟩ := a; simp only [assocDel]; split <;> simp_all [assocGet]

theorem assocGet_del_ne {j k : κ} (h : j ≠ k) (l : List (κ × α)) : assocGet j (assocDel k l) = assocGet j l := by
  induction l with
  | nil => rfl
  | cons a l ih =>
    obtain ⟨i, w⟩ := a
    simp only [assocDel]
    split
    · rename_i e; subst e; simp [assocGet, Ne.symm h, ih]
    · simp [assocGet, ih]

@[simp] theorem assocMod_keys (k : κ) (f : α → α) (l : List (κ × α)) : (assocMod k f l).map Prod.fst = l.map Prod.fst := by
  induction l with
  | nil => rfl
  | cons a l ih => obtain ⟨j, w⟩ := a; simp only [assocMod]; split <;> simp [ih]

theorem assocMod_same {k : κ} {f : α → α} {l : List (κ × α)} (h : ∀ v, assocGet k l = some v → f v = v) :
    assocMod k f l = l := by
  induction l with
  | nil => rfl
  | cons a l ih =>
    obtain ⟨j, w⟩ := a
    simp only [assocMod, assocGet] at *
    split
    · rename_i e; simp [e] at h; simp [h]
    · rename_i e; simp [e] at h; simp [ih h]

@[simp] theorem tallyGet_add (m : List (κ × Nat)) (k : κ) (n w : Nat) :
    tallyGet (tallyAdd m k n w) k = min (2 ^ w - 1) (tallyGet m k + n) := by
  simp [tallyGet, tallyAdd]

theorem tallyGet_add_ne {j k : κ} (h : j ≠ k) (m : List (κ × Nat)) (n w : Nat) :
    tallyGet (tallyAdd m k n w) j = tallyGet m j := by
  simp [tallyGet, tallyAdd, assocGet_set_ne h]

end Sys2Proof.Laws
end

