-- ==== Sys2Proof/Laws/Frames.lean ====
section
/-!
SUPPORT. What the shared operations leave alone, said once: raising an event changes the Crier, what is sent, and what the
Watchman attends to, and nothing else.
-/
set_option Elab.async false
namespace Sys2Proof.Laws
open Sys2Proof.Machine

/-- `t` differs from `s` in nothing but the pens' Crier blocks, the Crier's area of Reeve SRAM, what is sent or held back,
the cycles of hardware updates, and the Watchman's attentions and outstanding record. -/
structure CrierOnly (s t : State) : Prop where
  rest : t = { s with
    pens := t.pens, out := t.out, crierArea := t.crierArea, hwAt := t.hwAt
    watchman := { s.watchman with record := t.watchman.record, attention := t.watchman.attention }
    security := { s.security with held := t.security.held } }
  pens : t.pens.map (fun q => (q.1, { q.2 with crier := {} })) = s.pens.map fun q => (q.1, { q.2 with crier := {} })

theorem CrierOnly.refl (s : State) : CrierOnly s s := ⟨rfl, rfl⟩

theorem CrierOnly.trans {s t u : State} (a : CrierOnly s t) (b : CrierOnly t u) : CrierOnly s u := by
  refine ⟨?_, b.pens.trans a.pens⟩
  rw [b.rest, a.rest]

theorem assocMod_map {κ α β : Type} [DecidableEq κ] (k : κ) (f : α → α) (g : α → β) (m : List (κ × α))
    (h : ∀ x, g (f x) = g x) : (assocMod k f m).map (fun q => (q.1, g q.2)) = m.map fun q => (q.1, g q.2) := by
  induction m with
  | nil => rfl
  | cons a m ih =>
    obtain ⟨j, w⟩ := a
    simp only [assocMod]
    split
    · simp [h]
    · simp [ih]

theorem modPen_crierOnly (s : State) (p : Nat) (f : Pen → Pen) (h : ∀ q, { f q with crier := {} } = { q with crier := {} }) :
    CrierOnly s (s.modPen p f) :=
  ⟨rfl, assocMod_map p f (fun q => { q with crier := {} }) s.pens h⟩

theorem modEvRing_crierOnly (s : State) (p r : Nat) (f : EventRing → EventRing) : CrierOnly s (s.modEvRing p r f) :=
  modPen_crierOnly s p _ fun _ => rfl

theorem hwMark_crierOnly (s : State) (b : HwBit) : CrierOnly s (s.hwMark b) := ⟨rfl, rfl⟩

theorem emit_crierOnly (s : State) (o : Output) : CrierOnly s (s.emit o) := ⟨rfl, rfl⟩

theorem hostOut_crierOnly (s : State) (o : Output) : CrierOnly s (s.hostOut o) := by
  unfold State.hostOut; split <;> exact ⟨rfl, rfl⟩

theorem sendRecord_crierOnly (s : State) (r n : Nat) : CrierOnly s (s.sendRecord r n) := by
  unfold State.sendRecord; split <;> exact ⟨rfl, rfl⟩

theorem watchmanTakes_crierOnly (s : State) (r : Nat) : CrierOnly s (s.watchmanTakes r) := by
  unfold State.watchmanTakes; split
  · exact CrierOnly.trans (modPen_crierOnly s 0 (fun q => { q with crier := { q.crier with
      attnPending := q.crier.attnPending &&& ~~~BitVec.ofNat 16 (2 ^ r) } }) fun _ => rfl) (sendRecord_crierOnly _ _ _)
  · exact ⟨rfl, rfl⟩

theorem attnSignal_crierOnly (s : State) (p r : Nat) : CrierOnly s (s.attnSignal p r) := by
  unfold State.attnSignal; repeat' split
  · exact .refl s
  · exact (emit_crierOnly s _).trans (watchmanTakes_crierOnly _ _)
  · exact hostOut_crierOnly s _

theorem evFire_crierOnly (s : State) (p r : Nat) : CrierOnly s (s.evFire p r) := by
  unfold State.evFire; split
  · exact .refl s
  · have a := modEvRing_crierOnly s p r fun e => { e with n := 0, timer := none }
    dsimp only; split
    · exact a.trans (hwMark_crierOnly _ _)
    · have b := (a.trans (modPen_crierOnly _ p (fun q => { q with crier := { q.crier with
        attnPending := setBit16 q.crier.attnPending r } }) fun _ => rfl)).trans (hwMark_crierOnly _ (.attention p r))
      split
      · exact b
      · exact b.trans (attnSignal_crierOnly _ _ _)

theorem evWrite_crierOnly (s : State) (p r n c a b : Nat) : CrierOnly s (s.evWrite p r n c a b) := by
  unfold State.evWrite; split
  · exact .refl s
  · rename_i q _
    have h : ∀ addr bytes, CrierOnly s (if (q.crier.ring r).reeve then { s with crierArea := memWriteBytes s.crierArea addr bytes }
        else s.hostOut (.hostWrite addr bytes)) := by
      intro addr bytes; split
      · exact ⟨rfl, rfl⟩
      · exact hostOut_crierOnly _ _
    dsimp only
    split
    · exact (((h _ _).trans (modEvRing_crierOnly _ _ _ _)).trans (hwMark_crierOnly _ _)).trans (evFire_crierOnly _ _ _)
    · exact ((h _ _).trans (modEvRing_crierOnly _ _ _ _)).trans (hwMark_crierOnly _ _)

theorem evRoute_crierOnly (s : State) (p r c a b : Nat) : CrierOnly s (s.evRoute p r c a b) := by
  unfold State.evRoute; split
  · exact .refl s
  · have h := modEvRing_crierOnly s p r fun e => { e with nextSeq := e.nextSeq + 1 }
    dsimp only; repeat' split
    · exact h.trans (modPen_crierOnly _ _ _ fun _ => rfl)
    · exact (h.trans (modEvRing_crierOnly _ _ _ _)).trans (hwMark_crierOnly _ _)
    · exact h.trans (evWrite_crierOnly _ _ _ _ _ _ _)

theorem raiseTo_crierOnly (s : State) (p c a b : Nat) (r : Option Nat) : CrierOnly s (s.raiseTo p c a b r) := by
  unfold State.raiseTo; repeat' split
  · exact .refl s
  · exact modPen_crierOnly _ _ _ fun _ => rfl
  · exact evRoute_crierOnly _ _ _ _ _ _

/-- Raising an event changes nothing but the Crier's side. -/
theorem raise_crierOnly (s : State) (p c a b : Nat) : CrierOnly s (s.raise p c a b) := raiseTo_crierOnly s p c a b none

theorem foldl_crierOnly {α : Type} (f : State → α → State) (h : ∀ t x, CrierOnly t (f t x)) (l : List α) (s : State) :
    CrierOnly s (l.foldl f s) := by
  induction l generalizing s with
  | nil => exact .refl s
  | cons a l ih => exact (h s a).trans (ih (f s a))

theorem raiseAll_crierOnly (s : State) (c a b : Nat) : CrierOnly s (s.raiseAll c a b) :=
  foldl_crierOnly (fun (t : State) (q : Nat × Pen) => t.raise q.1 c a b) (fun t q => raise_crierOnly t q.1 c a b) s.pens s

theorem evReportLost_crierOnly (s : State) (p r : Nat) : CrierOnly s (s.evReportLost p r) := by
  unfold State.evReportLost; split
  · exact .refl s
  · dsimp only; split
    · exact (modEvRing_crierOnly _ _ _ _).trans (evWrite_crierOnly _ _ _ _ _ _ _)
    · exact .refl s

/-- What a Crier-side change leaves of a pen. -/
theorem CrierOnly.pen {s t : State} (h : CrierOnly s t) (p : Nat) :
    (t.pen? p).map (fun q => { q with crier := {} }) = (s.pen? p).map fun q => { q with crier := {} } := by
  have key : ∀ (l m : List (Nat × Pen)), l.map (fun q => (q.1, { q.2 with crier := {} })) = m.map (fun q => (q.1, { q.2 with crier := {} })) →
      (assocGet p l).map (fun q => { q with crier := {} }) = (assocGet p m).map fun q => { q with crier := {} } := by
    intro l
    induction l with
    | nil => intro m hm; cases m with
      | nil => rfl
      | cons a m => simp at hm
    | cons a l ih =>
      intro m hm
      cases m with
      | nil => simp at hm
      | cons b m =>
        obtain ⟨i, x⟩ := a; obtain ⟨j, y⟩ := b
        rw [List.map_cons, List.map_cons] at hm
        injection hm with h1 h2
        simp only [Prod.mk.injEq] at h1
        obtain ⟨rfl, h3⟩ := h1
        simp only [assocGet]
        split
        · simpa using h3
        · exact ih m h2
  exact key t.pens s.pens h.pens

/-- A Crier-side change leaves every ring. -/
theorem CrierOnly.ring {s t : State} (h : CrierOnly s t) (p k : Nat) : t.ring? p k = s.ring? p k := by
  have := congrArg (fun o => o.bind fun q : Pen => assocGet k q.rings) (h.pen p)
  simpa [State.ring?, Option.bind_map, Function.comp_def] using this

/-- A Crier-side change leaves every mailbox. -/
theorem CrierOnly.mb {s t : State} (h : CrierOnly s t) (mb : Mb) : t.mb? mb = s.mb? mb := by
  cases mb with
  | admin => unfold State.mb?; dsimp only; rw [h.rest]
  | sideBand => unfold State.mb?; dsimp only; rw [h.rest]
  | pen p =>
    have := congrArg (Option.map fun q : Pen => q.mailbox) (h.pen p)
    simpa [State.mb?, Function.comp_def] using this

/-- `t` differs from `s` in nothing but the mailboxes and the Reeve's queue, the pens' Crier blocks, mailboxes, rings and
counters, the Crier's area of Reeve SRAM, what is sent or held back, the cycles of hardware updates, the device's counters,
and the Watchman's attentions and outstanding record: all that completing a command can change. -/
structure CompletionOnly (s t : State) : Prop where
  rest : t = { s with
    pens := t.pens, adminMb := t.adminMb, sbMb := t.sbMb, out := t.out, crierArea := t.crierArea, hwAt := t.hwAt
    reeveQueue := t.reeveQueue
    watchman := { s.watchman with record := t.watchman.record, attention := t.watchman.attention }
    security := { s.security with held := t.security.held }
    recovery := { s.recovery with ctrs := t.recovery.ctrs } }
  pens : t.pens.map (fun q => (q.1, q.2.cfg, q.2.constraints, q.2.indexes, q.2.heartbeat, q.2.reinit))
    = s.pens.map fun q => (q.1, q.2.cfg, q.2.constraints, q.2.indexes, q.2.heartbeat, q.2.reinit)

theorem CompletionOnly.refl (s : State) : CompletionOnly s s := ⟨rfl, rfl⟩

theorem CompletionOnly.trans {s t u : State} (a : CompletionOnly s t) (b : CompletionOnly t u) : CompletionOnly s u := by
  refine ⟨?_, b.pens.trans a.pens⟩
  rw [b.rest, a.rest]

theorem CrierOnly.completion {s t : State} (h : CrierOnly s t) : CompletionOnly s t := by
  refine ⟨?_, ?_⟩
  · rw [h.rest]
  · have := congrArg (List.map fun q : Nat × Pen => (q.1, q.2.cfg, q.2.constraints, q.2.indexes, q.2.heartbeat, q.2.reinit)) h.pens
    simpa [List.map_map, Function.comp_def] using this

theorem modPen_completionOnly (s : State) (p : Nat) (f : Pen → Pen)
    (h : ∀ q, ((f q).cfg, (f q).constraints, (f q).indexes, (f q).heartbeat, (f q).reinit)
      = (q.cfg, q.constraints, q.indexes, q.heartbeat, q.reinit)) : CompletionOnly s (s.modPen p f) :=
  ⟨rfl, assocMod_map p f (fun q => (q.cfg, q.constraints, q.indexes, q.heartbeat, q.reinit)) s.pens h⟩

theorem modMb_completionOnly (s : State) (mb : Mb) (f : Mailbox → Mailbox) : CompletionOnly s (s.modMb mb f) := by
  cases mb
  · exact ⟨rfl, rfl⟩
  · exact ⟨rfl, rfl⟩
  · exact modPen_completionOnly _ _ _ fun _ => rfl

theorem bumpPen_completionOnly (s : State) (p : Nat) (c : PenCtr) (n : Nat) : CompletionOnly s (s.bumpPen p c n) :=
  modPen_completionOnly _ _ _ fun _ => rfl

/-- Writing a mailbox's completion changes nothing but what a completion may. -/
theorem mbWrite_completionOnly (s : State) (mb : Mb) (seq : Nat) (d : Desc) (r : Reply) :
    CompletionOnly s (s.mbWrite mb seq d r) := by
  have a := modMb_completionOnly s mb fun m => { m with
    completion := BitVec.ofNat 256 (completionNat d r 0 0), seqDone := seq, busy := false, done := true, cmd := none }
  unfold State.mbWrite
  dsimp only
  refine (CompletionOnly.trans ?_ (hwMark_crierOnly _ _).completion).trans (raise_crierOnly _ _ _ _ _).completion
  cases mb
  · exact a
  · exact a.trans (emit_crierOnly _ _).completion
  · exact a.trans (modPen_completionOnly _ _ _ fun _ => rfl)

/-- Answering a mailbox command changes nothing but what a completion may. -/
theorem mbReply_completionOnly (s : State) (r : MbRef) (y : Reply) : CompletionOnly s (s.mbReply r y) := by
  unfold State.mbReply; repeat' split
  · exact .refl s
  · exact mbWrite_completionOnly _ _ _ _ _
  · exact bumpPen_completionOnly _ _ _ _

/-- Taking a mailbox command up changes nothing but what a completion may. -/
theorem mbTake_completionOnly (s : State) (mb : Mb) (c : MbCmd) : CompletionOnly s (s.mbTake mb c) := by
  refine CompletionOnly.trans (modMb_completionOnly s mb fun m =>
    { m with cmd := if m.cmd = some c then none else m.cmd, late := m.late.filter (fun l => l.ticket != c.ticket) }) ?_
  exact ⟨rfl, rfl⟩

/-- Completing a refused command changes nothing but what a completion may. -/
theorem refuse_completionOnly {s t : State} {mb : Mb} {n : Nat} (h : s.refuse mb n = some t) : CompletionOnly s t := by
  simp only [State.refuse, Option.bind_eq_some_iff] at h
  obtain ⟨c, -, h⟩ := h
  split at h
  · obtain ⟨r, -, rfl⟩ := Option.map_eq_some_iff.1 h
    exact (mbTake_completionOnly _ _ _).trans (mbReply_completionOnly _ _ _)
  · cases h

/-- Going on with the Reeve's queue changes nothing but what a completion may. -/
theorem reeveNext_completionOnly (s : State) : CompletionOnly s s.reeveNext := by
  have : ∀ (n : Nat) (s : State), CompletionOnly s (s.refuseHeads n) := by
    intro n
    induction n with
    | zero => exact .refl
    | succ n ih =>
      intro s
      unfold State.refuseHeads
      split
      · exact .refl s
      · split
        · exact .refl s
        · exact (refuse_completionOnly (by assumption)).trans (ih _)
  exact this _ s

/-- A firmware completion changes nothing but what a completion may. -/
theorem mbFinish_completionOnly (s : State) (r : MbRef) (y : Reply) : CompletionOnly s (s.mbFinish r y) :=
  (mbReply_completionOnly s r y).trans (reeveNext_completionOnly _)

theorem foldl_completionOnly {α : Type} (f : State → α → State) (h : ∀ t x, CompletionOnly t (f t x)) (l : List α)
    (s : State) : CompletionOnly s (l.foldl f s) := by
  induction l generalizing s with
  | nil => exact .refl s
  | cons a l ih => exact (h s a).trans (ih (f s a))

theorem ringGone_completionOnly (s : State) (p k : Nat) : CompletionOnly s (s.ringGone p k) := by
  unfold State.ringGone; repeat' split
  · exact .refl s
  · exact .refl s
  · refine CompletionOnly.trans ?_ (foldl_completionOnly (fun (t : State) (c : Tollgate × Bool × MbRef) =>
      t.mbFinish c.2.2 (rBad 36)) (fun t c => mbFinish_completionOnly t c.2.2 (rBad 36)) _ _)
    exact (modPen_completionOnly s p (fun q => { q with rings := assocDel k q.rings }) fun _ => rfl).trans
      (mbFinish_completionOnly _ _ _)
  · exact .refl s

theorem cqAdvanced_completionOnly (s : State) (p k r w : Nat) : CompletionOnly s (s.cqAdvanced p k r w) := by
  unfold State.cqAdvanced; split
  · exact .refl s
  · split
    · exact .refl s
    · have a := (raiseTo_crierOnly s p 0x0201 k w (some r)).completion.trans
        (modPen_completionOnly _ p (fun q => { q with rings := assocMod k (fun g => { g with loud := false }) q.rings })
          fun _ => rfl)
      dsimp only; repeat' split
      · exact a
      · exact a
      · exact a.trans (modEvRing_crierOnly _ _ _ _).completion

/-- Completing a ring command changes nothing but what a completion may. -/
theorem complete_completionOnly (s : State) (c : RingCmd) (r : Reply) : CompletionOnly s (s.complete c r) := by
  unfold State.complete; split
  · exact .refl s
  · rename_i g _
    split
    · refine CompletionOnly.trans ?_ (ringGone_completionOnly _ _ _)
      have a := (hostOut_crierOnly s (.hostWrite (g.cqBase + 32 * (g.written % 2 ^ g.cqLog2)) (natToBytes 32
        (completionNat c.desc r g.fetched (phaseOf g.written (2 ^ g.cqLog2)))))).completion.trans
        (modPen_completionOnly _ c.pen (fun q => { q with rings := assocMod c.ring (fun g =>
          { (if r.status = .throttled then g.bump .throttled 1 else g) with
            written := add32 g.written 1, inflight := g.inflight.filter (· != c.serial),
            loud := g.loud || !descFlag c.desc 17, serviced := true }) q.rings }) fun _ => rfl)
      have b : ∀ t, CompletionOnly s t → CompletionOnly s (match r.status with
          | .abortedRetryable => t.bumpPen c.pen .aborted 1
          | .retryUnitReset => t.bumpPen c.pen .unitResetRetries 1
          | .redirect => t.bumpDev .redirects 1
          | _ => t) := by
        intro t ht
        split
        · exact ht.trans (bumpPen_completionOnly _ _ _ _)
        · exact ht.trans (bumpPen_completionOnly _ _ _ _)
        · exact ht.trans ⟨rfl, rfl⟩
        · exact ht
      dsimp only
      split
      · exact b _ a
      · split
        · exact (b _ a).trans (cqAdvanced_completionOnly _ _ _ _ _)
        · exact b _ a
    · exact .refl s

end Sys2Proof.Laws
end

