-- ==== Sys2Proof/Laws/Memory.lean ====
section
/-!
SUPPORT. Laws of the sparse byte memories (mailbox payload areas, the Crier's area of Reeve SRAM, the offset spaces of
grants, the staging space): every operation keeps the canonical form, a read after a write to the same address gives the byte written, and a write leaves every other address.
-/
set_option Elab.async false
namespace Sys2Proof.Laws
open Sys2Proof.Machine

theorem memWfFrom_mono {lo lo' : Nat} (h : lo' ≤ lo) {m : List (Nat × Byte)} (w : memWfFrom lo m = true) :
    memWfFrom lo' m = true := by
  cases m with
  | nil => rfl
  | cons c m =>
    obtain ⟨a, v⟩ := c
    simp only [memWfFrom, Bool.and_eq_true, decide_eq_true_eq] at w ⊢
    exact ⟨⟨by omega, w.1.2⟩, w.2⟩

theorem memWrite_wfFrom (m : List (Nat × Byte)) (lo a : Nat) (v : Byte) (ha : lo ≤ a) (w : memWfFrom lo m = true) :
    memWfFrom lo (memWrite m a v) = true := by
  induction m generalizing lo with
  | nil => simp only [memWrite]; split <;> simp_all [memWfFrom]
  | cons c m ih =>
    obtain ⟨b, x⟩ := c
    simp only [memWfFrom, Bool.and_eq_true, decide_eq_true_eq] at w
    simp only [memWrite]
    split
    · rename_i hab
      split
      · simp only [memWfFrom, Bool.and_eq_true, decide_eq_true_eq]; exact w
      · rename_i hv
        simp only [memWfFrom, Bool.and_eq_true, decide_eq_true_eq]
        exact ⟨⟨ha, hv⟩, ⟨by omega, w.1.2⟩, w.2⟩
    · split
      · rename_i hab
        subst hab
        split
        · exact memWfFrom_mono (by omega) w.2
        · rename_i hv
          simp only [memWfFrom, Bool.and_eq_true, decide_eq_true_eq]
          exact ⟨⟨ha, hv⟩, w.2⟩
      · simp only [memWfFrom, Bool.and_eq_true, decide_eq_true_eq]
        exact ⟨w.1, ih (b + 1) (by omega) w.2⟩

/-- A write keeps the canonical form. -/
theorem memWrite_wf (m : List (Nat × Byte)) (a : Nat) (v : Byte) (w : Memory.wf m = true) :
    Memory.wf (memWrite m a v) = true :=
  memWrite_wfFrom m 0 a v (by omega) w

/-- A write of several bytes keeps the canonical form. -/
theorem memWriteBytes_wf (m : List (Nat × Byte)) (a : Nat) (vs : List Byte) (w : Memory.wf m = true) :
    Memory.wf (memWriteBytes m a vs) = true := by
  induction vs generalizing m a with
  | nil => exact w
  | cons v vs ih => exact ih _ _ (memWrite_wf m a v w)

theorem memFilter_wfFrom (f : Nat × Byte → Bool) (m : List (Nat × Byte)) (lo : Nat) (w : memWfFrom lo m = true) :
    memWfFrom lo (m.filter f) = true := by
  induction m generalizing lo with
  | nil => rfl
  | cons c m ih =>
    obtain ⟨a, v⟩ := c
    simp only [memWfFrom, Bool.and_eq_true, decide_eq_true_eq] at w
    by_cases h : f (a, v) = true
    · rw [List.filter_cons_of_pos h]
      simp only [memWfFrom, Bool.and_eq_true, decide_eq_true_eq]
      exact ⟨w.1, ih _ w.2⟩
    · rw [List.filter_cons_of_neg h]
      exact memWfFrom_mono (by omega) (ih _ w.2)

/-- Taking whole ranges out of a memory (a freed extent, a closed staging window) keeps the form. -/
theorem memFilter_wf (f : Nat × Byte → Bool) (m : List (Nat × Byte)) (w : Memory.wf m = true) :
    Memory.wf (m.filter f) = true :=
  memFilter_wfFrom f m 0 w

theorem memRead_below (m : List (Nat × Byte)) (lo a : Nat) (h : a < lo) (w : memWfFrom lo m = true) : memRead m a = 0 := by
  induction m generalizing lo with
  | nil => rfl
  | cons c m ih =>
    obtain ⟨b, x⟩ := c
    simp only [memWfFrom, Bool.and_eq_true, decide_eq_true_eq] at w
    simp only [memRead]
    rw [if_neg (by omega)]
    exact ih (b + 1) (by omega) w.2

theorem memRead_writeFrom (m : List (Nat × Byte)) (lo a b : Nat) (v : Byte) (w : memWfFrom lo m = true) :
    memRead (memWrite m a v) b = if b = a then v else memRead m b := by
  induction m generalizing lo with
  | nil =>
    simp only [memWrite]
    by_cases hb : b = a
    · subst hb; split <;> simp_all [memRead]
    · rw [if_neg hb]; split <;> simp [memRead, Ne.symm hb]
  | cons c m ih =>
    obtain ⟨d, x⟩ := c
    simp only [memWfFrom, Bool.and_eq_true, decide_eq_true_eq] at w
    simp only [memWrite]
    split
    · rename_i had
      split
      · rename_i hv
        by_cases hb : b = a
        · subst hb; simp only [memRead, if_true]; rw [if_neg (by omega), memRead_below m (d + 1) b (by omega) w.2, hv]
        · simp [hb]
      · simp only [memRead]; by_cases hb : a = b <;> simp [hb, eq_comm]
    · split
      · rename_i hab
        subst hab
        split
        · rename_i hv
          by_cases hb : b = a
          · subst hb; rw [if_pos rfl, memRead_below m (b + 1) b (by omega) w.2, hv]
          · simp [memRead, hb, Ne.symm hb]
        · simp only [memRead]; by_cases hb : a = b <;> simp [hb, eq_comm]
      · rename_i h1 h2
        simp only [memRead, ih (d + 1) w.2]
        by_cases hb : d = b
        · subst hb; simp [Ne.symm h2]
        · simp [hb]

/-- A read after a write: the byte written at its address, what was there at every other. -/
theorem memRead_write (m : List (Nat × Byte)) (a b : Nat) (v : Byte) (w : Memory.wf m = true) :
    memRead (memWrite m a v) b = if b = a then v else memRead m b :=
  memRead_writeFrom m 0 a b v w

/-- The memories of the reset state are in canonical form. -/
theorem reset_memories_wf : Memory.wf State.reset.crierArea = true ∧ Memory.wf State.reset.adminMb.payload = true
    ∧ Memory.wf State.reset.sbMb.payload = true ∧ (State.reset.pens.all fun q => Memory.wf q.2.mailbox.payload) = true := by
  decide

end Sys2Proof.Laws
end

