-- ==== Sys2Proof/Laws/State.lean ====
section
/-!
SUPPORT. What each named update of the state leaves in every field: one lemma per field and update, true by definition, so
that no proof unfolds a record update.
-/
set_option Elab.async false
namespace Sys2Proof.Laws
open Sys2Proof.Machine

variable (s : State)

/-! ### Sending something out. -/

@[simp] theorem emit_clock (o : Output) : (s.emit o).clock = s.clock := rfl
@[simp] theorem emit_ident (o : Output) : (s.emit o).ident = s.ident := rfl
@[simp] theorem emit_ladder (o : Output) : (s.emit o).ladder = s.ladder := rfl
@[simp] theorem emit_adminMb (o : Output) : (s.emit o).adminMb = s.adminMb := rfl
@[simp] theorem emit_sbMb (o : Output) : (s.emit o).sbMb = s.sbMb := rfl
@[simp] theorem emit_reeveQueue (o : Output) : (s.emit o).reeveQueue = s.reeveQueue := rfl
@[simp] theorem emit_nextTicket (o : Output) : (s.emit o).nextTicket = s.nextTicket := rfl
@[simp] theorem emit_pens (o : Output) : (s.emit o).pens = s.pens := rfl
@[simp] theorem emit_penGens (o : Output) : (s.emit o).penGens = s.penGens := rfl
@[simp] theorem emit_crierArea (o : Output) : (s.emit o).crierArea = s.crierArea := rfl
@[simp] theorem emit_fetchArb (o : Output) : (s.emit o).fetchArb = s.fetchArb := rfl
@[simp] theorem emit_dispatchLast (o : Output) : (s.emit o).dispatchLast = s.dispatchLast := rfl
@[simp] theorem emit_dispatched (o : Output) : (s.emit o).dispatched = s.dispatched := rfl
@[simp] theorem emit_layouts (o : Output) : (s.emit o).layouts = s.layouts := rfl
@[simp] theorem emit_slice (o : Output) : (s.emit o).slice = s.slice := rfl
@[simp] theorem emit_sessions (o : Output) : (s.emit o).sessions = s.sessions := rfl
@[simp] theorem emit_flocks (o : Output) : (s.emit o).flocks = s.flocks := rfl
@[simp] theorem emit_moves (o : Output) : (s.emit o).moves = s.moves := rfl
@[simp] theorem emit_nextMove (o : Output) : (s.emit o).nextMove = s.nextMove := rfl
@[simp] theorem emit_t2 (o : Output) : (s.emit o).t2 = s.t2 := rfl
@[simp] theorem emit_stepPorts (o : Output) : (s.emit o).stepPorts = s.stepPorts := rfl
@[simp] theorem emit_commons (o : Output) : (s.emit o).commons = s.commons := rfl
@[simp] theorem emit_partner (o : Output) : (s.emit o).partner = s.partner := rfl
@[simp] theorem emit_flash (o : Output) : (s.emit o).flash = s.flash := rfl
@[simp] theorem emit_flashSlice (o : Output) : (s.emit o).flashSlice = s.flashSlice := rfl
@[simp] theorem emit_harvest (o : Output) : (s.emit o).harvest = s.harvest := rfl
@[simp] theorem emit_recovery (o : Output) : (s.emit o).recovery = s.recovery := rfl
@[simp] theorem emit_hearth (o : Output) : (s.emit o).hearth = s.hearth := rfl
@[simp] theorem emit_security (o : Output) : (s.emit o).security = s.security := rfl
@[simp] theorem emit_debugPort (o : Output) : (s.emit o).debugPort = s.debugPort := rfl
@[simp] theorem emit_watchman (o : Output) : (s.emit o).watchman = s.watchman := rfl
@[simp] theorem emit_board (o : Output) : (s.emit o).board = s.board := rfl
@[simp] theorem emit_hwAt (o : Output) : (s.emit o).hwAt = s.hwAt := rfl
@[simp] theorem emit_free (o : Output) : (s.emit o).free = s.free := rfl
@[simp] theorem emit_out (o : Output) : (s.emit o).out = s.out ++ [o] := rfl
@[simp] theorem emit_pending (o : Output) : (s.emit o).pending = s.pending := rfl

/-! ### Changing a pen. -/

@[simp] theorem modPen_clock (p : Nat) (f : Pen → Pen) : (s.modPen p f).clock = s.clock := rfl
@[simp] theorem modPen_ident (p : Nat) (f : Pen → Pen) : (s.modPen p f).ident = s.ident := rfl
@[simp] theorem modPen_ladder (p : Nat) (f : Pen → Pen) : (s.modPen p f).ladder = s.ladder := rfl
@[simp] theorem modPen_adminMb (p : Nat) (f : Pen → Pen) : (s.modPen p f).adminMb = s.adminMb := rfl
@[simp] theorem modPen_sbMb (p : Nat) (f : Pen → Pen) : (s.modPen p f).sbMb = s.sbMb := rfl
@[simp] theorem modPen_reeveQueue (p : Nat) (f : Pen → Pen) : (s.modPen p f).reeveQueue = s.reeveQueue := rfl
@[simp] theorem modPen_nextTicket (p : Nat) (f : Pen → Pen) : (s.modPen p f).nextTicket = s.nextTicket := rfl
@[simp] theorem modPen_pens (p : Nat) (f : Pen → Pen) : (s.modPen p f).pens = assocMod p f s.pens := rfl
@[simp] theorem modPen_penGens (p : Nat) (f : Pen → Pen) : (s.modPen p f).penGens = s.penGens := rfl
@[simp] theorem modPen_crierArea (p : Nat) (f : Pen → Pen) : (s.modPen p f).crierArea = s.crierArea := rfl
@[simp] theorem modPen_fetchArb (p : Nat) (f : Pen → Pen) : (s.modPen p f).fetchArb = s.fetchArb := rfl
@[simp] theorem modPen_dispatchLast (p : Nat) (f : Pen → Pen) : (s.modPen p f).dispatchLast = s.dispatchLast := rfl
@[simp] theorem modPen_dispatched (p : Nat) (f : Pen → Pen) : (s.modPen p f).dispatched = s.dispatched := rfl
@[simp] theorem modPen_layouts (p : Nat) (f : Pen → Pen) : (s.modPen p f).layouts = s.layouts := rfl
@[simp] theorem modPen_slice (p : Nat) (f : Pen → Pen) : (s.modPen p f).slice = s.slice := rfl
@[simp] theorem modPen_sessions (p : Nat) (f : Pen → Pen) : (s.modPen p f).sessions = s.sessions := rfl
@[simp] theorem modPen_flocks (p : Nat) (f : Pen → Pen) : (s.modPen p f).flocks = s.flocks := rfl
@[simp] theorem modPen_moves (p : Nat) (f : Pen → Pen) : (s.modPen p f).moves = s.moves := rfl
@[simp] theorem modPen_nextMove (p : Nat) (f : Pen → Pen) : (s.modPen p f).nextMove = s.nextMove := rfl
@[simp] theorem modPen_t2 (p : Nat) (f : Pen → Pen) : (s.modPen p f).t2 = s.t2 := rfl
@[simp] theorem modPen_stepPorts (p : Nat) (f : Pen → Pen) : (s.modPen p f).stepPorts = s.stepPorts := rfl
@[simp] theorem modPen_commons (p : Nat) (f : Pen → Pen) : (s.modPen p f).commons = s.commons := rfl
@[simp] theorem modPen_partner (p : Nat) (f : Pen → Pen) : (s.modPen p f).partner = s.partner := rfl
@[simp] theorem modPen_flash (p : Nat) (f : Pen → Pen) : (s.modPen p f).flash = s.flash := rfl
@[simp] theorem modPen_flashSlice (p : Nat) (f : Pen → Pen) : (s.modPen p f).flashSlice = s.flashSlice := rfl
@[simp] theorem modPen_harvest (p : Nat) (f : Pen → Pen) : (s.modPen p f).harvest = s.harvest := rfl
@[simp] theorem modPen_recovery (p : Nat) (f : Pen → Pen) : (s.modPen p f).recovery = s.recovery := rfl
@[simp] theorem modPen_hearth (p : Nat) (f : Pen → Pen) : (s.modPen p f).hearth = s.hearth := rfl
@[simp] theorem modPen_security (p : Nat) (f : Pen → Pen) : (s.modPen p f).security = s.security := rfl
@[simp] theorem modPen_debugPort (p : Nat) (f : Pen → Pen) : (s.modPen p f).debugPort = s.debugPort := rfl
@[simp] theorem modPen_watchman (p : Nat) (f : Pen → Pen) : (s.modPen p f).watchman = s.watchman := rfl
@[simp] theorem modPen_board (p : Nat) (f : Pen → Pen) : (s.modPen p f).board = s.board := rfl
@[simp] theorem modPen_hwAt (p : Nat) (f : Pen → Pen) : (s.modPen p f).hwAt = s.hwAt := rfl
@[simp] theorem modPen_free (p : Nat) (f : Pen → Pen) : (s.modPen p f).free = s.free := rfl
@[simp] theorem modPen_out (p : Nat) (f : Pen → Pen) : (s.modPen p f).out = s.out := rfl
@[simp] theorem modPen_pending (p : Nat) (f : Pen → Pen) : (s.modPen p f).pending = s.pending := rfl

/-! ### Counting in a pen. -/

@[simp] theorem bumpPen_clock (p : Nat) (c : PenCtr) (n : Nat) : (s.bumpPen p c n).clock = s.clock := rfl
@[simp] theorem bumpPen_ident (p : Nat) (c : PenCtr) (n : Nat) : (s.bumpPen p c n).ident = s.ident := rfl
@[simp] theorem bumpPen_ladder (p : Nat) (c : PenCtr) (n : Nat) : (s.bumpPen p c n).ladder = s.ladder := rfl
@[simp] theorem bumpPen_adminMb (p : Nat) (c : PenCtr) (n : Nat) : (s.bumpPen p c n).adminMb = s.adminMb := rfl
@[simp] theorem bumpPen_sbMb (p : Nat) (c : PenCtr) (n : Nat) : (s.bumpPen p c n).sbMb = s.sbMb := rfl
@[simp] theorem bumpPen_reeveQueue (p : Nat) (c : PenCtr) (n : Nat) : (s.bumpPen p c n).reeveQueue = s.reeveQueue := rfl
@[simp] theorem bumpPen_nextTicket (p : Nat) (c : PenCtr) (n : Nat) : (s.bumpPen p c n).nextTicket = s.nextTicket := rfl
@[simp] theorem bumpPen_penGens (p : Nat) (c : PenCtr) (n : Nat) : (s.bumpPen p c n).penGens = s.penGens := rfl
@[simp] theorem bumpPen_crierArea (p : Nat) (c : PenCtr) (n : Nat) : (s.bumpPen p c n).crierArea = s.crierArea := rfl
@[simp] theorem bumpPen_fetchArb (p : Nat) (c : PenCtr) (n : Nat) : (s.bumpPen p c n).fetchArb = s.fetchArb := rfl
@[simp] theorem bumpPen_dispatchLast (p : Nat) (c : PenCtr) (n : Nat) : (s.bumpPen p c n).dispatchLast = s.dispatchLast := rfl
@[simp] theorem bumpPen_dispatched (p : Nat) (c : PenCtr) (n : Nat) : (s.bumpPen p c n).dispatched = s.dispatched := rfl
@[simp] theorem bumpPen_layouts (p : Nat) (c : PenCtr) (n : Nat) : (s.bumpPen p c n).layouts = s.layouts := rfl
@[simp] theorem bumpPen_slice (p : Nat) (c : PenCtr) (n : Nat) : (s.bumpPen p c n).slice = s.slice := rfl
@[simp] theorem bumpPen_sessions (p : Nat) (c : PenCtr) (n : Nat) : (s.bumpPen p c n).sessions = s.sessions := rfl
@[simp] theorem bumpPen_flocks (p : Nat) (c : PenCtr) (n : Nat) : (s.bumpPen p c n).flocks = s.flocks := rfl
@[simp] theorem bumpPen_moves (p : Nat) (c : PenCtr) (n : Nat) : (s.bumpPen p c n).moves = s.moves := rfl
@[simp] theorem bumpPen_nextMove (p : Nat) (c : PenCtr) (n : Nat) : (s.bumpPen p c n).nextMove = s.nextMove := rfl
@[simp] theorem bumpPen_t2 (p : Nat) (c : PenCtr) (n : Nat) : (s.bumpPen p c n).t2 = s.t2 := rfl
@[simp] theorem bumpPen_stepPorts (p : Nat) (c : PenCtr) (n : Nat) : (s.bumpPen p c n).stepPorts = s.stepPorts := rfl
@[simp] theorem bumpPen_commons (p : Nat) (c : PenCtr) (n : Nat) : (s.bumpPen p c n).commons = s.commons := rfl
@[simp] theorem bumpPen_partner (p : Nat) (c : PenCtr) (n : Nat) : (s.bumpPen p c n).partner = s.partner := rfl
@[simp] theorem bumpPen_flash (p : Nat) (c : PenCtr) (n : Nat) : (s.bumpPen p c n).flash = s.flash := rfl
@[simp] theorem bumpPen_flashSlice (p : Nat) (c : PenCtr) (n : Nat) : (s.bumpPen p c n).flashSlice = s.flashSlice := rfl
@[simp] theorem bumpPen_harvest (p : Nat) (c : PenCtr) (n : Nat) : (s.bumpPen p c n).harvest = s.harvest := rfl
@[simp] theorem bumpPen_recovery (p : Nat) (c : PenCtr) (n : Nat) : (s.bumpPen p c n).recovery = s.recovery := rfl
@[simp] theorem bumpPen_hearth (p : Nat) (c : PenCtr) (n : Nat) : (s.bumpPen p c n).hearth = s.hearth := rfl
@[simp] theorem bumpPen_security (p : Nat) (c : PenCtr) (n : Nat) : (s.bumpPen p c n).security = s.security := rfl
@[simp] theorem bumpPen_debugPort (p : Nat) (c : PenCtr) (n : Nat) : (s.bumpPen p c n).debugPort = s.debugPort := rfl
@[simp] theorem bumpPen_watchman (p : Nat) (c : PenCtr) (n : Nat) : (s.bumpPen p c n).watchman = s.watchman := rfl
@[simp] theorem bumpPen_board (p : Nat) (c : PenCtr) (n : Nat) : (s.bumpPen p c n).board = s.board := rfl
@[simp] theorem bumpPen_hwAt (p : Nat) (c : PenCtr) (n : Nat) : (s.bumpPen p c n).hwAt = s.hwAt := rfl
@[simp] theorem bumpPen_free (p : Nat) (c : PenCtr) (n : Nat) : (s.bumpPen p c n).free = s.free := rfl
@[simp] theorem bumpPen_out (p : Nat) (c : PenCtr) (n : Nat) : (s.bumpPen p c n).out = s.out := rfl
@[simp] theorem bumpPen_pending (p : Nat) (c : PenCtr) (n : Nat) : (s.bumpPen p c n).pending = s.pending := rfl

/-! ### Changing a ring. -/

@[simp] theorem modRing_clock (p k : Nat) (f : Ring → Ring) : (s.modRing p k f).clock = s.clock := rfl
@[simp] theorem modRing_ident (p k : Nat) (f : Ring → Ring) : (s.modRing p k f).ident = s.ident := rfl
@[simp] theorem modRing_ladder (p k : Nat) (f : Ring → Ring) : (s.modRing p k f).ladder = s.ladder := rfl
@[simp] theorem modRing_adminMb (p k : Nat) (f : Ring → Ring) : (s.modRing p k f).adminMb = s.adminMb := rfl
@[simp] theorem modRing_sbMb (p k : Nat) (f : Ring → Ring) : (s.modRing p k f).sbMb = s.sbMb := rfl
@[simp] theorem modRing_reeveQueue (p k : Nat) (f : Ring → Ring) : (s.modRing p k f).reeveQueue = s.reeveQueue := rfl
@[simp] theorem modRing_nextTicket (p k : Nat) (f : Ring → Ring) : (s.modRing p k f).nextTicket = s.nextTicket := rfl
@[simp] theorem modRing_penGens (p k : Nat) (f : Ring → Ring) : (s.modRing p k f).penGens = s.penGens := rfl
@[simp] theorem modRing_crierArea (p k : Nat) (f : Ring → Ring) : (s.modRing p k f).crierArea = s.crierArea := rfl
@[simp] theorem modRing_fetchArb (p k : Nat) (f : Ring → Ring) : (s.modRing p k f).fetchArb = s.fetchArb := rfl
@[simp] theorem modRing_dispatchLast (p k : Nat) (f : Ring → Ring) : (s.modRing p k f).dispatchLast = s.dispatchLast := rfl
@[simp] theorem modRing_dispatched (p k : Nat) (f : Ring → Ring) : (s.modRing p k f).dispatched = s.dispatched := rfl
@[simp] theorem modRing_layouts (p k : Nat) (f : Ring → Ring) : (s.modRing p k f).layouts = s.layouts := rfl
@[simp] theorem modRing_slice (p k : Nat) (f : Ring → Ring) : (s.modRing p k f).slice = s.slice := rfl
@[simp] theorem modRing_sessions (p k : Nat) (f : Ring → Ring) : (s.modRing p k f).sessions = s.sessions := rfl
@[simp] theorem modRing_flocks (p k : Nat) (f : Ring → Ring) : (s.modRing p k f).flocks = s.flocks := rfl
@[simp] theorem modRing_moves (p k : Nat) (f : Ring → Ring) : (s.modRing p k f).moves = s.moves := rfl
@[simp] theorem modRing_nextMove (p k : Nat) (f : Ring → Ring) : (s.modRing p k f).nextMove = s.nextMove := rfl
@[simp] theorem modRing_t2 (p k : Nat) (f : Ring → Ring) : (s.modRing p k f).t2 = s.t2 := rfl
@[simp] theorem modRing_stepPorts (p k : Nat) (f : Ring → Ring) : (s.modRing p k f).stepPorts = s.stepPorts := rfl
@[simp] theorem modRing_commons (p k : Nat) (f : Ring → Ring) : (s.modRing p k f).commons = s.commons := rfl
@[simp] theorem modRing_partner (p k : Nat) (f : Ring → Ring) : (s.modRing p k f).partner = s.partner := rfl
@[simp] theorem modRing_flash (p k : Nat) (f : Ring → Ring) : (s.modRing p k f).flash = s.flash := rfl
@[simp] theorem modRing_flashSlice (p k : Nat) (f : Ring → Ring) : (s.modRing p k f).flashSlice = s.flashSlice := rfl
@[simp] theorem modRing_harvest (p k : Nat) (f : Ring → Ring) : (s.modRing p k f).harvest = s.harvest := rfl
@[simp] theorem modRing_recovery (p k : Nat) (f : Ring → Ring) : (s.modRing p k f).recovery = s.recovery := rfl
@[simp] theorem modRing_hearth (p k : Nat) (f : Ring → Ring) : (s.modRing p k f).hearth = s.hearth := rfl
@[simp] theorem modRing_security (p k : Nat) (f : Ring → Ring) : (s.modRing p k f).security = s.security := rfl
@[simp] theorem modRing_debugPort (p k : Nat) (f : Ring → Ring) : (s.modRing p k f).debugPort = s.debugPort := rfl
@[simp] theorem modRing_watchman (p k : Nat) (f : Ring → Ring) : (s.modRing p k f).watchman = s.watchman := rfl
@[simp] theorem modRing_board (p k : Nat) (f : Ring → Ring) : (s.modRing p k f).board = s.board := rfl
@[simp] theorem modRing_hwAt (p k : Nat) (f : Ring → Ring) : (s.modRing p k f).hwAt = s.hwAt := rfl
@[simp] theorem modRing_free (p k : Nat) (f : Ring → Ring) : (s.modRing p k f).free = s.free := rfl
@[simp] theorem modRing_out (p k : Nat) (f : Ring → Ring) : (s.modRing p k f).out = s.out := rfl
@[simp] theorem modRing_pending (p k : Nat) (f : Ring → Ring) : (s.modRing p k f).pending = s.pending := rfl

/-! ### Changing an event ring. -/

@[simp] theorem modEvRing_clock (p r : Nat) (f : EventRing → EventRing) : (s.modEvRing p r f).clock = s.clock := rfl
@[simp] theorem modEvRing_ident (p r : Nat) (f : EventRing → EventRing) : (s.modEvRing p r f).ident = s.ident := rfl
@[simp] theorem modEvRing_ladder (p r : Nat) (f : EventRing → EventRing) : (s.modEvRing p r f).ladder = s.ladder := rfl
@[simp] theorem modEvRing_adminMb (p r : Nat) (f : EventRing → EventRing) : (s.modEvRing p r f).adminMb = s.adminMb := rfl
@[simp] theorem modEvRing_sbMb (p r : Nat) (f : EventRing → EventRing) : (s.modEvRing p r f).sbMb = s.sbMb := rfl
@[simp] theorem modEvRing_reeveQueue (p r : Nat) (f : EventRing → EventRing) : (s.modEvRing p r f).reeveQueue = s.reeveQueue := rfl
@[simp] theorem modEvRing_nextTicket (p r : Nat) (f : EventRing → EventRing) : (s.modEvRing p r f).nextTicket = s.nextTicket := rfl
@[simp] theorem modEvRing_penGens (p r : Nat) (f : EventRing → EventRing) : (s.modEvRing p r f).penGens = s.penGens := rfl
@[simp] theorem modEvRing_crierArea (p r : Nat) (f : EventRing → EventRing) : (s.modEvRing p r f).crierArea = s.crierArea := rfl
@[simp] theorem modEvRing_fetchArb (p r : Nat) (f : EventRing → EventRing) : (s.modEvRing p r f).fetchArb = s.fetchArb := rfl
@[simp] theorem modEvRing_dispatchLast (p r : Nat) (f : EventRing → EventRing) : (s.modEvRing p r f).dispatchLast = s.dispatchLast := rfl
@[simp] theorem modEvRing_dispatched (p r : Nat) (f : EventRing → EventRing) : (s.modEvRing p r f).dispatched = s.dispatched := rfl
@[simp] theorem modEvRing_layouts (p r : Nat) (f : EventRing → EventRing) : (s.modEvRing p r f).layouts = s.layouts := rfl
@[simp] theorem modEvRing_slice (p r : Nat) (f : EventRing → EventRing) : (s.modEvRing p r f).slice = s.slice := rfl
@[simp] theorem modEvRing_sessions (p r : Nat) (f : EventRing → EventRing) : (s.modEvRing p r f).sessions = s.sessions := rfl
@[simp] theorem modEvRing_flocks (p r : Nat) (f : EventRing → EventRing) : (s.modEvRing p r f).flocks = s.flocks := rfl
@[simp] theorem modEvRing_moves (p r : Nat) (f : EventRing → EventRing) : (s.modEvRing p r f).moves = s.moves := rfl
@[simp] theorem modEvRing_nextMove (p r : Nat) (f : EventRing → EventRing) : (s.modEvRing p r f).nextMove = s.nextMove := rfl
@[simp] theorem modEvRing_t2 (p r : Nat) (f : EventRing → EventRing) : (s.modEvRing p r f).t2 = s.t2 := rfl
@[simp] theorem modEvRing_stepPorts (p r : Nat) (f : EventRing → EventRing) : (s.modEvRing p r f).stepPorts = s.stepPorts := rfl
@[simp] theorem modEvRing_commons (p r : Nat) (f : EventRing → EventRing) : (s.modEvRing p r f).commons = s.commons := rfl
@[simp] theorem modEvRing_partner (p r : Nat) (f : EventRing → EventRing) : (s.modEvRing p r f).partner = s.partner := rfl
@[simp] theorem modEvRing_flash (p r : Nat) (f : EventRing → EventRing) : (s.modEvRing p r f).flash = s.flash := rfl
@[simp] theorem modEvRing_flashSlice (p r : Nat) (f : EventRing → EventRing) : (s.modEvRing p r f).flashSlice = s.flashSlice := rfl
@[simp] theorem modEvRing_harvest (p r : Nat) (f : EventRing → EventRing) : (s.modEvRing p r f).harvest = s.harvest := rfl
@[simp] theorem modEvRing_recovery (p r : Nat) (f : EventRing → EventRing) : (s.modEvRing p r f).recovery = s.recovery := rfl
@[simp] theorem modEvRing_hearth (p r : Nat) (f : EventRing → EventRing) : (s.modEvRing p r f).hearth = s.hearth := rfl
@[simp] theorem modEvRing_security (p r : Nat) (f : EventRing → EventRing) : (s.modEvRing p r f).security = s.security := rfl
@[simp] theorem modEvRing_debugPort (p r : Nat) (f : EventRing → EventRing) : (s.modEvRing p r f).debugPort = s.debugPort := rfl
@[simp] theorem modEvRing_watchman (p r : Nat) (f : EventRing → EventRing) : (s.modEvRing p r f).watchman = s.watchman := rfl
@[simp] theorem modEvRing_board (p r : Nat) (f : EventRing → EventRing) : (s.modEvRing p r f).board = s.board := rfl
@[simp] theorem modEvRing_hwAt (p r : Nat) (f : EventRing → EventRing) : (s.modEvRing p r f).hwAt = s.hwAt := rfl
@[simp] theorem modEvRing_free (p r : Nat) (f : EventRing → EventRing) : (s.modEvRing p r f).free = s.free := rfl
@[simp] theorem modEvRing_out (p r : Nat) (f : EventRing → EventRing) : (s.modEvRing p r f).out = s.out := rfl
@[simp] theorem modEvRing_pending (p r : Nat) (f : EventRing → EventRing) : (s.modEvRing p r f).pending = s.pending := rfl

/-! ### Changing a Crier block. -/

@[simp] theorem modCrier_clock (p : Nat) (f : Crier → Crier) : (s.modCrier p f).clock = s.clock := rfl
@[simp] theorem modCrier_ident (p : Nat) (f : Crier → Crier) : (s.modCrier p f).ident = s.ident := rfl
@[simp] theorem modCrier_ladder (p : Nat) (f : Crier → Crier) : (s.modCrier p f).ladder = s.ladder := rfl
@[simp] theorem modCrier_adminMb (p : Nat) (f : Crier → Crier) : (s.modCrier p f).adminMb = s.adminMb := rfl
@[simp] theorem modCrier_sbMb (p : Nat) (f : Crier → Crier) : (s.modCrier p f).sbMb = s.sbMb := rfl
@[simp] theorem modCrier_reeveQueue (p : Nat) (f : Crier → Crier) : (s.modCrier p f).reeveQueue = s.reeveQueue := rfl
@[simp] theorem modCrier_nextTicket (p : Nat) (f : Crier → Crier) : (s.modCrier p f).nextTicket = s.nextTicket := rfl
@[simp] theorem modCrier_penGens (p : Nat) (f : Crier → Crier) : (s.modCrier p f).penGens = s.penGens := rfl
@[simp] theorem modCrier_crierArea (p : Nat) (f : Crier → Crier) : (s.modCrier p f).crierArea = s.crierArea := rfl
@[simp] theorem modCrier_fetchArb (p : Nat) (f : Crier → Crier) : (s.modCrier p f).fetchArb = s.fetchArb := rfl
@[simp] theorem modCrier_dispatchLast (p : Nat) (f : Crier → Crier) : (s.modCrier p f).dispatchLast = s.dispatchLast := rfl
@[simp] theorem modCrier_dispatched (p : Nat) (f : Crier → Crier) : (s.modCrier p f).dispatched = s.dispatched := rfl
@[simp] theorem modCrier_layouts (p : Nat) (f : Crier → Crier) : (s.modCrier p f).layouts = s.layouts := rfl
@[simp] theorem modCrier_slice (p : Nat) (f : Crier → Crier) : (s.modCrier p f).slice = s.slice := rfl
@[simp] theorem modCrier_sessions (p : Nat) (f : Crier → Crier) : (s.modCrier p f).sessions = s.sessions := rfl
@[simp] theorem modCrier_flocks (p : Nat) (f : Crier → Crier) : (s.modCrier p f).flocks = s.flocks := rfl
@[simp] theorem modCrier_moves (p : Nat) (f : Crier → Crier) : (s.modCrier p f).moves = s.moves := rfl
@[simp] theorem modCrier_nextMove (p : Nat) (f : Crier → Crier) : (s.modCrier p f).nextMove = s.nextMove := rfl
@[simp] theorem modCrier_t2 (p : Nat) (f : Crier → Crier) : (s.modCrier p f).t2 = s.t2 := rfl
@[simp] theorem modCrier_stepPorts (p : Nat) (f : Crier → Crier) : (s.modCrier p f).stepPorts = s.stepPorts := rfl
@[simp] theorem modCrier_commons (p : Nat) (f : Crier → Crier) : (s.modCrier p f).commons = s.commons := rfl
@[simp] theorem modCrier_partner (p : Nat) (f : Crier → Crier) : (s.modCrier p f).partner = s.partner := rfl
@[simp] theorem modCrier_flash (p : Nat) (f : Crier → Crier) : (s.modCrier p f).flash = s.flash := rfl
@[simp] theorem modCrier_flashSlice (p : Nat) (f : Crier → Crier) : (s.modCrier p f).flashSlice = s.flashSlice := rfl
@[simp] theorem modCrier_harvest (p : Nat) (f : Crier → Crier) : (s.modCrier p f).harvest = s.harvest := rfl
@[simp] theorem modCrier_recovery (p : Nat) (f : Crier → Crier) : (s.modCrier p f).recovery = s.recovery := rfl
@[simp] theorem modCrier_hearth (p : Nat) (f : Crier → Crier) : (s.modCrier p f).hearth = s.hearth := rfl
@[simp] theorem modCrier_security (p : Nat) (f : Crier → Crier) : (s.modCrier p f).security = s.security := rfl
@[simp] theorem modCrier_debugPort (p : Nat) (f : Crier → Crier) : (s.modCrier p f).debugPort = s.debugPort := rfl
@[simp] theorem modCrier_watchman (p : Nat) (f : Crier → Crier) : (s.modCrier p f).watchman = s.watchman := rfl
@[simp] theorem modCrier_board (p : Nat) (f : Crier → Crier) : (s.modCrier p f).board = s.board := rfl
@[simp] theorem modCrier_hwAt (p : Nat) (f : Crier → Crier) : (s.modCrier p f).hwAt = s.hwAt := rfl
@[simp] theorem modCrier_free (p : Nat) (f : Crier → Crier) : (s.modCrier p f).free = s.free := rfl
@[simp] theorem modCrier_out (p : Nat) (f : Crier → Crier) : (s.modCrier p f).out = s.out := rfl
@[simp] theorem modCrier_pending (p : Nat) (f : Crier → Crier) : (s.modCrier p f).pending = s.pending := rfl

/-! ### Changing a vector index. -/

@[simp] theorem modIndex_clock (p i : Nat) (f : Index → Index) : (s.modIndex p i f).clock = s.clock := rfl
@[simp] theorem modIndex_ident (p i : Nat) (f : Index → Index) : (s.modIndex p i f).ident = s.ident := rfl
@[simp] theorem modIndex_ladder (p i : Nat) (f : Index → Index) : (s.modIndex p i f).ladder = s.ladder := rfl
@[simp] theorem modIndex_adminMb (p i : Nat) (f : Index → Index) : (s.modIndex p i f).adminMb = s.adminMb := rfl
@[simp] theorem modIndex_sbMb (p i : Nat) (f : Index → Index) : (s.modIndex p i f).sbMb = s.sbMb := rfl
@[simp] theorem modIndex_reeveQueue (p i : Nat) (f : Index → Index) : (s.modIndex p i f).reeveQueue = s.reeveQueue := rfl
@[simp] theorem modIndex_nextTicket (p i : Nat) (f : Index → Index) : (s.modIndex p i f).nextTicket = s.nextTicket := rfl
@[simp] theorem modIndex_penGens (p i : Nat) (f : Index → Index) : (s.modIndex p i f).penGens = s.penGens := rfl
@[simp] theorem modIndex_crierArea (p i : Nat) (f : Index → Index) : (s.modIndex p i f).crierArea = s.crierArea := rfl
@[simp] theorem modIndex_fetchArb (p i : Nat) (f : Index → Index) : (s.modIndex p i f).fetchArb = s.fetchArb := rfl
@[simp] theorem modIndex_dispatchLast (p i : Nat) (f : Index → Index) : (s.modIndex p i f).dispatchLast = s.dispatchLast := rfl
@[simp] theorem modIndex_dispatched (p i : Nat) (f : Index → Index) : (s.modIndex p i f).dispatched = s.dispatched := rfl
@[simp] theorem modIndex_layouts (p i : Nat) (f : Index → Index) : (s.modIndex p i f).layouts = s.layouts := rfl
@[simp] theorem modIndex_slice (p i : Nat) (f : Index → Index) : (s.modIndex p i f).slice = s.slice := rfl
@[simp] theorem modIndex_sessions (p i : Nat) (f : Index → Index) : (s.modIndex p i f).sessions = s.sessions := rfl
@[simp] theorem modIndex_flocks (p i : Nat) (f : Index → Index) : (s.modIndex p i f).flocks = s.flocks := rfl
@[simp] theorem modIndex_moves (p i : Nat) (f : Index → Index) : (s.modIndex p i f).moves = s.moves := rfl
@[simp] theorem modIndex_nextMove (p i : Nat) (f : Index → Index) : (s.modIndex p i f).nextMove = s.nextMove := rfl
@[simp] theorem modIndex_t2 (p i : Nat) (f : Index → Index) : (s.modIndex p i f).t2 = s.t2 := rfl
@[simp] theorem modIndex_stepPorts (p i : Nat) (f : Index → Index) : (s.modIndex p i f).stepPorts = s.stepPorts := rfl
@[simp] theorem modIndex_commons (p i : Nat) (f : Index → Index) : (s.modIndex p i f).commons = s.commons := rfl
@[simp] theorem modIndex_partner (p i : Nat) (f : Index → Index) : (s.modIndex p i f).partner = s.partner := rfl
@[simp] theorem modIndex_flash (p i : Nat) (f : Index → Index) : (s.modIndex p i f).flash = s.flash := rfl
@[simp] theorem modIndex_flashSlice (p i : Nat) (f : Index → Index) : (s.modIndex p i f).flashSlice = s.flashSlice := rfl
@[simp] theorem modIndex_harvest (p i : Nat) (f : Index → Index) : (s.modIndex p i f).harvest = s.harvest := rfl
@[simp] theorem modIndex_recovery (p i : Nat) (f : Index → Index) : (s.modIndex p i f).recovery = s.recovery := rfl
@[simp] theorem modIndex_hearth (p i : Nat) (f : Index → Index) : (s.modIndex p i f).hearth = s.hearth := rfl
@[simp] theorem modIndex_security (p i : Nat) (f : Index → Index) : (s.modIndex p i f).security = s.security := rfl
@[simp] theorem modIndex_debugPort (p i : Nat) (f : Index → Index) : (s.modIndex p i f).debugPort = s.debugPort := rfl
@[simp] theorem modIndex_watchman (p i : Nat) (f : Index → Index) : (s.modIndex p i f).watchman = s.watchman := rfl
@[simp] theorem modIndex_board (p i : Nat) (f : Index → Index) : (s.modIndex p i f).board = s.board := rfl
@[simp] theorem modIndex_hwAt (p i : Nat) (f : Index → Index) : (s.modIndex p i f).hwAt = s.hwAt := rfl
@[simp] theorem modIndex_free (p i : Nat) (f : Index → Index) : (s.modIndex p i f).free = s.free := rfl
@[simp] theorem modIndex_out (p i : Nat) (f : Index → Index) : (s.modIndex p i f).out = s.out := rfl
@[simp] theorem modIndex_pending (p i : Nat) (f : Index → Index) : (s.modIndex p i f).pending = s.pending := rfl

/-! ### Time passing to a due cycle. -/

@[simp] theorem at_clock (t : Nat) : (s.at_ t).clock = { s.clock with now := max s.clock.now t } := rfl
@[simp] theorem at_ident (t : Nat) : (s.at_ t).ident = s.ident := rfl
@[simp] theorem at_ladder (t : Nat) : (s.at_ t).ladder = s.ladder := rfl
@[simp] theorem at_adminMb (t : Nat) : (s.at_ t).adminMb = s.adminMb := rfl
@[simp] theorem at_sbMb (t : Nat) : (s.at_ t).sbMb = s.sbMb := rfl
@[simp] theorem at_reeveQueue (t : Nat) : (s.at_ t).reeveQueue = s.reeveQueue := rfl
@[simp] theorem at_nextTicket (t : Nat) : (s.at_ t).nextTicket = s.nextTicket := rfl
@[simp] theorem at_pens (t : Nat) : (s.at_ t).pens = s.pens := rfl
@[simp] theorem at_penGens (t : Nat) : (s.at_ t).penGens = s.penGens := rfl
@[simp] theorem at_crierArea (t : Nat) : (s.at_ t).crierArea = s.crierArea := rfl
@[simp] theorem at_fetchArb (t : Nat) : (s.at_ t).fetchArb = s.fetchArb := rfl
@[simp] theorem at_dispatchLast (t : Nat) : (s.at_ t).dispatchLast = s.dispatchLast := rfl
@[simp] theorem at_dispatched (t : Nat) : (s.at_ t).dispatched = s.dispatched := rfl
@[simp] theorem at_layouts (t : Nat) : (s.at_ t).layouts = s.layouts := rfl
@[simp] theorem at_slice (t : Nat) : (s.at_ t).slice = s.slice := rfl
@[simp] theorem at_sessions (t : Nat) : (s.at_ t).sessions = s.sessions := rfl
@[simp] theorem at_flocks (t : Nat) : (s.at_ t).flocks = s.flocks := rfl
@[simp] theorem at_moves (t : Nat) : (s.at_ t).moves = s.moves := rfl
@[simp] theorem at_nextMove (t : Nat) : (s.at_ t).nextMove = s.nextMove := rfl
@[simp] theorem at_t2 (t : Nat) : (s.at_ t).t2 = s.t2 := rfl
@[simp] theorem at_stepPorts (t : Nat) : (s.at_ t).stepPorts = s.stepPorts := rfl
@[simp] theorem at_commons (t : Nat) : (s.at_ t).commons = s.commons := rfl
@[simp] theorem at_partner (t : Nat) : (s.at_ t).partner = s.partner := rfl
@[simp] theorem at_flash (t : Nat) : (s.at_ t).flash = s.flash := rfl
@[simp] theorem at_flashSlice (t : Nat) : (s.at_ t).flashSlice = s.flashSlice := rfl
@[simp] theorem at_harvest (t : Nat) : (s.at_ t).harvest = s.harvest := rfl
@[simp] theorem at_recovery (t : Nat) : (s.at_ t).recovery = s.recovery := rfl
@[simp] theorem at_hearth (t : Nat) : (s.at_ t).hearth = s.hearth := rfl
@[simp] theorem at_security (t : Nat) : (s.at_ t).security = s.security := rfl
@[simp] theorem at_debugPort (t : Nat) : (s.at_ t).debugPort = s.debugPort := rfl
@[simp] theorem at_watchman (t : Nat) : (s.at_ t).watchman = s.watchman := rfl
@[simp] theorem at_board (t : Nat) : (s.at_ t).board = s.board := rfl
@[simp] theorem at_hwAt (t : Nat) : (s.at_ t).hwAt = s.hwAt := rfl
@[simp] theorem at_free (t : Nat) : (s.at_ t).free = s.free := rfl
@[simp] theorem at_out (t : Nat) : (s.at_ t).out = s.out := rfl
@[simp] theorem at_pending (t : Nat) : (s.at_ t).pending = s.pending := rfl

/-! ### Changing a session. -/

@[simp] theorem modSess_clock (h : Handle) (f : Session → Session) : (s.modSess h f).clock = s.clock := rfl
@[simp] theorem modSess_ident (h : Handle) (f : Session → Session) : (s.modSess h f).ident = s.ident := rfl
@[simp] theorem modSess_ladder (h : Handle) (f : Session → Session) : (s.modSess h f).ladder = s.ladder := rfl
@[simp] theorem modSess_adminMb (h : Handle) (f : Session → Session) : (s.modSess h f).adminMb = s.adminMb := rfl
@[simp] theorem modSess_sbMb (h : Handle) (f : Session → Session) : (s.modSess h f).sbMb = s.sbMb := rfl
@[simp] theorem modSess_reeveQueue (h : Handle) (f : Session → Session) : (s.modSess h f).reeveQueue = s.reeveQueue := rfl
@[simp] theorem modSess_nextTicket (h : Handle) (f : Session → Session) : (s.modSess h f).nextTicket = s.nextTicket := rfl
@[simp] theorem modSess_pens (h : Handle) (f : Session → Session) : (s.modSess h f).pens = s.pens := rfl
@[simp] theorem modSess_penGens (h : Handle) (f : Session → Session) : (s.modSess h f).penGens = s.penGens := rfl
@[simp] theorem modSess_crierArea (h : Handle) (f : Session → Session) : (s.modSess h f).crierArea = s.crierArea := rfl
@[simp] theorem modSess_fetchArb (h : Handle) (f : Session → Session) : (s.modSess h f).fetchArb = s.fetchArb := rfl
@[simp] theorem modSess_dispatchLast (h : Handle) (f : Session → Session) : (s.modSess h f).dispatchLast = s.dispatchLast := rfl
@[simp] theorem modSess_dispatched (h : Handle) (f : Session → Session) : (s.modSess h f).dispatched = s.dispatched := rfl
@[simp] theorem modSess_layouts (h : Handle) (f : Session → Session) : (s.modSess h f).layouts = s.layouts := rfl
@[simp] theorem modSess_slice (h : Handle) (f : Session → Session) : (s.modSess h f).slice = s.slice := rfl
@[simp] theorem modSess_sessions (h : Handle) (f : Session → Session) : (s.modSess h f).sessions = assocMod h f s.sessions := rfl
@[simp] theorem modSess_flocks (h : Handle) (f : Session → Session) : (s.modSess h f).flocks = s.flocks := rfl
@[simp] theorem modSess_moves (h : Handle) (f : Session → Session) : (s.modSess h f).moves = s.moves := rfl
@[simp] theorem modSess_nextMove (h : Handle) (f : Session → Session) : (s.modSess h f).nextMove = s.nextMove := rfl
@[simp] theorem modSess_t2 (h : Handle) (f : Session → Session) : (s.modSess h f).t2 = s.t2 := rfl
@[simp] theorem modSess_stepPorts (h : Handle) (f : Session → Session) : (s.modSess h f).stepPorts = s.stepPorts := rfl
@[simp] theorem modSess_commons (h : Handle) (f : Session → Session) : (s.modSess h f).commons = s.commons := rfl
@[simp] theorem modSess_partner (h : Handle) (f : Session → Session) : (s.modSess h f).partner = s.partner := rfl
@[simp] theorem modSess_flash (h : Handle) (f : Session → Session) : (s.modSess h f).flash = s.flash := rfl
@[simp] theorem modSess_flashSlice (h : Handle) (f : Session → Session) : (s.modSess h f).flashSlice = s.flashSlice := rfl
@[simp] theorem modSess_harvest (h : Handle) (f : Session → Session) : (s.modSess h f).harvest = s.harvest := rfl
@[simp] theorem modSess_recovery (h : Handle) (f : Session → Session) : (s.modSess h f).recovery = s.recovery := rfl
@[simp] theorem modSess_hearth (h : Handle) (f : Session → Session) : (s.modSess h f).hearth = s.hearth := rfl
@[simp] theorem modSess_security (h : Handle) (f : Session → Session) : (s.modSess h f).security = s.security := rfl
@[simp] theorem modSess_debugPort (h : Handle) (f : Session → Session) : (s.modSess h f).debugPort = s.debugPort := rfl
@[simp] theorem modSess_watchman (h : Handle) (f : Session → Session) : (s.modSess h f).watchman = s.watchman := rfl
@[simp] theorem modSess_board (h : Handle) (f : Session → Session) : (s.modSess h f).board = s.board := rfl
@[simp] theorem modSess_hwAt (h : Handle) (f : Session → Session) : (s.modSess h f).hwAt = s.hwAt := rfl
@[simp] theorem modSess_free (h : Handle) (f : Session → Session) : (s.modSess h f).free = s.free := rfl
@[simp] theorem modSess_out (h : Handle) (f : Session → Session) : (s.modSess h f).out = s.out := rfl
@[simp] theorem modSess_pending (h : Handle) (f : Session → Session) : (s.modSess h f).pending = s.pending := rfl

/-! ### Changing a flock. -/

@[simp] theorem modFlock_clock (i : Nat) (f : Flock → Flock) : (s.modFlock i f).clock = s.clock := rfl
@[simp] theorem modFlock_ident (i : Nat) (f : Flock → Flock) : (s.modFlock i f).ident = s.ident := rfl
@[simp] theorem modFlock_ladder (i : Nat) (f : Flock → Flock) : (s.modFlock i f).ladder = s.ladder := rfl
@[simp] theorem modFlock_adminMb (i : Nat) (f : Flock → Flock) : (s.modFlock i f).adminMb = s.adminMb := rfl
@[simp] theorem modFlock_sbMb (i : Nat) (f : Flock → Flock) : (s.modFlock i f).sbMb = s.sbMb := rfl
@[simp] theorem modFlock_reeveQueue (i : Nat) (f : Flock → Flock) : (s.modFlock i f).reeveQueue = s.reeveQueue := rfl
@[simp] theorem modFlock_nextTicket (i : Nat) (f : Flock → Flock) : (s.modFlock i f).nextTicket = s.nextTicket := rfl
@[simp] theorem modFlock_pens (i : Nat) (f : Flock → Flock) : (s.modFlock i f).pens = s.pens := rfl
@[simp] theorem modFlock_penGens (i : Nat) (f : Flock → Flock) : (s.modFlock i f).penGens = s.penGens := rfl
@[simp] theorem modFlock_crierArea (i : Nat) (f : Flock → Flock) : (s.modFlock i f).crierArea = s.crierArea := rfl
@[simp] theorem modFlock_fetchArb (i : Nat) (f : Flock → Flock) : (s.modFlock i f).fetchArb = s.fetchArb := rfl
@[simp] theorem modFlock_dispatchLast (i : Nat) (f : Flock → Flock) : (s.modFlock i f).dispatchLast = s.dispatchLast := rfl
@[simp] theorem modFlock_dispatched (i : Nat) (f : Flock → Flock) : (s.modFlock i f).dispatched = s.dispatched := rfl
@[simp] theorem modFlock_layouts (i : Nat) (f : Flock → Flock) : (s.modFlock i f).layouts = s.layouts := rfl
@[simp] theorem modFlock_slice (i : Nat) (f : Flock → Flock) : (s.modFlock i f).slice = s.slice := rfl
@[simp] theorem modFlock_sessions (i : Nat) (f : Flock → Flock) : (s.modFlock i f).sessions = s.sessions := rfl
@[simp] theorem modFlock_flocks (i : Nat) (f : Flock → Flock) : (s.modFlock i f).flocks = assocMod i f s.flocks := rfl
@[simp] theorem modFlock_moves (i : Nat) (f : Flock → Flock) : (s.modFlock i f).moves = s.moves := rfl
@[simp] theorem modFlock_nextMove (i : Nat) (f : Flock → Flock) : (s.modFlock i f).nextMove = s.nextMove := rfl
@[simp] theorem modFlock_t2 (i : Nat) (f : Flock → Flock) : (s.modFlock i f).t2 = s.t2 := rfl
@[simp] theorem modFlock_stepPorts (i : Nat) (f : Flock → Flock) : (s.modFlock i f).stepPorts = s.stepPorts := rfl
@[simp] theorem modFlock_commons (i : Nat) (f : Flock → Flock) : (s.modFlock i f).commons = s.commons := rfl
@[simp] theorem modFlock_partner (i : Nat) (f : Flock → Flock) : (s.modFlock i f).partner = s.partner := rfl
@[simp] theorem modFlock_flash (i : Nat) (f : Flock → Flock) : (s.modFlock i f).flash = s.flash := rfl
@[simp] theorem modFlock_flashSlice (i : Nat) (f : Flock → Flock) : (s.modFlock i f).flashSlice = s.flashSlice := rfl
@[simp] theorem modFlock_harvest (i : Nat) (f : Flock → Flock) : (s.modFlock i f).harvest = s.harvest := rfl
@[simp] theorem modFlock_recovery (i : Nat) (f : Flock → Flock) : (s.modFlock i f).recovery = s.recovery := rfl
@[simp] theorem modFlock_hearth (i : Nat) (f : Flock → Flock) : (s.modFlock i f).hearth = s.hearth := rfl
@[simp] theorem modFlock_security (i : Nat) (f : Flock → Flock) : (s.modFlock i f).security = s.security := rfl
@[simp] theorem modFlock_debugPort (i : Nat) (f : Flock → Flock) : (s.modFlock i f).debugPort = s.debugPort := rfl
@[simp] theorem modFlock_watchman (i : Nat) (f : Flock → Flock) : (s.modFlock i f).watchman = s.watchman := rfl
@[simp] theorem modFlock_board (i : Nat) (f : Flock → Flock) : (s.modFlock i f).board = s.board := rfl
@[simp] theorem modFlock_hwAt (i : Nat) (f : Flock → Flock) : (s.modFlock i f).hwAt = s.hwAt := rfl
@[simp] theorem modFlock_free (i : Nat) (f : Flock → Flock) : (s.modFlock i f).free = s.free := rfl
@[simp] theorem modFlock_out (i : Nat) (f : Flock → Flock) : (s.modFlock i f).out = s.out := rfl
@[simp] theorem modFlock_pending (i : Nat) (f : Flock → Flock) : (s.modFlock i f).pending = s.pending := rfl

/-! ### Changing a lease. -/

@[simp] theorem modLease_clock (i l : Nat) (f : Lease → Lease) : (s.modLease i l f).clock = s.clock := rfl
@[simp] theorem modLease_ident (i l : Nat) (f : Lease → Lease) : (s.modLease i l f).ident = s.ident := rfl
@[simp] theorem modLease_ladder (i l : Nat) (f : Lease → Lease) : (s.modLease i l f).ladder = s.ladder := rfl
@[simp] theorem modLease_adminMb (i l : Nat) (f : Lease → Lease) : (s.modLease i l f).adminMb = s.adminMb := rfl
@[simp] theorem modLease_sbMb (i l : Nat) (f : Lease → Lease) : (s.modLease i l f).sbMb = s.sbMb := rfl
@[simp] theorem modLease_reeveQueue (i l : Nat) (f : Lease → Lease) : (s.modLease i l f).reeveQueue = s.reeveQueue := rfl
@[simp] theorem modLease_nextTicket (i l : Nat) (f : Lease → Lease) : (s.modLease i l f).nextTicket = s.nextTicket := rfl
@[simp] theorem modLease_pens (i l : Nat) (f : Lease → Lease) : (s.modLease i l f).pens = s.pens := rfl
@[simp] theorem modLease_penGens (i l : Nat) (f : Lease → Lease) : (s.modLease i l f).penGens = s.penGens := rfl
@[simp] theorem modLease_crierArea (i l : Nat) (f : Lease → Lease) : (s.modLease i l f).crierArea = s.crierArea := rfl
@[simp] theorem modLease_fetchArb (i l : Nat) (f : Lease → Lease) : (s.modLease i l f).fetchArb = s.fetchArb := rfl
@[simp] theorem modLease_dispatchLast (i l : Nat) (f : Lease → Lease) : (s.modLease i l f).dispatchLast = s.dispatchLast := rfl
@[simp] theorem modLease_dispatched (i l : Nat) (f : Lease → Lease) : (s.modLease i l f).dispatched = s.dispatched := rfl
@[simp] theorem modLease_layouts (i l : Nat) (f : Lease → Lease) : (s.modLease i l f).layouts = s.layouts := rfl
@[simp] theorem modLease_slice (i l : Nat) (f : Lease → Lease) : (s.modLease i l f).slice = s.slice := rfl
@[simp] theorem modLease_sessions (i l : Nat) (f : Lease → Lease) : (s.modLease i l f).sessions = s.sessions := rfl
@[simp] theorem modLease_moves (i l : Nat) (f : Lease → Lease) : (s.modLease i l f).moves = s.moves := rfl
@[simp] theorem modLease_nextMove (i l : Nat) (f : Lease → Lease) : (s.modLease i l f).nextMove = s.nextMove := rfl
@[simp] theorem modLease_t2 (i l : Nat) (f : Lease → Lease) : (s.modLease i l f).t2 = s.t2 := rfl
@[simp] theorem modLease_stepPorts (i l : Nat) (f : Lease → Lease) : (s.modLease i l f).stepPorts = s.stepPorts := rfl
@[simp] theorem modLease_commons (i l : Nat) (f : Lease → Lease) : (s.modLease i l f).commons = s.commons := rfl
@[simp] theorem modLease_partner (i l : Nat) (f : Lease → Lease) : (s.modLease i l f).partner = s.partner := rfl
@[simp] theorem modLease_flash (i l : Nat) (f : Lease → Lease) : (s.modLease i l f).flash = s.flash := rfl
@[simp] theorem modLease_flashSlice (i l : Nat) (f : Lease → Lease) : (s.modLease i l f).flashSlice = s.flashSlice := rfl
@[simp] theorem modLease_harvest (i l : Nat) (f : Lease → Lease) : (s.modLease i l f).harvest = s.harvest := rfl
@[simp] theorem modLease_recovery (i l : Nat) (f : Lease → Lease) : (s.modLease i l f).recovery = s.recovery := rfl
@[simp] theorem modLease_hearth (i l : Nat) (f : Lease → Lease) : (s.modLease i l f).hearth = s.hearth := rfl
@[simp] theorem modLease_security (i l : Nat) (f : Lease → Lease) : (s.modLease i l f).security = s.security := rfl
@[simp] theorem modLease_debugPort (i l : Nat) (f : Lease → Lease) : (s.modLease i l f).debugPort = s.debugPort := rfl
@[simp] theorem modLease_watchman (i l : Nat) (f : Lease → Lease) : (s.modLease i l f).watchman = s.watchman := rfl
@[simp] theorem modLease_board (i l : Nat) (f : Lease → Lease) : (s.modLease i l f).board = s.board := rfl
@[simp] theorem modLease_hwAt (i l : Nat) (f : Lease → Lease) : (s.modLease i l f).hwAt = s.hwAt := rfl
@[simp] theorem modLease_free (i l : Nat) (f : Lease → Lease) : (s.modLease i l f).free = s.free := rfl
@[simp] theorem modLease_out (i l : Nat) (f : Lease → Lease) : (s.modLease i l f).out = s.out := rfl
@[simp] theorem modLease_pending (i l : Nat) (f : Lease → Lease) : (s.modLease i l f).pending = s.pending := rfl

/-! ### Changing a move. -/

@[simp] theorem modMove_clock (i : Nat) (f : Move → Move) : (s.modMove i f).clock = s.clock := rfl
@[simp] theorem modMove_ident (i : Nat) (f : Move → Move) : (s.modMove i f).ident = s.ident := rfl
@[simp] theorem modMove_ladder (i : Nat) (f : Move → Move) : (s.modMove i f).ladder = s.ladder := rfl
@[simp] theorem modMove_adminMb (i : Nat) (f : Move → Move) : (s.modMove i f).adminMb = s.adminMb := rfl
@[simp] theorem modMove_sbMb (i : Nat) (f : Move → Move) : (s.modMove i f).sbMb = s.sbMb := rfl
@[simp] theorem modMove_reeveQueue (i : Nat) (f : Move → Move) : (s.modMove i f).reeveQueue = s.reeveQueue := rfl
@[simp] theorem modMove_nextTicket (i : Nat) (f : Move → Move) : (s.modMove i f).nextTicket = s.nextTicket := rfl
@[simp] theorem modMove_pens (i : Nat) (f : Move → Move) : (s.modMove i f).pens = s.pens := rfl
@[simp] theorem modMove_penGens (i : Nat) (f : Move → Move) : (s.modMove i f).penGens = s.penGens := rfl
@[simp] theorem modMove_crierArea (i : Nat) (f : Move → Move) : (s.modMove i f).crierArea = s.crierArea := rfl
@[simp] theorem modMove_fetchArb (i : Nat) (f : Move → Move) : (s.modMove i f).fetchArb = s.fetchArb := rfl
@[simp] theorem modMove_dispatchLast (i : Nat) (f : Move → Move) : (s.modMove i f).dispatchLast = s.dispatchLast := rfl
@[simp] theorem modMove_dispatched (i : Nat) (f : Move → Move) : (s.modMove i f).dispatched = s.dispatched := rfl
@[simp] theorem modMove_layouts (i : Nat) (f : Move → Move) : (s.modMove i f).layouts = s.layouts := rfl
@[simp] theorem modMove_slice (i : Nat) (f : Move → Move) : (s.modMove i f).slice = s.slice := rfl
@[simp] theorem modMove_sessions (i : Nat) (f : Move → Move) : (s.modMove i f).sessions = s.sessions := rfl
@[simp] theorem modMove_flocks (i : Nat) (f : Move → Move) : (s.modMove i f).flocks = s.flocks := rfl
@[simp] theorem modMove_nextMove (i : Nat) (f : Move → Move) : (s.modMove i f).nextMove = s.nextMove := rfl
@[simp] theorem modMove_t2 (i : Nat) (f : Move → Move) : (s.modMove i f).t2 = s.t2 := rfl
@[simp] theorem modMove_stepPorts (i : Nat) (f : Move → Move) : (s.modMove i f).stepPorts = s.stepPorts := rfl
@[simp] theorem modMove_commons (i : Nat) (f : Move → Move) : (s.modMove i f).commons = s.commons := rfl
@[simp] theorem modMove_partner (i : Nat) (f : Move → Move) : (s.modMove i f).partner = s.partner := rfl
@[simp] theorem modMove_flash (i : Nat) (f : Move → Move) : (s.modMove i f).flash = s.flash := rfl
@[simp] theorem modMove_flashSlice (i : Nat) (f : Move → Move) : (s.modMove i f).flashSlice = s.flashSlice := rfl
@[simp] theorem modMove_harvest (i : Nat) (f : Move → Move) : (s.modMove i f).harvest = s.harvest := rfl
@[simp] theorem modMove_recovery (i : Nat) (f : Move → Move) : (s.modMove i f).recovery = s.recovery := rfl
@[simp] theorem modMove_hearth (i : Nat) (f : Move → Move) : (s.modMove i f).hearth = s.hearth := rfl
@[simp] theorem modMove_security (i : Nat) (f : Move → Move) : (s.modMove i f).security = s.security := rfl
@[simp] theorem modMove_debugPort (i : Nat) (f : Move → Move) : (s.modMove i f).debugPort = s.debugPort := rfl
@[simp] theorem modMove_watchman (i : Nat) (f : Move → Move) : (s.modMove i f).watchman = s.watchman := rfl
@[simp] theorem modMove_board (i : Nat) (f : Move → Move) : (s.modMove i f).board = s.board := rfl
@[simp] theorem modMove_hwAt (i : Nat) (f : Move → Move) : (s.modMove i f).hwAt = s.hwAt := rfl
@[simp] theorem modMove_free (i : Nat) (f : Move → Move) : (s.modMove i f).free = s.free := rfl
@[simp] theorem modMove_out (i : Nat) (f : Move → Move) : (s.modMove i f).out = s.out := rfl
@[simp] theorem modMove_pending (i : Nat) (f : Move → Move) : (s.modMove i f).pending = s.pending := rfl

/-! ### Changing a Step Link port. -/

@[simp] theorem modStepPort_clock (p : Nat) (f : Port → Port) : (s.modStepPort p f).clock = s.clock := rfl
@[simp] theorem modStepPort_ident (p : Nat) (f : Port → Port) : (s.modStepPort p f).ident = s.ident := rfl
@[simp] theorem modStepPort_ladder (p : Nat) (f : Port → Port) : (s.modStepPort p f).ladder = s.ladder := rfl
@[simp] theorem modStepPort_adminMb (p : Nat) (f : Port → Port) : (s.modStepPort p f).adminMb = s.adminMb := rfl
@[simp] theorem modStepPort_sbMb (p : Nat) (f : Port → Port) : (s.modStepPort p f).sbMb = s.sbMb := rfl
@[simp] theorem modStepPort_reeveQueue (p : Nat) (f : Port → Port) : (s.modStepPort p f).reeveQueue = s.reeveQueue := rfl
@[simp] theorem modStepPort_nextTicket (p : Nat) (f : Port → Port) : (s.modStepPort p f).nextTicket = s.nextTicket := rfl
@[simp] theorem modStepPort_pens (p : Nat) (f : Port → Port) : (s.modStepPort p f).pens = s.pens := rfl
@[simp] theorem modStepPort_penGens (p : Nat) (f : Port → Port) : (s.modStepPort p f).penGens = s.penGens := rfl
@[simp] theorem modStepPort_crierArea (p : Nat) (f : Port → Port) : (s.modStepPort p f).crierArea = s.crierArea := rfl
@[simp] theorem modStepPort_fetchArb (p : Nat) (f : Port → Port) : (s.modStepPort p f).fetchArb = s.fetchArb := rfl
@[simp] theorem modStepPort_dispatchLast (p : Nat) (f : Port → Port) : (s.modStepPort p f).dispatchLast = s.dispatchLast := rfl
@[simp] theorem modStepPort_dispatched (p : Nat) (f : Port → Port) : (s.modStepPort p f).dispatched = s.dispatched := rfl
@[simp] theorem modStepPort_layouts (p : Nat) (f : Port → Port) : (s.modStepPort p f).layouts = s.layouts := rfl
@[simp] theorem modStepPort_slice (p : Nat) (f : Port → Port) : (s.modStepPort p f).slice = s.slice := rfl
@[simp] theorem modStepPort_sessions (p : Nat) (f : Port → Port) : (s.modStepPort p f).sessions = s.sessions := rfl
@[simp] theorem modStepPort_flocks (p : Nat) (f : Port → Port) : (s.modStepPort p f).flocks = s.flocks := rfl
@[simp] theorem modStepPort_moves (p : Nat) (f : Port → Port) : (s.modStepPort p f).moves = s.moves := rfl
@[simp] theorem modStepPort_nextMove (p : Nat) (f : Port → Port) : (s.modStepPort p f).nextMove = s.nextMove := rfl
@[simp] theorem modStepPort_t2 (p : Nat) (f : Port → Port) : (s.modStepPort p f).t2 = s.t2 := rfl
@[simp] theorem modStepPort_commons (p : Nat) (f : Port → Port) : (s.modStepPort p f).commons = s.commons := rfl
@[simp] theorem modStepPort_partner (p : Nat) (f : Port → Port) : (s.modStepPort p f).partner = s.partner := rfl
@[simp] theorem modStepPort_flash (p : Nat) (f : Port → Port) : (s.modStepPort p f).flash = s.flash := rfl
@[simp] theorem modStepPort_flashSlice (p : Nat) (f : Port → Port) : (s.modStepPort p f).flashSlice = s.flashSlice := rfl
@[simp] theorem modStepPort_harvest (p : Nat) (f : Port → Port) : (s.modStepPort p f).harvest = s.harvest := rfl
@[simp] theorem modStepPort_recovery (p : Nat) (f : Port → Port) : (s.modStepPort p f).recovery = s.recovery := rfl
@[simp] theorem modStepPort_hearth (p : Nat) (f : Port → Port) : (s.modStepPort p f).hearth = s.hearth := rfl
@[simp] theorem modStepPort_security (p : Nat) (f : Port → Port) : (s.modStepPort p f).security = s.security := rfl
@[simp] theorem modStepPort_debugPort (p : Nat) (f : Port → Port) : (s.modStepPort p f).debugPort = s.debugPort := rfl
@[simp] theorem modStepPort_watchman (p : Nat) (f : Port → Port) : (s.modStepPort p f).watchman = s.watchman := rfl
@[simp] theorem modStepPort_board (p : Nat) (f : Port → Port) : (s.modStepPort p f).board = s.board := rfl
@[simp] theorem modStepPort_hwAt (p : Nat) (f : Port → Port) : (s.modStepPort p f).hwAt = s.hwAt := rfl
@[simp] theorem modStepPort_free (p : Nat) (f : Port → Port) : (s.modStepPort p f).free = s.free := rfl
@[simp] theorem modStepPort_out (p : Nat) (f : Port → Port) : (s.modStepPort p f).out = s.out := rfl
@[simp] theorem modStepPort_pending (p : Nat) (f : Port → Port) : (s.modStepPort p f).pending = s.pending := rfl

/-! ### Changing an outstanding request. -/

@[simp] theorem modRequest_clock (i : Nat) (f : Request → Request) : (s.modRequest i f).clock = s.clock := rfl
@[simp] theorem modRequest_ident (i : Nat) (f : Request → Request) : (s.modRequest i f).ident = s.ident := rfl
@[simp] theorem modRequest_ladder (i : Nat) (f : Request → Request) : (s.modRequest i f).ladder = s.ladder := rfl
@[simp] theorem modRequest_adminMb (i : Nat) (f : Request → Request) : (s.modRequest i f).adminMb = s.adminMb := rfl
@[simp] theorem modRequest_sbMb (i : Nat) (f : Request → Request) : (s.modRequest i f).sbMb = s.sbMb := rfl
@[simp] theorem modRequest_reeveQueue (i : Nat) (f : Request → Request) : (s.modRequest i f).reeveQueue = s.reeveQueue := rfl
@[simp] theorem modRequest_nextTicket (i : Nat) (f : Request → Request) : (s.modRequest i f).nextTicket = s.nextTicket := rfl
@[simp] theorem modRequest_pens (i : Nat) (f : Request → Request) : (s.modRequest i f).pens = s.pens := rfl
@[simp] theorem modRequest_penGens (i : Nat) (f : Request → Request) : (s.modRequest i f).penGens = s.penGens := rfl
@[simp] theorem modRequest_crierArea (i : Nat) (f : Request → Request) : (s.modRequest i f).crierArea = s.crierArea := rfl
@[simp] theorem modRequest_fetchArb (i : Nat) (f : Request → Request) : (s.modRequest i f).fetchArb = s.fetchArb := rfl
@[simp] theorem modRequest_dispatchLast (i : Nat) (f : Request → Request) : (s.modRequest i f).dispatchLast = s.dispatchLast := rfl
@[simp] theorem modRequest_dispatched (i : Nat) (f : Request → Request) : (s.modRequest i f).dispatched = s.dispatched := rfl
@[simp] theorem modRequest_layouts (i : Nat) (f : Request → Request) : (s.modRequest i f).layouts = s.layouts := rfl
@[simp] theorem modRequest_slice (i : Nat) (f : Request → Request) : (s.modRequest i f).slice = s.slice := rfl
@[simp] theorem modRequest_sessions (i : Nat) (f : Request → Request) : (s.modRequest i f).sessions = s.sessions := rfl
@[simp] theorem modRequest_flocks (i : Nat) (f : Request → Request) : (s.modRequest i f).flocks = s.flocks := rfl
@[simp] theorem modRequest_moves (i : Nat) (f : Request → Request) : (s.modRequest i f).moves = s.moves := rfl
@[simp] theorem modRequest_nextMove (i : Nat) (f : Request → Request) : (s.modRequest i f).nextMove = s.nextMove := rfl
@[simp] theorem modRequest_t2 (i : Nat) (f : Request → Request) : (s.modRequest i f).t2 = s.t2 := rfl
@[simp] theorem modRequest_stepPorts (i : Nat) (f : Request → Request) : (s.modRequest i f).stepPorts = s.stepPorts := rfl
@[simp] theorem modRequest_partner (i : Nat) (f : Request → Request) : (s.modRequest i f).partner = s.partner := rfl
@[simp] theorem modRequest_flash (i : Nat) (f : Request → Request) : (s.modRequest i f).flash = s.flash := rfl
@[simp] theorem modRequest_flashSlice (i : Nat) (f : Request → Request) : (s.modRequest i f).flashSlice = s.flashSlice := rfl
@[simp] theorem modRequest_harvest (i : Nat) (f : Request → Request) : (s.modRequest i f).harvest = s.harvest := rfl
@[simp] theorem modRequest_recovery (i : Nat) (f : Request → Request) : (s.modRequest i f).recovery = s.recovery := rfl
@[simp] theorem modRequest_hearth (i : Nat) (f : Request → Request) : (s.modRequest i f).hearth = s.hearth := rfl
@[simp] theorem modRequest_security (i : Nat) (f : Request → Request) : (s.modRequest i f).security = s.security := rfl
@[simp] theorem modRequest_debugPort (i : Nat) (f : Request → Request) : (s.modRequest i f).debugPort = s.debugPort := rfl
@[simp] theorem modRequest_watchman (i : Nat) (f : Request → Request) : (s.modRequest i f).watchman = s.watchman := rfl
@[simp] theorem modRequest_board (i : Nat) (f : Request → Request) : (s.modRequest i f).board = s.board := rfl
@[simp] theorem modRequest_hwAt (i : Nat) (f : Request → Request) : (s.modRequest i f).hwAt = s.hwAt := rfl
@[simp] theorem modRequest_free (i : Nat) (f : Request → Request) : (s.modRequest i f).free = s.free := rfl
@[simp] theorem modRequest_out (i : Nat) (f : Request → Request) : (s.modRequest i f).out = s.out := rfl
@[simp] theorem modRequest_pending (i : Nat) (f : Request → Request) : (s.modRequest i f).pending = s.pending := rfl

/-! ### Changing the stream of a source. -/

@[simp] theorem modStream_clock (n : Nat) (f : InStream → InStream) : (s.modStream n f).clock = s.clock := rfl
@[simp] theorem modStream_ident (n : Nat) (f : InStream → InStream) : (s.modStream n f).ident = s.ident := rfl
@[simp] theorem modStream_ladder (n : Nat) (f : InStream → InStream) : (s.modStream n f).ladder = s.ladder := rfl
@[simp] theorem modStream_adminMb (n : Nat) (f : InStream → InStream) : (s.modStream n f).adminMb = s.adminMb := rfl
@[simp] theorem modStream_sbMb (n : Nat) (f : InStream → InStream) : (s.modStream n f).sbMb = s.sbMb := rfl
@[simp] theorem modStream_reeveQueue (n : Nat) (f : InStream → InStream) : (s.modStream n f).reeveQueue = s.reeveQueue := rfl
@[simp] theorem modStream_nextTicket (n : Nat) (f : InStream → InStream) : (s.modStream n f).nextTicket = s.nextTicket := rfl
@[simp] theorem modStream_pens (n : Nat) (f : InStream → InStream) : (s.modStream n f).pens = s.pens := rfl
@[simp] theorem modStream_penGens (n : Nat) (f : InStream → InStream) : (s.modStream n f).penGens = s.penGens := rfl
@[simp] theorem modStream_crierArea (n : Nat) (f : InStream → InStream) : (s.modStream n f).crierArea = s.crierArea := rfl
@[simp] theorem modStream_fetchArb (n : Nat) (f : InStream → InStream) : (s.modStream n f).fetchArb = s.fetchArb := rfl
@[simp] theorem modStream_dispatchLast (n : Nat) (f : InStream → InStream) : (s.modStream n f).dispatchLast = s.dispatchLast := rfl
@[simp] theorem modStream_dispatched (n : Nat) (f : InStream → InStream) : (s.modStream n f).dispatched = s.dispatched := rfl
@[simp] theorem modStream_layouts (n : Nat) (f : InStream → InStream) : (s.modStream n f).layouts = s.layouts := rfl
@[simp] theorem modStream_slice (n : Nat) (f : InStream → InStream) : (s.modStream n f).slice = s.slice := rfl
@[simp] theorem modStream_sessions (n : Nat) (f : InStream → InStream) : (s.modStream n f).sessions = s.sessions := rfl
@[simp] theorem modStream_flocks (n : Nat) (f : InStream → InStream) : (s.modStream n f).flocks = s.flocks := rfl
@[simp] theorem modStream_moves (n : Nat) (f : InStream → InStream) : (s.modStream n f).moves = s.moves := rfl
@[simp] theorem modStream_nextMove (n : Nat) (f : InStream → InStream) : (s.modStream n f).nextMove = s.nextMove := rfl
@[simp] theorem modStream_t2 (n : Nat) (f : InStream → InStream) : (s.modStream n f).t2 = s.t2 := rfl
@[simp] theorem modStream_stepPorts (n : Nat) (f : InStream → InStream) : (s.modStream n f).stepPorts = s.stepPorts := rfl
@[simp] theorem modStream_partner (n : Nat) (f : InStream → InStream) : (s.modStream n f).partner = s.partner := rfl
@[simp] theorem modStream_flash (n : Nat) (f : InStream → InStream) : (s.modStream n f).flash = s.flash := rfl
@[simp] theorem modStream_flashSlice (n : Nat) (f : InStream → InStream) : (s.modStream n f).flashSlice = s.flashSlice := rfl
@[simp] theorem modStream_harvest (n : Nat) (f : InStream → InStream) : (s.modStream n f).harvest = s.harvest := rfl
@[simp] theorem modStream_recovery (n : Nat) (f : InStream → InStream) : (s.modStream n f).recovery = s.recovery := rfl
@[simp] theorem modStream_hearth (n : Nat) (f : InStream → InStream) : (s.modStream n f).hearth = s.hearth := rfl
@[simp] theorem modStream_security (n : Nat) (f : InStream → InStream) : (s.modStream n f).security = s.security := rfl
@[simp] theorem modStream_debugPort (n : Nat) (f : InStream → InStream) : (s.modStream n f).debugPort = s.debugPort := rfl
@[simp] theorem modStream_watchman (n : Nat) (f : InStream → InStream) : (s.modStream n f).watchman = s.watchman := rfl
@[simp] theorem modStream_board (n : Nat) (f : InStream → InStream) : (s.modStream n f).board = s.board := rfl
@[simp] theorem modStream_hwAt (n : Nat) (f : InStream → InStream) : (s.modStream n f).hwAt = s.hwAt := rfl
@[simp] theorem modStream_free (n : Nat) (f : InStream → InStream) : (s.modStream n f).free = s.free := rfl
@[simp] theorem modStream_out (n : Nat) (f : InStream → InStream) : (s.modStream n f).out = s.out := rfl
@[simp] theorem modStream_pending (n : Nat) (f : InStream → InStream) : (s.modStream n f).pending = s.pending := rfl

/-! ### Counting in the device's record. -/

@[simp] theorem bumpDev_clock (c : DevCtr) (n : Nat) : (s.bumpDev c n).clock = s.clock := rfl
@[simp] theorem bumpDev_ident (c : DevCtr) (n : Nat) : (s.bumpDev c n).ident = s.ident := rfl
@[simp] theorem bumpDev_ladder (c : DevCtr) (n : Nat) : (s.bumpDev c n).ladder = s.ladder := rfl
@[simp] theorem bumpDev_adminMb (c : DevCtr) (n : Nat) : (s.bumpDev c n).adminMb = s.adminMb := rfl
@[simp] theorem bumpDev_sbMb (c : DevCtr) (n : Nat) : (s.bumpDev c n).sbMb = s.sbMb := rfl
@[simp] theorem bumpDev_reeveQueue (c : DevCtr) (n : Nat) : (s.bumpDev c n).reeveQueue = s.reeveQueue := rfl
@[simp] theorem bumpDev_nextTicket (c : DevCtr) (n : Nat) : (s.bumpDev c n).nextTicket = s.nextTicket := rfl
@[simp] theorem bumpDev_pens (c : DevCtr) (n : Nat) : (s.bumpDev c n).pens = s.pens := rfl
@[simp] theorem bumpDev_penGens (c : DevCtr) (n : Nat) : (s.bumpDev c n).penGens = s.penGens := rfl
@[simp] theorem bumpDev_crierArea (c : DevCtr) (n : Nat) : (s.bumpDev c n).crierArea = s.crierArea := rfl
@[simp] theorem bumpDev_fetchArb (c : DevCtr) (n : Nat) : (s.bumpDev c n).fetchArb = s.fetchArb := rfl
@[simp] theorem bumpDev_dispatchLast (c : DevCtr) (n : Nat) : (s.bumpDev c n).dispatchLast = s.dispatchLast := rfl
@[simp] theorem bumpDev_dispatched (c : DevCtr) (n : Nat) : (s.bumpDev c n).dispatched = s.dispatched := rfl
@[simp] theorem bumpDev_layouts (c : DevCtr) (n : Nat) : (s.bumpDev c n).layouts = s.layouts := rfl
@[simp] theorem bumpDev_slice (c : DevCtr) (n : Nat) : (s.bumpDev c n).slice = s.slice := rfl
@[simp] theorem bumpDev_sessions (c : DevCtr) (n : Nat) : (s.bumpDev c n).sessions = s.sessions := rfl
@[simp] theorem bumpDev_flocks (c : DevCtr) (n : Nat) : (s.bumpDev c n).flocks = s.flocks := rfl
@[simp] theorem bumpDev_moves (c : DevCtr) (n : Nat) : (s.bumpDev c n).moves = s.moves := rfl
@[simp] theorem bumpDev_nextMove (c : DevCtr) (n : Nat) : (s.bumpDev c n).nextMove = s.nextMove := rfl
@[simp] theorem bumpDev_t2 (c : DevCtr) (n : Nat) : (s.bumpDev c n).t2 = s.t2 := rfl
@[simp] theorem bumpDev_stepPorts (c : DevCtr) (n : Nat) : (s.bumpDev c n).stepPorts = s.stepPorts := rfl
@[simp] theorem bumpDev_commons (c : DevCtr) (n : Nat) : (s.bumpDev c n).commons = s.commons := rfl
@[simp] theorem bumpDev_partner (c : DevCtr) (n : Nat) : (s.bumpDev c n).partner = s.partner := rfl
@[simp] theorem bumpDev_flash (c : DevCtr) (n : Nat) : (s.bumpDev c n).flash = s.flash := rfl
@[simp] theorem bumpDev_flashSlice (c : DevCtr) (n : Nat) : (s.bumpDev c n).flashSlice = s.flashSlice := rfl
@[simp] theorem bumpDev_harvest (c : DevCtr) (n : Nat) : (s.bumpDev c n).harvest = s.harvest := rfl
@[simp] theorem bumpDev_hearth (c : DevCtr) (n : Nat) : (s.bumpDev c n).hearth = s.hearth := rfl
@[simp] theorem bumpDev_security (c : DevCtr) (n : Nat) : (s.bumpDev c n).security = s.security := rfl
@[simp] theorem bumpDev_debugPort (c : DevCtr) (n : Nat) : (s.bumpDev c n).debugPort = s.debugPort := rfl
@[simp] theorem bumpDev_watchman (c : DevCtr) (n : Nat) : (s.bumpDev c n).watchman = s.watchman := rfl
@[simp] theorem bumpDev_board (c : DevCtr) (n : Nat) : (s.bumpDev c n).board = s.board := rfl
@[simp] theorem bumpDev_hwAt (c : DevCtr) (n : Nat) : (s.bumpDev c n).hwAt = s.hwAt := rfl
@[simp] theorem bumpDev_free (c : DevCtr) (n : Nat) : (s.bumpDev c n).free = s.free := rfl
@[simp] theorem bumpDev_out (c : DevCtr) (n : Nat) : (s.bumpDev c n).out = s.out := rfl
@[simp] theorem bumpDev_pending (c : DevCtr) (n : Nat) : (s.bumpDev c n).pending = s.pending := rfl

/-! ### Setting a power domain. -/

@[simp] theorem setDomain_clock (d : Nat) (x : Domain) : (s.setDomain d x).clock = s.clock := rfl
@[simp] theorem setDomain_ident (d : Nat) (x : Domain) : (s.setDomain d x).ident = s.ident := rfl
@[simp] theorem setDomain_ladder (d : Nat) (x : Domain) : (s.setDomain d x).ladder = s.ladder := rfl
@[simp] theorem setDomain_adminMb (d : Nat) (x : Domain) : (s.setDomain d x).adminMb = s.adminMb := rfl
@[simp] theorem setDomain_sbMb (d : Nat) (x : Domain) : (s.setDomain d x).sbMb = s.sbMb := rfl
@[simp] theorem setDomain_reeveQueue (d : Nat) (x : Domain) : (s.setDomain d x).reeveQueue = s.reeveQueue := rfl
@[simp] theorem setDomain_nextTicket (d : Nat) (x : Domain) : (s.setDomain d x).nextTicket = s.nextTicket := rfl
@[simp] theorem setDomain_pens (d : Nat) (x : Domain) : (s.setDomain d x).pens = s.pens := rfl
@[simp] theorem setDomain_penGens (d : Nat) (x : Domain) : (s.setDomain d x).penGens = s.penGens := rfl
@[simp] theorem setDomain_crierArea (d : Nat) (x : Domain) : (s.setDomain d x).crierArea = s.crierArea := rfl
@[simp] theorem setDomain_fetchArb (d : Nat) (x : Domain) : (s.setDomain d x).fetchArb = s.fetchArb := rfl
@[simp] theorem setDomain_dispatchLast (d : Nat) (x : Domain) : (s.setDomain d x).dispatchLast = s.dispatchLast := rfl
@[simp] theorem setDomain_dispatched (d : Nat) (x : Domain) : (s.setDomain d x).dispatched = s.dispatched := rfl
@[simp] theorem setDomain_layouts (d : Nat) (x : Domain) : (s.setDomain d x).layouts = s.layouts := rfl
@[simp] theorem setDomain_slice (d : Nat) (x : Domain) : (s.setDomain d x).slice = s.slice := rfl
@[simp] theorem setDomain_sessions (d : Nat) (x : Domain) : (s.setDomain d x).sessions = s.sessions := rfl
@[simp] theorem setDomain_flocks (d : Nat) (x : Domain) : (s.setDomain d x).flocks = s.flocks := rfl
@[simp] theorem setDomain_moves (d : Nat) (x : Domain) : (s.setDomain d x).moves = s.moves := rfl
@[simp] theorem setDomain_nextMove (d : Nat) (x : Domain) : (s.setDomain d x).nextMove = s.nextMove := rfl
@[simp] theorem setDomain_t2 (d : Nat) (x : Domain) : (s.setDomain d x).t2 = s.t2 := rfl
@[simp] theorem setDomain_stepPorts (d : Nat) (x : Domain) : (s.setDomain d x).stepPorts = s.stepPorts := rfl
@[simp] theorem setDomain_commons (d : Nat) (x : Domain) : (s.setDomain d x).commons = s.commons := rfl
@[simp] theorem setDomain_partner (d : Nat) (x : Domain) : (s.setDomain d x).partner = s.partner := rfl
@[simp] theorem setDomain_flash (d : Nat) (x : Domain) : (s.setDomain d x).flash = s.flash := rfl
@[simp] theorem setDomain_flashSlice (d : Nat) (x : Domain) : (s.setDomain d x).flashSlice = s.flashSlice := rfl
@[simp] theorem setDomain_harvest (d : Nat) (x : Domain) : (s.setDomain d x).harvest = s.harvest := rfl
@[simp] theorem setDomain_recovery (d : Nat) (x : Domain) : (s.setDomain d x).recovery = s.recovery := rfl
@[simp] theorem setDomain_security (d : Nat) (x : Domain) : (s.setDomain d x).security = s.security := rfl
@[simp] theorem setDomain_debugPort (d : Nat) (x : Domain) : (s.setDomain d x).debugPort = s.debugPort := rfl
@[simp] theorem setDomain_watchman (d : Nat) (x : Domain) : (s.setDomain d x).watchman = s.watchman := rfl
@[simp] theorem setDomain_board (d : Nat) (x : Domain) : (s.setDomain d x).board = s.board := rfl
@[simp] theorem setDomain_hwAt (d : Nat) (x : Domain) : (s.setDomain d x).hwAt = s.hwAt := rfl
@[simp] theorem setDomain_free (d : Nat) (x : Domain) : (s.setDomain d x).free = s.free := rfl
@[simp] theorem setDomain_out (d : Nat) (x : Domain) : (s.setDomain d x).out = s.out := rfl
@[simp] theorem setDomain_pending (d : Nat) (x : Domain) : (s.setDomain d x).pending = s.pending := rfl

/-! ### Changing the debug port. -/

@[simp] theorem modDebug_clock (f : Debug → Debug) : (s.modDebug f).clock = s.clock := rfl
@[simp] theorem modDebug_ident (f : Debug → Debug) : (s.modDebug f).ident = s.ident := rfl
@[simp] theorem modDebug_ladder (f : Debug → Debug) : (s.modDebug f).ladder = s.ladder := rfl
@[simp] theorem modDebug_adminMb (f : Debug → Debug) : (s.modDebug f).adminMb = s.adminMb := rfl
@[simp] theorem modDebug_sbMb (f : Debug → Debug) : (s.modDebug f).sbMb = s.sbMb := rfl
@[simp] theorem modDebug_reeveQueue (f : Debug → Debug) : (s.modDebug f).reeveQueue = s.reeveQueue := rfl
@[simp] theorem modDebug_nextTicket (f : Debug → Debug) : (s.modDebug f).nextTicket = s.nextTicket := rfl
@[simp] theorem modDebug_pens (f : Debug → Debug) : (s.modDebug f).pens = s.pens := rfl
@[simp] theorem modDebug_penGens (f : Debug → Debug) : (s.modDebug f).penGens = s.penGens := rfl
@[simp] theorem modDebug_crierArea (f : Debug → Debug) : (s.modDebug f).crierArea = s.crierArea := rfl
@[simp] theorem modDebug_fetchArb (f : Debug → Debug) : (s.modDebug f).fetchArb = s.fetchArb := rfl
@[simp] theorem modDebug_dispatchLast (f : Debug → Debug) : (s.modDebug f).dispatchLast = s.dispatchLast := rfl
@[simp] theorem modDebug_dispatched (f : Debug → Debug) : (s.modDebug f).dispatched = s.dispatched := rfl
@[simp] theorem modDebug_layouts (f : Debug → Debug) : (s.modDebug f).layouts = s.layouts := rfl
@[simp] theorem modDebug_slice (f : Debug → Debug) : (s.modDebug f).slice = s.slice := rfl
@[simp] theorem modDebug_sessions (f : Debug → Debug) : (s.modDebug f).sessions = s.sessions := rfl
@[simp] theorem modDebug_flocks (f : Debug → Debug) : (s.modDebug f).flocks = s.flocks := rfl
@[simp] theorem modDebug_moves (f : Debug → Debug) : (s.modDebug f).moves = s.moves := rfl
@[simp] theorem modDebug_nextMove (f : Debug → Debug) : (s.modDebug f).nextMove = s.nextMove := rfl
@[simp] theorem modDebug_t2 (f : Debug → Debug) : (s.modDebug f).t2 = s.t2 := rfl
@[simp] theorem modDebug_stepPorts (f : Debug → Debug) : (s.modDebug f).stepPorts = s.stepPorts := rfl
@[simp] theorem modDebug_commons (f : Debug → Debug) : (s.modDebug f).commons = s.commons := rfl
@[simp] theorem modDebug_partner (f : Debug → Debug) : (s.modDebug f).partner = s.partner := rfl
@[simp] theorem modDebug_flash (f : Debug → Debug) : (s.modDebug f).flash = s.flash := rfl
@[simp] theorem modDebug_flashSlice (f : Debug → Debug) : (s.modDebug f).flashSlice = s.flashSlice := rfl
@[simp] theorem modDebug_harvest (f : Debug → Debug) : (s.modDebug f).harvest = s.harvest := rfl
@[simp] theorem modDebug_recovery (f : Debug → Debug) : (s.modDebug f).recovery = s.recovery := rfl
@[simp] theorem modDebug_hearth (f : Debug → Debug) : (s.modDebug f).hearth = s.hearth := rfl
@[simp] theorem modDebug_security (f : Debug → Debug) : (s.modDebug f).security = s.security := rfl
@[simp] theorem modDebug_debugPort (f : Debug → Debug) : (s.modDebug f).debugPort = f s.debugPort := rfl
@[simp] theorem modDebug_watchman (f : Debug → Debug) : (s.modDebug f).watchman = s.watchman := rfl
@[simp] theorem modDebug_board (f : Debug → Debug) : (s.modDebug f).board = s.board := rfl
@[simp] theorem modDebug_hwAt (f : Debug → Debug) : (s.modDebug f).hwAt = s.hwAt := rfl
@[simp] theorem modDebug_free (f : Debug → Debug) : (s.modDebug f).free = s.free := rfl
@[simp] theorem modDebug_out (f : Debug → Debug) : (s.modDebug f).out = s.out := rfl
@[simp] theorem modDebug_pending (f : Debug → Debug) : (s.modDebug f).pending = s.pending := rfl

end Sys2Proof.Laws
end

