-- ==== Sys2Proof/Tests/Slice0.lean ====
section
/-!
SUPPORT. Tests of the model: the checks of well-formedness, and, for each statement with hypotheses, a concrete state and
operands that meet them together.
-/
set_option Elab.async false
namespace Sys2Proof.Tests
open Sys2Proof Sys2Proof.Machine Sys2Proof.Safety

/-! ### Small states and operands -/

/-- A descriptor: opcode, TAG, handle, operands as (offset, bytes, value). -/
def desc (op : Nat) (h : Handle) (ops : List (Nat × Nat × Nat)) : Desc :=
  BitVec.ofNat 512 (op + 0x11 * 2 ^ 32 + h.toNat * 2 ^ 64 + (ops.map fun o => o.2.2 % 2 ^ (8 * o.2.1) * 2 ^ (128 + 8 * o.1)).sum)

/-- A ring that runs, with room in both queues. -/
def ring0 : Ring :=
  { sqBase := 0x10000, cqBase := 0x20000, sqLog2 := 6, cqLog2 := 6, eventRing := none, latencyCritical := false, tc := 5000
    tp := 5000, toll := { cir := 100, pir := 100, cbs := 10000, pbs := 10000, overhead := 0, colourAware := false
                          preColourYellow := false, hold := false, sampleLog2 := 10 } }

/-- A pen with quotas and ring 4095. -/
def pen0 : Pen :=
  { cfg := { t1Quota := 2 ^ 32, t2Quota := 2 ^ 32, sessionsMax := 8, ringsMax := 4 }, rings := [(4095, ring0)] }

/-- A serving device of node 5 with every domain in RUN, and pens 0 and 1023. -/
def srv : State :=
  { State.reset with
    ident := { devState := .serving, nodeNumber := 5, nodeValid := true }
    board := { porst := false, served := true }
    clock := { now := 2 ^ 22 }
    hearth := { domains := (List.range 106).map fun d => (d, { state := .run }) }
    pens := [(0, { cfg := { sessionsMax := 8, ringsMax := 4 } }), (1023, pen0)] }

/-- The admin context, and the context of pen 1023. -/
def adm : Req := { ctx := 0x400 }
def own : Req := { ctx := 1023 }

/-- `s` with a command waiting in mailbox `mb`, and that command. -/
def mbCmd (d : Desc) (payload : List (Nat × Byte) := []) : MbCmd := { ticket := 7, seq := 3, desc := d, payload := payload, at_ := 0 }
def mbWith (s : State) (mb : Mb) (c : MbCmd) : State :=
  { s.modMb mb fun m => { m with cmd := some c, busy := true, ticket := c.ticket } with
    reeveQueue := if mbAdmin mb then [(mb, c.ticket)] else [] }

/-- `s` with a command of ring 4095 of pen 1023 dispatched, and that command. -/
def ringCmd (d : Desc) : RingCmd := { pen := 1023, ring := 4095, serial := 9, desc := d }
def ringWith (s : State) (c : RingCmd) : State := { s with dispatched := [c] }

/-! ### Well-formedness refuses -/

/-- A requester context of 12 bits. -/
theorem test_wf_context : (Instr.healthRead { ctx := 2048 }).wellFormed = false := rfl
/-- An access beyond the window. -/
theorem test_wf_window : (Instr.hostRegisterWrite adm (2 ^ 29) [0]).wellFormed = false
    ∧ (Instr.hostAccessError adm (2 ^ 29) 8 true).wellFormed = false := by decide
/-- Pen 1024 and ring 4096. -/
theorem test_wf_pen_ring : (Instr.doorbell adm 1024 0 0).wellFormed = false ∧ (Instr.fetch 0 4096 0).wellFormed = false
    ∧ (Instr.penCreate (.pen 1024)).wellFormed = false ∧ (Instr.penReinitRestart 1024).wellFormed = false
    ∧ (Instr.compactionTimer 1024 0).wellFormed = false ∧ (Instr.sbPenReinit 1024 0).wellFormed = false
    ∧ (Instr.eventMaskWrite adm 1024 0).wellFormed = false := by decide
/-- An access past a mailbox, and event ring 16. -/
theorem test_wf_areas : (Instr.mailboxOverrun adm .admin 4096 [0]).wellFormed = false
    ∧ (Instr.moderationTimer 0 16).wellFormed = false ∧ (Instr.consumerWrite adm 0 16 0).wellFormed = false
    ∧ (Instr.mbSubmit adm (.pen 1024) 0).wellFormed = false := by decide
/-- Units, ports and domains outside Table 1.2 and Table 15.1. -/
theorem test_wf_units : (Instr.unitReset (.ox 64) true).wellFormed = false ∧ (Instr.unitReset (.drover 16) true).wellFormed = false
    ∧ (Instr.unitReset (.gleaner 128) true).wellFormed = false ∧ (Instr.unitReset (.flashController 128) true).wellFormed = false
    ∧ (Instr.unitReset (.weaverLane 4) true).wellFormed = false ∧ (Instr.unitReset (.shepherdSlice 4) true).wellFormed = false
    ∧ (Instr.unitReset (.crypto 4) true).wellFormed = false ∧ (Instr.unitReset (.reeveCore 16) true).wellFormed = false
    ∧ (Instr.moveStart 1 16).wellFormed = false ∧ (Instr.warmResetRejoin [.ox 64] [] []).wellFormed = false
    ∧ (Instr.bootServing [128] [] [] .active 0).wellFormed = false ∧ (Instr.bootServing [] [12] [] .active 0).wellFormed = false
    ∧ (Instr.bootServing [] [] [.ox 64] .active 0).wellFormed = false := by decide
theorem test_wf_ports : (Instr.resyncTimeout 8).wellFormed = false ∧ (Instr.replayTimer (.step 8)).wellFormed = false
    ∧ (Instr.replayTimer (.commons 18)).wellFormed = false ∧ (Instr.write ⟨18, 0, 0, true, []⟩).wellFormed = false
    ∧ (Instr.commonsHello 18 ⟨0, 0, []⟩).wellFormed = false := by decide
theorem test_wf_rest : (Instr.flashChannelSilent 128).wellFormed = false ∧ (Instr.hbmStackFail 12 []).wellFormed = false
    ∧ (Instr.railFault 0 true).wellFormed = false ∧ (Instr.railFault 12 true).wellFormed = false
    ∧ (Instr.hearthTick [] 0).wellFormed = false ∧ (Instr.domainSleep 106).wellFormed = false
    ∧ (Instr.operatorKey adm 8 true 0 none 0).wellFormed = false ∧ (Instr.operatorKey adm 0 true 0 (some 8) 0).wellFormed = false
    ∧ (Instr.go 8).wellFormed = false := by decide

/-! ### Witnesses: the queue and the invariants -/

/-- StepRunsFront: an empty queue, and one with a command. -/
theorem witness_stepIdle : State.reset.pending = [] ∧ (after (step State.reset) State.reset).clock.now = 1 := by decide
/-- StepKeepsPenZero, StepKeepsMemories, StepNeverStops and FusesNeverFall: a state with a command waiting that meets the
invariants, and the step's answer. -/
theorem witness_invariants : penZero { srv with pending := [.tollgateTick] } ∧ memoriesWf { srv with pending := [.tollgateTick] }
    ∧ queueWf { srv with pending := [.tollgateTick] }
    ∧ (after (step { srv with pending := [.tollgateTick] }) srv).clock.tollTick = 1024 := by
  refine ⟨rfl, ⟨rfl, rfl, rfl, by decide⟩, ?_, by decide +kernel⟩
  intro c h; simp at h; subst h; rfl
/-- ExecKeepsQueue: a command that answers a next state with another waiting. -/
theorem witness_queue : (after (exec .tollgateTick { srv with pending := [.bypass] }) State.reset).pending = [.bypass] := by
  decide +kernel

/-! ### Witnesses: rules of the host-visible map -/

/-- DoorbellRule: the whole ring published at once (accepted), one more than the ring holds (discarded), a ring being
destroyed, an absent one, and two writes that wait. -/
theorem witness_doorbell : hostTakes srv own (.doorbell 1023 4095 0) (doorbellOff 1023 4095) 8
    ∧ (hostTaken srv own (doorbellOff 1023 4095)).ring? 1023 4095 = some ring0
    ∧ ring0.destroying = none ∧ sub32 64 ring0.sqTail ≤ 2 ^ ring0.sqLog2 ∧ sub32 64 ring0.fetched ≤ 2 ^ ring0.sqLog2
    ∧ sub32 0 ring0.cqHead ≤ 2 ^ ring0.cqLog2 ∧ sub32 ring0.written 0 ≤ 2 ^ ring0.cqLog2
    ∧ ¬sub32 65 ring0.sqTail ≤ 2 ^ ring0.sqLog2 := by unfold hostTakes; decide +kernel
theorem witness_doorbell_absent : hostTakes srv own (.doorbell 1023 0 0) (doorbellOff 1023 0) 8
    ∧ (hostTaken srv own (doorbellOff 1023 0)).ring? 1023 0 = none := by unfold hostTakes; decide +kernel
theorem witness_doorbell_destroying :
    let s := srv.modRing 1023 4095 fun g => { g with destroying := some ⟨.admin, mbCmd 0⟩ }
    hostTakes s own (.doorbell 1023 4095 0) (doorbellOff 1023 4095) 8
    ∧ ((hostTaken s own (doorbellOff 1023 4095)).ring? 1023 4095).map (·.destroying.isSome) = some true := by
  unfold hostTakes; decide +kernel
theorem test_doorbell_moves : ((after (exec (.doorbell own 1023 4095 64) srv) srv).ring? 1023 4095).map (·.sqTail) = some 64
    ∧ ((after (exec (.doorbell own 1023 4095 65) srv) srv).ring? 1023 4095).map (fun g => (g.sqTail, tallyGet g.ctrs .dbInvalid))
      = some (0, 1) := by decide +kernel

/-- LadderDiscards: BUSY; no CONFIRM; action 0b00 and 0b11. -/
theorem witness_ladderDiscards : hostTakes srv adm (.ladder 0) ladderOff 8
    ∧ hostTakes { srv with ladder := { busy := true } } adm (.ladder 0) ladderOff 8
    ∧ (0xA5C40400#64).toNat / 2 ^ 16 % 2 ^ 16 ≠ 0xA5C3
    ∧ (ladderAction 0xA5C30000#64 ≠ 1 ∧ ladderAction 0xA5C30000#64 ≠ 2)
    ∧ (ladderAction 0xA5C30C00#64 ≠ 1 ∧ ladderAction 0xA5C30C00#64 ≠ 2) := by unfold hostTakes; decide +kernel

/-- ConsumerRule: HEAD moved up to WRITTEN (accepted) and past it (discarded); an idle ring. -/
theorem witness_consumer :
    let s := srv.modEvRing 1023 15 fun e => { e with written := 3, idle := true }
    hostTakes s own (.crier 1023 (evRingOff 15 0x18)) (crierOff 1023 (evRingOff 15 0x18)) 8
    ∧ sub32 3 3 ≤ sub32 3 0 ∧ sub32 3 0 < sub32 3 4 ∧ (s.pen? 1023).isSome = true
    ∧ ((s.crierOf 1023).ring 15).idle = true ∧ ((s.crierOf 1023).ring 15).written = 3 := by
  unfold hostTakes; decide +kernel
theorem witness_consumerNow :
    let s := srv.modEvRing 1023 15 fun e => { e with written := 3, idle := true }
    (hostTaken s own (crierOff 1023 (evRingOff 15 0x18))).hwNow (.idle 1023 15) = false
    ∧ (hostTaken { s with hwAt := [(.idle 1023 15, 2 ^ 22)] } own (crierOff 1023 (evRingOff 15 0x18))).hwNow (.idle 1023 15) = true := by
  decide +kernel
theorem test_consumer : ((after (exec (.consumerWrite own 1023 15 3) (srv.modEvRing 1023 15 fun e => { e with written := 3 })) srv).crierOf
    1023 |>.ring 15).head = 3 := by decide +kernel

/-- LandImages: the corners of Q0's ranges, lands of the strips, and a control land. -/
theorem witness_landImages : landImage 1 126 = (1, 1) ∧ landImage 64 64 = (63, 63) ∧ landDepth 1 1 ≤ 11 ∧ landDepth 12 63 ≤ 11
    ∧ landFunction false 18 18 = .control 1 ∧ landQuadrant 18 18 = 0 := by decide

/-! ### Witnesses: the queues between the host and the units -/

/-- MailboxHandshake: a mailbox of a serving device and of devices in BOOT, HALTED and UPDATING; a completion that is owed. -/
theorem witness_mailboxHandshake :
    let s := srv.modMb .admin fun m => { m with desc := desc 0x0001 0 [] }
    (s.mb? .admin).isSome = true ∧ s.ident.devState = .serving ∧ mbPrecheck s .admin (desc 0x0001 0 []) = none
    ∧ ((mbWith srv .admin (mbCmd 0)).mb? .admin).map (fun m => (m.busy, m.ticket == (mbCmd 0).ticket)) = some (true, true) := by
  decide +kernel
theorem witness_mailboxHandshake2 :
    let s := srv.modMb .admin fun m => { m with desc := desc 0x0001 0 [] }
    (s.mb? .admin).map (·.cmd) = some none ∧ s.reeveQueue.head? = none
    ∧ (∀ x, s.reeveQueue.head? = some x → s.refuse x.1 x.2 = none)
    ∧ State.reset.ident.devState = .boot ∧ (State.reset.mb? .admin).map (·.cmd) = some none
    ∧ ({ s with ident := { devState := .updating } } : State).ident.devState = .updating := by
  refine ⟨by decide +kernel, rfl, ?_, rfl, rfl, rfl⟩
  intro x h; cases h
theorem test_submit : ((after (exec (.mbSubmit adm .admin 0x10007) (srv.modMb .admin fun m => { m with desc := desc 0x0001 0 [] }))
      srv).mb? .admin).map (fun m => (m.busy, m.submit, m.done)) = some (true, 7, false)
    ∧ ((after (exec (.mbSubmit adm .admin 7) { srv with ident := { devState := .halted } }) srv).mb? .admin).map (fun m =>
      (m.busy, m.done, m.seqDone)) = some (false, true, 7) := by decide +kernel

/-- RingCompletes and CqNeverOverflows: a command owed on a ring at its 64th slot. -/
theorem witness_ringCompletes :
    let s := srv.modRing 1023 4095 fun g => { g with inflight := [9], written := 63 }
    (s.ring? 1023 4095).map (fun g => (g.inflight.contains 9, g.eventRing, g.destroying.isSome)) = some (true, none, false)
    ∧ (s.ring? 1023 4095).map (fun g => decide (g.cqLog2 ≤ 15 ∧ sub32 g.written g.cqHead + g.inflight.length ≤ 2 ^ g.cqLog2))
      = some true
    ∧ ((s.complete (ringCmd (desc 0x0102 0 [])) rOk).ring? 1023 4095).map (fun g => (g.written, g.inflight)) = some (64, []) := by
  decide +kernel

/-- EventsLost: a full ring, a disabled one, and a masked class. -/
theorem witness_eventsLost :
    let full := srv.modEvRing 0 15 fun e => { e with enable := true, sizeLog2 := 4, written := 16 }
    let masked := srv.modCrier 0 fun c => { c with eventMask := 0x8000 }
    (full.pen? 0).map (fun q => ((q.crier.ring 15).enable, (q.crier.ring 15).full)) = some (true, true)
    ∧ (srv.pen? 0).map (fun q => (q.crier.ring 15).enable) = some false
    ∧ (masked.pen? 0).map (fun q => q.crier.eventMask.toNat.testBit (0xF00 / 256)) = some true
    ∧ (((full.evRoute 0 15 0x0101 0 0).crierOf 0).ring 15).lostPending = 1 := by decide +kernel

/-! ### Witnesses: host port, ladder, mailboxes' hardware, Crier, Tollgate -/

/-- HostAccessesComplete: a payload write, the clear, the read of HEALTH, and a write to a place outside the window. -/
theorem witness_hostAccesses : hostTakes srv adm (hostPlace 0x1100) 0x1100 8 ∧ hostTakes srv adm (.ident 0x38) 0x38 8
    ∧ srv.hostHears = true ∧ (srv.takeHeader adm 0x28).hostRefuses adm (.ident 0x28) 8 false = none
    ∧ (srv.takeHeader adm 0x5001000).hostRefuses adm (hostPlace 0x5001000) 8 true = some .unmapped
    ∧ (srv.takeHeader own 0x38).hostRefuses own (hostPlace 0x38) 8 true = some .accessDenied := by
  unfold hostTakes; decide +kernel
theorem test_hostErrors : (after (exec (.hostAccessError own 0x38 8 true) srv) srv).ident.hostErrors = [(.accessDenied, 1)] := by
  decide +kernel

/-- LadderActionsComplete: each action, accepted. -/
theorem witness_ladder : hostTakes srv adm (.ladder 0) ladderOff 8 ∧ (hostTaken srv adm ladderOff).ladder.busy = false
    ∧ (0xA5C307FF#64).toNat / 2 ^ 16 % 2 ^ 16 = 0xA5C3 ∧ (hostTaken srv adm ladderOff).warmPending = false
    ∧ ladderAction 0xA5C307FF#64 = 1 ∧ ladderAction 0xA5C30800#64 = 2
    ∧ ((hostTaken srv adm ladderOff).pen? ((0xA5C307FF#64).toNat % 2 ^ 10)).map (·.reinit.isNone) = some true
    ∧ (hostTaken srv adm ladderOff).ident.liveUpdate = none := by unfold hostTakes; decide +kernel
theorem witness_sbLadder : sbAnswers srv false ∧ srv.board.pwrCycleLow = false ∧ srv.ladder.busy = false ∧ srv.warmPending = false
    ∧ srv.ident.devState ≠ .boot ∧ srv.ident.liveUpdate = none
    ∧ (let held := { srv with board := { srv.board with pwrCycleLow := true, pwrCycleSince := 2 ^ 22 }
                              clock := { srv.clock with now := 2 ^ 22 + 2 ^ 26 } }
       sbAnswers held false ∧ held.board.pwrCycleLow = true ∧ held.board.pwrCycleSince + 2 ^ 26 ≤ held.clock.now) := by
  unfold sbAnswers; decide +kernel
theorem test_ladder : (after (exec (.ladderPenReinit adm 0xA5C307FF) srv) srv).ladder.lastPen = 1023
    ∧ (after (exec (.ladderWarmReset adm 0xA5C30800) srv) srv).warmPending = true := by decide +kernel

/-- MailboxHardwareCompletes: an idle mailbox and one that is BUSY, whose last payload byte, whole descriptor and MB_SUBMIT
are written; one with a late command; the side-band mailbox with the longest payload. -/
theorem witness_mailboxHardware :
    let busy := mbWith srv (.pen 1023) (mbCmd 0)
    let late := srv.modMb .admin fun m => { m with late := [mbCmd 0] }
    mbInWindow (.pen 1023) = true ∧ hostTakes srv own (.mailbox (.pen 1023) 0) (mailboxOff (.pen 1023)) 8
    ∧ (srv.mb? (.pen 1023)).map (·.busy) = some false ∧ (busy.mb? (.pen 1023)).map (·.busy) = some true
    ∧ hostTakes busy own (.mailbox (.pen 1023) 0) (mailboxOff (.pen 1023)) 8
    ∧ hostTakes busy own (.mailbox (.pen 1023) 0x40) (mailboxOff (.pen 1023) + 0x40) 64
    ∧ hostTakes busy own (.mailbox (.pen 1023) 0xFFF) (mailboxOff (.pen 1023) + 0xFFF) 1
    ∧ (late.mb? .admin).map (fun m => (m.late, m.busy)) = some ([mbCmd 0], false)
    ∧ sbAnswers srv false ∧ srv.fetches = true ∧ srv.sbMb.busy = false := by
  unfold hostTakes sbAnswers; decide +kernel
theorem test_overrun : ((after (exec (.mailboxOverrun own (.pen 1023) 0x40 [0]) (mbWith srv (.pen 1023) (mbCmd 0))) srv).mb?
    (.pen 1023)).map (·.overrun) = some true := by decide +kernel

/-- CrierWritesComplete: each register of pen 1023's block and ring 15; a timer that runs; pairs that may and may not. -/
theorem witness_crierWrites :
    let timed := srv.modEvRing 1023 15 fun e => { e with timer := some 4, n := 1 }
    hostTakes srv own (.crier 1023 0x000) (crierOff 1023 0x000) 8 ∧ hostTakes srv own (.crier 1023 0x010) (crierOff 1023 0x010) 8
    ∧ hostTakes srv own (.crier 1023 0x008) (crierOff 1023 0x008) 8
    ∧ hostTakes srv own (.crier 1023 (evRingOff 15 0x00)) (crierOff 1023 (evRingOff 15 0x00)) 8
    ∧ hostTakes srv own (.crier 1023 (evRingOff 15 0x08)) (crierOff 1023 (evRingOff 15 0x08)) 8
    ∧ hostTakes srv own (.crier 1023 (evRingOff 15 0x10)) (crierOff 1023 (evRingOff 15 0x10)) 8
    ∧ ((timed.crierOf 1023).ring 15).timer = some 4 ∧ 0 < ((timed.crierOf 1023).ring 15).n
    ∧ ({ sizeLog2 := 8, base := 0x1000 } : EventRing).pairOk 1023 = true
    ∧ ({ sizeLog2 := 31, base := 0x1001 } : EventRing).pairOk 1023 = false := by unfold hostTakes; decide +kernel
theorem test_moderation : (((after (exec (.moderationWrite own 1023 15 0x1000) srv) srv).crierOf 1023).ring 15).count = 4096
    ∧ (((after (exec (.moderationWrite own 1023 15 0x1001) srv) srv).crierOf 1023).ring 15).count = 0 := by decide +kernel

/-- TollgateCompletes: a ring with one descriptor to fetch, one in a throttled run, one with an admitted command. -/
def oneWaits : State :=
  (srv.modPen 1023 fun q => { q with indexes := [(4, { params := 31 })] }).modRing 1023 4095 fun g => { g with sqTail := 1 }
theorem witness_fetch : (oneWaits.fetchTurn 1023 4095).isSome = true ∧ oneWaits.fetches = true
    ∧ (oneWaits.ring? 1023 4095).map (fun g => (g.fetchable, g.run)) = some (true, none)
    ∧ fetchRefusal oneWaits 1023 (desc 0x0120 0 [(0, 4, 4), (16, 4, 1)]) = none
    ∧ (oneWaits.ring? 1023 4095).map (fun g => decide (countedLength oneWaits 1023 g (desc 0x0120 0 [(0, 4, 4), (16, 4, 1)]) ≤ g.toll.pbs))
      = some true
    ∧ ((oneWaits.modRing 1023 4095 fun g => { g with run := some (1, 5) }).ring? 1023 4095).map (fun g => (g.fetchable, g.run))
      = some (true, some (1, 5)) := by decide +kernel
theorem witness_dispatch :
    let s := srv.modRing 1023 4095 fun g => { g with admitted := [ringCmd (desc 0x0120 0 [])] }
    (s.nextFor .gleaners).map (·.1) = some (1023, 4095) ∧ s.unitAwake .gleaners = true
    ∧ (s.ring? 1023 4095).bind (·.ready) = some (ringCmd (desc 0x0120 0 [])) := by decide +kernel
theorem witness_buckets : ring0.toll.cir ≠ 0 ∧ ring0.toll.pir ≠ 0 ∧ ring0.tp < 5001 ∧ 5000 ≤ ring0.tp ∧ 5000 ≤ ring0.tc
    ∧ ({ ring0 with tc := 4999 } : Ring).tc < 5000 ∧ ({ ring0 with toll := { ring0.toll with cir := 0 } } : Ring).toll.cir = 0
    ∧ ring0.colourOf 5000 = (.green, 0, 0) := by decide +kernel

/-! ### Witnesses: the mailbox commands -/

/-- The state in which an admin mailbox command takes effect. -/
def taken (s : State) (c : MbCmd) : State := (mbWith s .admin c).mbTake .admin c
/-- The Reeve begins the admin mailbox's command. -/
def begins (s : State) (op : Nat) (c : MbCmd) : Prop := reeveBegins (mbWith s .admin c) .admin op c

/-- PenCommandsComplete: capabilities; pen 1022 made, at its last generation too; the empty pen 1 destroyed, pen 0 denied; pen
1023 configured to the limits of its fields. -/
def bare : State := { srv with pens := [(0, {}), (1, {})], penGens := [(1022, 0xFFFFFFFE), (1021, 0xFFFFFFFF)] }
theorem witness_pens :
    let mk := mbCmd (desc 0x0002 0 [(0, 2, 1022), (36, 2, 4096), (38, 1, 15)])
    let mkLast := mbCmd (desc 0x0002 0 [(0, 2, 1021)])
    begins bare 0x0001 (mbCmd (desc 0x0001 0 []))
    ∧ begins bare 0x0002 mk ∧ (taken bare mk).pen? 1022 = none ∧ badAmong (penCfgChecks (penCfgOf mk.desc)) = none
    ∧ quotaExceeded (taken bare mk) ((taken bare mk).otherPens 1022) (penCfgOf mk.desc) = false
    ∧ quotaExceeded (taken bare mk) ((taken bare mk).otherPensNext 1022) (penCfgOf mk.desc) = false ∧ (taken bare mk).ringCount < 65536
    ∧ (taken bare mk).sessions.length < 16777216 ∧ (assocGet 1022 (taken bare mk).penGens).getD 0 < 0xFFFFFFFF
    ∧ begins bare 0x0002 mkLast ∧ 0xFFFFFFFF ≤ (assocGet 1021 (taken bare mkLast).penGens).getD 0
    ∧ (let gone := mbCmd (desc 0x0003 0 [(0, 2, 1)])
       begins bare 0x0003 gone ∧ ((taken bare gone).pen? 1).map (·.rings.length) = some 0 ∧ (taken bare gone).sessionCount 1 = 0
       ∧ ((taken bare gone).sessions.any fun y => handlePen y.1 == 1) = false)
    ∧ begins bare 0x0003 (mbCmd (desc 0x0003 0 []))
    ∧ (let cfg := mbCmd (desc 0x0004 0 [(0, 2, 1), (36, 2, 4096), (38, 1, 15)])
       begins bare 0x0004 cfg ∧ ((taken bare cfg).pen? 1).isSome = true
       ∧ badAmong (penCfgChecks (penCfgOf cfg.desc)) = none
       ∧ quotaExceeded (taken bare cfg) ((taken bare cfg).otherPensNext 1) (penCfgOf cfg.desc) = false) := by
  unfold begins reeveBegins; decide +kernel

/-- PenReinitsComplete: a pen without a reinit, and one with. -/
theorem witness_penReinit :
    let c := mbCmd (desc 0x0005 0 [(0, 2, 1023)])
    let s := srv.modPen 1023 fun q => { q with reinit := some { since := 5, viaLadder := true } }
    begins srv 0x0005 c ∧ ((taken srv c).pen? (mbTarget .admin c.desc 0)).map (·.reinit.isNone) = some true
    ∧ srv.warmPending = false
    ∧ (s.pen? 1023).map (fun x => (x.reinit.isSome, x.rings.all fun g => g.2.destroying.isNone)) = some (true, true) := by
  unfold begins reeveBegins; decide +kernel
theorem test_restart : ((after (exec (.penReinitRestart 1023) (srv.modPen 1023 fun q => { q with
      reinit := some { since := 5, viaLadder := true } })) srv).pen? 1023).map (fun q => (q.reinit.isNone, q.rings.map (·.2.tc)))
    = some (true, [10000]) := by decide +kernel

/-- RingCommandsComplete: the largest ring on pen 1023; ring 4095 destroyed and configured. -/
theorem witness_rings :
    let block := [(24, 4, 1), (28, 4, 1), (32, 4, 1), (36, 4, 1)]
    let mk := mbCmd (desc 0x0010 0 ([(0, 8, 4096), (8, 8, 8192), (16, 1, 14), (17, 1, 15), (18, 1, 0xFF), (19, 1, 1), (20, 2, 4094),
      (22, 2, 1023)] ++ block))
    let gone := mbCmd (desc 0x0011 0 [(20, 2, 4095), (22, 2, 1023)])
    let cfg := mbCmd (desc 0x0012 0 ([(19, 1, 1), (20, 2, 4095), (22, 2, 1023)] ++ block))
    begins srv 0x0010 mk ∧ operand mk.desc 0 8 % 4096 = 0 ∧ operand mk.desc 8 8 % 4096 = 0 ∧ operand mk.desc 16 1 = 14
    ∧ operand mk.desc 17 1 = 15 ∧ operand mk.desc 18 1 = 0xFF ∧ operand mk.desc 19 1 = 1
    ∧ ((taken srv mk).pen? (mbTarget .admin mk.desc 22)).map (fun q => (assocHas 4094 q.rings, decide (q.rings.length < q.cfg.ringsMax)))
      = some (false, true)
    ∧ badAmong (tollgateChecks mk.desc) = none ∧ (taken srv mk).ringCount < 65536
    ∧ begins srv 0x0011 gone ∧ ((taken srv gone).ring? 1023 4095).map (fun g => (g.destroying.isNone, g.held.isNone)) = some (true, true)
    ∧ begins srv 0x0012 cfg ∧ operand cfg.desc 19 1 = 1 ∧ badAmong (tollgateChecks cfg.desc) = none := by
  unfold begins reeveBegins; decide +kernel
theorem witness_ringHeld :
    let s := srv.modRing 1023 4095 fun g => { g with held := some (ringCmd (desc 0x0120 0 [])) }
    (s.ring? 1023 4095).map (fun g => (g.held, g.destroying.isNone)) = some (some (ringCmd (desc 0x0120 0 [])), true) := by
  decide +kernel

/-- LayoutsAndConstraintsComplete: a layout of byte tokens with one layer; one loaded and unused; a set of one banned id. -/
def layoutBytes : List (Nat × Byte) :=
  [(0, 1), (1, 1), (2, 1), (5, 3), (8, 1), (10, 32), (12, 1), (26, 0x80), (27, 0x3F)]
def lay : Layout := layoutOf (memReadBytes layoutBytes 0 256)
def src : List Byte := [1, 0, 0, 0, 5, 0, 0, 0]
theorem witness_layouts :
    let load := mbCmd (desc 0x0020 0 []) layoutBytes
    let drop := mbCmd (desc 0x0021 0 [(0, 1, 1)])
    let s := { srv with layouts := [(1, lay)] }
    begins srv 0x0020 load ∧ lay.id = 1 ∧ (taken srv load).layout? 1 = none ∧ badAmong (layoutChecks lay) = none
    ∧ begins s 0x0021 drop ∧ ((taken s drop).layout? (operand drop.desc 0 1)).isSome = true
    ∧ (taken s drop).layoutUsed (operand drop.desc 0 1) = false := by unfold begins reeveBegins; decide +kernel
theorem witness_constraints :
    let load := mbCmd (desc 0x0022 0 [(0, 2, 0xFFFE), (2, 2, 1023), (16, 4, 8)])
    let drop := mbCmd (desc 0x0023 0 [(0, 2, 7), (2, 2, 1023)])
    let set : ConstraintSet := { banned := [[5]], forced := [], states := 1, bytes := 1, source := src }
    let s := srv.modPen 1023 fun q => { q with constraints := [(7, set)] }
    begins srv 0x0022 load ∧ src.length = operand load.desc 16 4 ∧ onBoundary src.length src = true
    ∧ (compileSource src).isSome = true
    ∧ ((taken srv load).pen? (mbTarget .admin load.desc 2)).map (·.constraints.length) = some 0
    ∧ begins s 0x0023 drop ∧ ((taken s drop).pen? 1023).map (fun q => assocHas 7 q.constraints) = some true
    ∧ (taken s drop).constraintUsed 1023 7 = false := by unfold begins reeveBegins; decide +kernel

/-- FlockCommandsComplete: flock 7 on port 7; flock 0 idle; a session at rest of its layout. -/
def hOne : Handle := mkHandle 5 1023 0 1
def sOne : Session := { layout := 1, state := .runnable }
def flk : Flock := { ports := [0], params := { layout := 1 } }
def fleet : State :=
  { srv with layouts := [(1, lay)], sessions := [(hOne, sOne)], flocks := [(0, flk)]
             slice := { entries := [(0, { handle := hOne, home := 5 })], next := 1 }
             stepPorts := [(7, { census := true })] }
theorem witness_flocks :
    let mk := mbCmd (desc 0x0030 0 [(0, 1, 7), (1, 1, 0x80)])
    let gone := mbCmd (desc 0x0031 0 [])
    let cfg := mbCmd (desc 0x0032 0 [(8, 8, 1 + 64 + 750000 * 2 ^ 16 + 40 * 2 ^ 40 + 4096 * 2 ^ 48)])
    let anchor := mbCmd (desc 0x0033 hOne [(0, 1, 1), (1, 1, 0)])
    begins fleet 0x0030 mk ∧ assocGet 7 (taken fleet mk).flocks = none ∧ operand mk.desc 1 1 ≠ 0
    ∧ (∀ p ∈ [7], (taken fleet mk).flockOf p = none ∧ ((taken fleet mk).stepPort p).census = true)
    ∧ begins fleet 0x0031 gone ∧ ((taken fleet gone).flock? 0).map (·.stepping) = some false
    ∧ begins fleet 0x0032 cfg ∧ badAmong (planParamsChecks (operand cfg.desc 8 32) true) = none
    ∧ ((taken fleet cfg).layout? (planParamsOf (operand cfg.desc 8 32)).layout).isSome = true
    ∧ begins fleet 0x0033 anchor ∧ ((taken fleet anchor).sess? hOne).map (·.layout) = some 1
    ∧ ((taken fleet anchor).flock? 0).map (fun k => (k.params.layout, k.run.isNone)) = some (1, true)
    ∧ (taken fleet anchor).anchors 0 hOne < 64 := by unfold begins reeveBegins; decide +kernel
theorem witness_flockStepping :
    let s := { fleet with flocks := [(0, { flk with run := some { plan := { step := 1, entries := [], layers := [], period := 750000, grant := 0, price := 0 }, go := 0 } })] }
    (s.flock? 0).map (fun k => (k.stepping, flk.stepping)) = some (true, false) := by decide +kernel
theorem witness_leaseStage :
    let c := ringCmd (desc 0x0107 hOne [(0, 1, 0)])
    unitBegins (ringWith fleet c) 1023 4095 0x0107 c ∧ ((ringWith fleet c).ringTake c).sess? hOne = some sOne
    ∧ (((ringWith fleet c).ringTake c).flock? 0).map (·.params.layout) = some sOne.layout ∧ sOne.state = .runnable := by
  unfold unitBegins; decide +kernel
theorem witness_leaseStageAtRest :
    let c := ringCmd (desc 0x0107 hOne [(0, 1, 0)])
    let s := fleet.modSess hOne fun x => { x with state := .parked }
    let t := fleet.modSess hOne fun x => { x with state := .closed }
    (((ringWith s c).ringTake c).sess? hOne).map (·.state) = some .parked
    ∧ (((ringWith t c).ringTake c).sess? hOne).map (·.state) = some .closed := by decide +kernel

/-- FabricCommandsComplete: a route removed and one changed; a map of one pool; a partner left, and one named; the partner
down. -/
theorem witness_fabric :
    let off := mbCmd (desc 0x0040 0 [(0, 2, 0x1FFF), (2, 4, 0xFFFFFFFF)])
    let on := mbCmd (desc 0x0040 0 [(0, 2, 7), (2, 1, 17), (3, 3, 0xFFFFFF)])
    let s := { srv with commons := { routes := [(7, [0])] }, partner := { node := some 7 } }
    let rec1 : List Byte := [1, 7, 0, 0, 0, 0, 0, 0, 0, 0, 0, 0, 0, 0, 0, 0]
    let map := mbCmd (desc 0x0041 0 [(0, 8, 1), (16, 4, 16)])
    let solo := mbCmd (desc 0x0042 0 [(0, 2, 0xFFFF)])
    let new := mbCmd (desc 0x0042 0 [(0, 2, 0x1FFF)])
    let down := mbCmd (desc 0x0043 0 [(0, 2, 7)])
    begins s 0x0040 off ∧ operand off.desc 0 2 ≠ (taken s off).node
    ∧ ((List.range 4).map fun i => operand off.desc (2 + i) 1).filter (· != 0xFF) = []
    ∧ begins s 0x0040 on ∧ ((List.range 4).map fun i => operand on.desc (2 + i) 1).filter (· != 0xFF) = [17] ∧ hasDup [17] = false
    ∧ (assocGet 7 (taken s on).commons.routes).isSome = true
    ∧ begins s 0x0041 map ∧ (taken s map).commons.epoch < operand map.desc 0 8
    ∧ (taken s map).mapBad ((chunks 16 1 (rec1.take 16)).map parseMapRec) = false
    ∧ begins s 0x0042 solo ∧ begins s 0x0042 new ∧ (taken s new).namedPartner ≠ some 0x1FFF
    ∧ begins s 0x0043 down ∧ (taken s down).partner.node.map (·.toNat) = some 7 := by unfold begins reeveBegins; decide +kernel

/-- LedgerAndHarvestComplete: a gateway of node 9; a manifest of node 5 for the same device; a group held; a fence. -/
def part0 : List Byte := [0x46, 0x4D, 0x59, 0x4C, 1, 0, 0, 0, 5]
theorem witness_harvest :
    let s := { srv with commons := { map := [{ kind := 4, node := 9, raw := [] }], fenceEnd := some 8 } }
    let point := mbCmd (desc 0x0050 0 [(0, 2, 9), (16, 4, 128)])
    let back := mbCmd (desc 0x0051 0 [(0, 2, 9), (16, 4, 255)])
    begins s 0x0050 point ∧ ((taken s point).commons.map.any fun r => r.kind == 4 && r.node.toNat == 9) = true
    ∧ (taken s point).harvest.checkpoint = none ∧ (taken s point).harvest.restore = none
    ∧ (List.replicate 128 (65 : Byte)).length = operand point.desc 16 4
    ∧ begins s 0x0051 back ∧ (List.replicate 255 (65 : Byte)).length = operand back.desc 16 4
    ∧ (taken s back).manifestForged (parsePart0 part0) true = false ∧ (parsePart0 part0).node = (taken s back).node
    ∧ (parsePart0 part0).serial = 0 ∧ (taken s back).sessions = []
    ∧ ((taken s back).slice.entries.any fun e => e.2.life == .live || e.2.life == .regrow) = false
    ∧ s.commons.fenceEnd = some 8 ∧ s.drainBusy = false := by unfold begins reeveBegins; decide +kernel
theorem witness_ledgerCommit :
    let s := fleet.modSess hOne fun x => { x with region := { x.region with waiting := [{ recs := [], written := 0, held := true }] } }
    s.mayCommit hOne = true := by decide +kernel
/-- A new partner named, one in force, one that is being asked. -/
theorem witness_partnerRetry :
    let named := { srv with partner := { pending := some 9 } }
    let inForce := { srv with partner := { node := some 9 } }
    srv.partner.pending = none ∧ srv.partner.node = none ∧ named.partner.syncing = false ∧ named.partner.pending.isSome = true
    ∧ inForce.partner.pending = none ∧ inForce.partner.node = some 9 ∧ inForce.partner.syncing = false
    ∧ ({ srv with partner := { pending := some 9, syncing := true } } : State).partner.syncing = true := by decide +kernel

/-- FirmwareCompletes: nothing updating; an image staged, activating or being written, at the fuses' value. -/
def img : Image := { watchman := false, version := 7, svn := 3, digest := 0 }
theorem witness_firmware :
    let stage := mbCmd (desc 0x0060 0 [(8, 4, 1024)])
    let go := mbCmd (desc 0x0061 0 [])
    let s := { srv with security := { staged := some img, rollback := 3, activating := some img, watchmanWrite := some img } }
    let updating := { s with ident := { s.ident with devState := .updating, liveUpdate := some 9 } }
    begins srv 0x0060 stage ∧ (taken srv stage).watchman.update = none
    ∧ begins s 0x0061 go ∧ (taken s go).security.staged = some img ∧ (taken s go).security.rollback ≤ img.svn
    ∧ updating.ident.liveUpdate = some 9 ∧ updating.security.activating = some img ∧ updating.clock.now ≤ 9 + updateBound
    ∧ s.security.watchmanWrite = some img := by unfold begins reeveBegins; decide +kernel

/-- PowerAndCountersComplete: the limits at their greatest; the report of pen 1023 at its exact size. -/
theorem witness_power :
    let limits := mbCmd (desc 0x0070 0 [(0, 2, 1400), (2, 2, 1650)])
    let report := mbCmd (desc 0x0071 0 [(0, 2, 1023), (16, 4, 752)])
    begins srv 0x0070 limits ∧ ((taken srv limits).pens.map fun q => q.2.cfg.energyFloor).sum ≤ (1400 - 400) * 1000
    ∧ begins srv 0x0071 report ∧ operand report.desc 2 1 = 0
    ∧ ((taken srv report).pen? (mbTarget .admin report.desc 0)).map (fun q => reportSize q.reported.length false) = some 752
    ∧ operand report.desc 16 4 = 752 := by unfold begins reeveBegins; decide +kernel

/-- IndexesComplete: an index of 32 binary16 elements made; one destroyed; one whose commit waits; a batch of one record; a
commit of nothing and of one operation; a search for no results and for the most. -/
def idx : Index := { params := 31 }
def shelf : State := srv.modPen 1023 fun q => { q with indexes := [(4, idx)] }
theorem witness_indexCommands :
    let mk := mbCmd (desc 0x0072 0 [(0, 4, 5), (4, 2, 1023), (8, 8, 31)])
    let gone := mbCmd (desc 0x0073 0 [(0, 4, 4), (4, 2, 1023)])
    let waits := shelf.modIndex 1023 4 fun x => { x with waiting := some 6 }
    begins shelf 0x0072 mk ∧ ((taken shelf mk).pen? 1023).map (fun q => (assocHas 5 q.indexes, decide (q.indexes.length < 64)))
      = some (false, true)
    ∧ badAmong (indexChecks (BitVec.ofNat 64 (operand mk.desc 8 8))) = none
    ∧ ((taken shelf mk).pens.map fun r => r.2.indexes.length).sum < 4096
    ∧ begins shelf 0x0073 gone ∧ ((taken shelf gone).index? 1023 4).isSome = true
    ∧ (waits.rawIndex? 1023 4).map (fun x => (x.waiting, x.compacting)) = some (some 6, false) := by
  unfold begins reeveBegins; decide +kernel
theorem witness_indexRing :
    let ins := ringCmd (desc 0x0120 0 [(0, 4, 4), (16, 4, 1)])
    let del := ringCmd (desc 0x0121 0 [(0, 4, 4), (16, 4, 1)])
    let com := ringCmd (desc 0x0122 0 [(0, 4, 4)])
    let fd : RingCmd := { ringCmd (desc 0x0123 0 [(0, 4, 4), (24, 2, 1024), (26, 2, 256)]) with snapshot := some (0, 0, 128) }
    let none_ : RingCmd := { ringCmd (desc 0x0123 0 [(0, 4, 4)]) with snapshot := some (0, 0, 128) }
    let rec_ : List Byte := [1, 0, 0, 0, 0, 0, 0, 0, 0, 0, 0, 0, 0, 0, 0, 0]
    let busy := shelf.modIndex 1023 4 fun x => { x with pending := [.delete 1] }
    unitBegins (ringWith shelf ins) 1023 4095 0x0120 ins ∧ ((ringWith shelf ins).ringTake ins).indexFor ins = some idx
    ∧ ((batchRecords (16 + indexVectorBytes idx.params) 1 rec_).any fun r => bytesAt r 8 8 != 0) = false
    ∧ idx.sideCount + 1 ≤ 2 ^ 24
    ∧ unitBegins (ringWith shelf del) 1023 4095 0x0121 del
    ∧ ((batchRecords (16 + indexVectorBytes idx.params) 1 [1]).any fun r => (r.drop 6).any (· != 0)) = false
    ∧ unitBegins (ringWith shelf com) 1023 4095 0x0122 com ∧ idx.pending = []
    ∧ (((ringWith busy com).ringTake com).indexFor com).map (fun x => (x.pending.isEmpty, decide (x.commitSeq + 1 < 0xFFFFFFFFFFFF)))
      = some (false, true)
    ∧ unitBegins (ringWith shelf fd) 1023 4095 0x0123 fd ∧ ((ringWith shelf fd).ringTake fd).rawIndex? 1023 4 = some idx
    ∧ badAmong (searchChecks false fd.desc) = none ∧ operand fd.desc 24 2 ≠ 0 ∧ operand fd.desc 26 2 ≠ 0
    ∧ unitBegins (ringWith shelf none_) 1023 4095 0x0123 none_ ∧ operand none_.desc 24 2 = 0 := by
  unfold unitBegins; decide +kernel

/-! ### Witnesses: the ring commands -/

/-- The unit begins the command of ring 4095 of pen 1023. -/
def runs (s : State) (op : Nat) (c : RingCmd) : Prop := unitBegins (ringWith s c) 1023 4095 op c
/-- The state in which it takes effect. -/
def drawn (s : State) (c : RingCmd) : State := (ringWith s c).ringTake c
/-- `fleet` with the session in another state. -/
def fleetIn (f : Session → Session) : State := fleet.modSess hOne f

/-- SessionLifeCompletes: a new session of layout 1; a fork of a session at rest and of one that runs; a close. -/
theorem witness_sessionLife :
    let mk := ringCmd (desc 0x0100 nullHandle [(24, 1, 1), (16, 2, 0xFFFF)])
    let fork := ringCmd (desc 0x0101 hOne [])
    let close := ringCmd (desc 0x0102 hOne [])
    runs fleet 0x0100 mk ∧ (drawn fleet mk).restoring = false ∧ (drawn fleet mk).layout? (samplerLayout mk.desc) = some lay
    ∧ ((drawn fleet mk).pen? 1023).map (fun q => badAmong (samplerChecks q lay (fun _ => true) mk.desc)) = some none
    ∧ (drawn fleet mk).sess? nullHandle = none ∧ (drawn fleet mk).sessionQuota 1023 = false
    ∧ (drawn fleet mk).ledgerFull = false ∧ refuseT1 (drawn fleet mk) 1023 (newSessionBytes 0 []) = none
    ∧ ((drawn fleet mk).issue 1023 false).isSome = true
    ∧ runs fleet 0x0101 fork ∧ ((drawn fleet fork).sess? hOne).map (fun x =>
        (x.state == .runnable, x.inHandover, (forkRefusal (drawn fleet fork) 1023 x).isNone)) = some (true, false, true)
    ∧ runs (fleetIn fun x => { x with state := .running }) 0x0101 fork
    ∧ runs fleet 0x0102 close ∧ ((ringWith fleet close).sess? hOne).bind (·.handover) = none := by
  unfold runs unitBegins; decide +kernel
theorem witness_sessionFork :
    let mk := ringCmd (desc 0x0100 hOne [(24, 1, 1), (16, 2, 0xFFFF)])
    let fork := ringCmd (desc 0x0101 hOne [])
    let pre := fleetIn fun x => { x with isPrefix := true, state := .parked }
    let queued := fleetIn fun x => { x with region := { x.region with waiting := [{ recs := [], written := 0 }] } }
    let x : Session := { sOne with isPrefix := true, state := .parked }
    runs pre 0x0100 mk ∧ mk.pen = 1023 ∧ (drawn pre mk).restoring = false ∧ (drawn pre mk).sess? hOne = some x
    ∧ ((drawn pre mk).pen? 1023).map (fun q => openOffence (drawn pre mk) q mk.desc) = some none
    ∧ ((drawn fleet (ringCmd (desc 0x0100 nullHandle [(24, 1, 1), (16, 2, 0xFFFF)]))).pen? 1023).map (fun q =>
        openOffence (drawn fleet (ringCmd (desc 0x0100 nullHandle [(24, 1, 1), (16, 2, 0xFFFF)]))) q
          (desc 0x0100 nullHandle [(24, 1, 1), (16, 2, 0xFFFF)])) = some none
    ∧ x.inHandover = false ∧ x.region.waiting = [] ∧ forkRefusal (drawn pre mk) 1023 x = none
    ∧ ((drawn pre mk).issue 1023 (descFlag mk.desc 24)).isSome = true
    ∧ ((drawn fleet fork).issue 1023 sOne.isPrefix).isSome = true ∧ sOne.inHandover = false ∧ sOne.region.waiting = []
    ∧ runs queued 0x0101 fork ∧ ((drawn queued fork).sess? hOne).map (fun y => (y.state, y.inHandover, y.region.waiting.length))
      = some (.runnable, false, 1)
    ∧ (((drawn fleet fork).closeOutput hOne).sess? hOne).map (fun y => (y.state, y.region.waiting.length)) = some (.runnable, 0) := by
  unfold runs unitBegins; decide +kernel

/-- SessionStatesComplete: a session in each state that the clauses name; a query of the record and of the entry. -/
theorem witness_sessionStates :
    let park := ringCmd (desc 0x0103 hOne [])
    let res := ringCmd (desc 0x0104 hOne [])
    let cfg := ringCmd (desc 0x0106 hOne [(32, 2, 0xFF), (16, 2, 0xFFFF)])
    let ask := ringCmd (desc 0x0105 hOne [])
    let askEntry := ringCmd (desc (0x0105 + 2 ^ 24) hOne [])
    runs fleet 0x0103 park ∧ sOne.state = .runnable ∧ runs (fleetIn fun x => { x with state := .running }) 0x0103 park
    ∧ runs (fleetIn fun x => { x with state := .parked }) 0x0103 park
    ∧ runs (fleetIn fun x => { x with state := .parked, parkCause := some .host }) 0x0104 res
    ∧ runs (fleetIn fun x => { x with state := .parked, parkCause := some .turnEnd }) 0x0104 res ∧ runs fleet 0x0104 res
    ∧ sOne.isPrefix = false
    ∧ runs fleet 0x0106 cfg ∧ ((drawn fleet cfg).pen? 1023).map (fun q => badAmong
        (samplerChecks q lay (fun i => bitOf (operand cfg.desc 32 2) i) cfg.desc
          ++ [(48, bitOf (operand cfg.desc 32 2) 8), (49, bitsOf (operand cfg.desc 32 2) 9 7 != 0)])) = some none
    ∧ runs fleet 0x0105 ask ∧ descFlag ask.desc 24 = false ∧ runs fleet 0x0105 askEntry ∧ descFlag askEntry.desc 24 = true
    ∧ ((drawn fleet askEntry).entry? hOne).isSome = true := by
  unfold runs unitBegins; decide +kernel
theorem witness_sessionApplied : sOne.applied.state = .runnable
    ∧ ({ sOne with state := .parked, parkCause := some .host } : Session).applied.state = .parked
    ∧ ({ sOne with state := .parked, parkCause := some .host } : Session).applied.parkCause = some .host
    ∧ ({ sOne with state := .parked, parkCause := some .turnEnd } : Session).applied.parkCause ≠ some .host
    ∧ sOne.applied.isPrefix = false ∧ ({ sOne with state := .running } : Session).applied.state = .running
    ∧ (let cfg := ringCmd (desc 0x0106 hOne [(32, 2, 0xFF), (16, 2, 0xFFFF)])
       ((drawn fleet cfg).pen? 1023).map (fun q => configOffence q lay cfg.desc) = some none) := by decide +kernel
/-- No other device has been offered the session. -/
theorem witness_notOffered : notOffered (ringWith fleet (ringCmd (desc 0x0103 hOne []))) (ringCmd (desc 0x0103 hOne [])) := by
  intro hd h
  rw [show (((ringWith fleet (ringCmd (desc 0x0103 hOne []))).sess? (descHandle (ringCmd (desc 0x0103 hOne [])).desc)).bind
    (·.handover)) = none by decide +kernel] at h
  cases h

/-- TextCommandsComplete: two bytes of text; one token id, the largest; a buffer of 1 MiB. -/
theorem witness_text :
    let text := ringCmd (desc 0x0110 hOne [(8, 4, 2), (13, 1, 1), (14, 1, 3)])
    let ids := ringCmd (desc 0x0111 hOne [(8, 4, 1), (13, 1, 1)])
    let post := ringCmd (desc 0x0112 hOne [(8, 4, 1048576)])
    let t := tokenize 0 false true [] false [72, 105] false
    runs fleet 0x0110 text ∧ segmentBad lay 0 = false ∧ authorOf (operand text.desc 13 1) = some .user ∧ operand text.desc 14 1 = 3
    ∧ lay.vocab = false ∧ (sOne.stream? 3).isNone = true ∧ descFlag text.desc 24 = false ∧ t.staged.length ≤ 4194304
    ∧ (drawn fleet text).ledgerFull = false
    ∧ refuseGrowth (drawn fleet text) ((((drawn fleet text).countText 1023 t.counts).modSess hOne fun y => { y with
        region := { y.region.keep with streams := assocSet 3 { segment := 0, author := .user, carry := t.seq.map (BitVec.ofNat 8)
                                                               introPending := t.intro, staged := t.staged }
                                                    sOne.region.streams } }).formGroup hOne [] (.header text t.staged.length 0))
        1023 hOne = none
    ∧ runs fleet 0x0111 ids ∧ ([44, 0, 0, 0] : List Byte).length = 4 * operand ids.desc 8 4
    ∧ ([44].any fun i => !lay.hasId i) = false ∧ translateIds lay 0 0 [44] = ([44], 0, 0)
    ∧ sOne.region.heldTokens sOne.positions + 1 ≤ 2 ^ 27
    ∧ refuseGrowth (drawn fleet ids) ((((drawn fleet ids).bumpPen 1023 .substituted 0).bumpPen 1023 .controlDropped 0).formGroup hOne (tokensGroup .user false [44]) (.append ids (2 ^ 32))) 1023 hOne
        = none
    ∧ runs fleet 0x0112 post ∧ operand post.desc 8 4 = 1048576 := by
  unfold runs unitBegins; decide +kernel
theorem witness_textEnd :
    let fin := ringCmd (desc (0x0110 + 2 ^ 24) hOne [(13, 1, 1)])
    let text := ringCmd (desc 0x0110 hOne [(8, 4, 2), (13, 1, 1), (14, 1, 3)])
    let ids := ringCmd (desc 0x0111 hOne [(8, 4, 1), (13, 1, 1)])
    let s := fleetIn fun x => { x with region := { x.region with streams := [(0, { segment := 0, author := .user, carry := [] })] } }
    runs s 0x0110 fin ∧ operand fin.desc 8 4 = 0 ∧ descFlag fin.desc 24 = true
    ∧ ((s.sess? hOne).bind (·.stream? 0)).map (fun o => (o.segment, o.author)) = some (0, (authorOf (operand fin.desc 13 1)).getD .user)
    ∧ textRefusal lay fin.desc = none ∧ textRefusal lay text.desc = none ∧ badAmong (tokensChecks lay ids.desc) = none
    ∧ (tokenize 0 false false [] false [] true).staged = [] ∧ outputBadLength lay 1048576 = false ∧ sOne.leaving = false := by
  unfold runs unitBegins; decide +kernel

/-! ### Witnesses: flocks, steps and moves -/

/-- A sealed sheaf of the session, and a decode entry at position 64. -/
def shf : Sheaf := { owner := hOne, ordinal := 0, layer := 0, isSealed := true, startPos := 0, format := 0, count := 64, node := 5 }
def sRun : Session := { sOne with state := .running, flock := some 0, positions := 65, kvPositions := 64, map := [shf] }
def ent : PlanEntry :=
  { handle := hOne, kind := .decode, latencyCritical := false, anchored := true, draftMax := 0, position := 64, tokens := 1, price := 0 }
def pln : Plan :=
  { step := 8, entries := [ent], layers := [⟨100, 100, 200, 1, 64⟩], period := 750000, grant := 0, price := 0, layout := 1 }
def stp : StepRun := { plan := pln, go := 2 ^ 22 }
def flkRun : Flock := { flk with params := { flk.params with anchorStallMax := 100 }, run := some stp }
/-- Flock 0 on port 0, which is UP and has joined, in step 8. -/
def atStep : State :=
  { fleet with flocks := [(0, flkRun)], sessions := [(hOne, sRun)], stepPorts := [(0, { state := .up, joined := true, census := true })] }
/-- `atStep` with the step changed. -/
def stepIn (f : StepRun → StepRun) : State := atStep.modRun 0 f

/-- StepsComplete: a snapshot while the step runs, and of an idle flock with a runnable session; a plan acknowledged; a step
whose port is done. -/
theorem witness_snapshot :
    let s := { atStep with flocks := [(0, { flkRun with params := { flkRun.params with enable := true, layerOrder := true } })] }
    let due := stp.go + stp.plan.period - 1024 * flkRun.params.planLead
    let table := [⟨100, 100, 200, 0, 64⟩]
    flkRun.stopped = false ∧ flkRun.destroying = none ∧ flkRun.next.isNone = true ∧ flkRun.delivered = none
    ∧ stp.built = false ∧ stp.truncating = false
    ∧ (assocGet 0 ((atStep.at_ due).applyPending 0).flocks).map (·.params.enable) = some false
    ∧ (assocGet 0 ((s.at_ due).applyPending 0).flocks).map (fun k => (k.params.enable, k.run.isSome)) = some (true, true)
    ∧ ((s.at_ due).applyPending 0).layout? 1 = some lay
    ∧ (assocGet 0 ((s.at_ due).applyPending 0).flocks).map (fun k =>
        let u := (s.at_ due).applyPending 0
        let b := u.buildPlan 0 (8 * (k.planCount + 1) + 0) k lay table
        (tableOk k.params lay table, b.2.timingOk 0 lay (b.2.assumedAt lay) b.1)) = some (true, true) := by decide +kernel
/-- An idle flock whose one session's pen has no T1 to plan it in, at the next multiple of 1,024 cycles. -/
def flkIdle : Flock := { flk with params := { flk.params with enable := true } }
def idle : State :=
  { atStep with flocks := [(0, flkIdle)], sessions := [(hOne, { sOne with positions := 1 })]
                pens := [(1023, { pen0 with cfg := { pen0.cfg with t1Quota := 0 } })] }
def idleAt : State := (idle.at_ (nextMultiple 1024 idle.clock.now)).applyPending 0
theorem witness_snapshotIdle :
    (idle.flock? 0).map (fun k => (k.params.enable, idle.flockUp k, k.run.isNone,
      idle.sessions.any fun x => candidate 0 k x.2 && !idle.claimedElsewhere 0 x.1)) = some (true, true, true, true)
    ∧ idleAt.layout? 1 = some lay ∧ assocGet 0 idleAt.flocks = some flkIdle ∧ tableOk flkIdle.params lay pln.layers = true
    ∧ (idleAt.buildPlan 0 (8 * (flkIdle.planCount + 1) + 0) flkIdle lay pln.layers).1.entries.isEmpty = true := by
  refine ⟨by decide +kernel, by decide +kernel, by decide +kernel, by decide +kernel, ?_⟩
  unfold State.buildPlan
  generalize idleAt.ledgerSpent = b
  cases b <;> decide +kernel
theorem witness_go : ({ flk with next := some pln, delivered := some (3, []) } : Flock).delivered = some (3, [])
    ∧ ({ flk with next := some pln, delivered := some (3, []) } : Flock).next = some pln := by decide +kernel
theorem test_go :
    let s := { atStep with flocks := [(0, { flk with next := some pln, delivered := some (3, []) })] }
    ((after (exec (.go 0) s) srv).run? 0).map (·.go) = some (2 ^ 22) := by decide +kernel
theorem witness_boundary :
    let r := { stp with built := true, stepDone := [(0, 0, 0)] }
    (flkRun.ports.all r.portDone) = true ∧ r.stall = none ∧ r.truncating = false ∧ r.built = true
    ∧ atStep.layout? r.plan.layout = some lay := by decide +kernel
/-- A boundary that has begun: the tokens' groups wait for their commit. -/
theorem witness_boundaryWaits :
    let s := (stepIn fun r => { r with phase := .tokens, owed := [7] }).modSess hOne fun x => { x with region := { x.region with
      waiting := [{ recs := [], written := 0, id := 7 }] } }
    let s := { s with partner := { node := some 9 } }
    (s.run? 0).map (fun r => (decide (r.phase = .tokens), r.owed)) = some (true, [7])
    ∧ (s.commitOwed [7]).groupsWait [7] = true := by decide +kernel

/-- StepDeadlinesComplete: a datum of the one layer that has come and one that has not, a step that does not end, a stall at
its longest, a plan not acknowledged. -/
def lent : Lease :=
  { id := 6, speculative := false, tail := false, accelMask := 1, handle := hOne, layerFirst := 0, layerCount := 1, firstOrdinal := 0
    sheafCount := 1, format := 0, slotBase := 0, slotCount := 1, issueStep := 1, state := .staged, slots := [(0, 0, 0)] }
def late : State :=
  (stepIn fun r => { r with plan := { r.plan with entries := [{ ent with leaseId := some 6 }] } }).modFlock 0 fun k =>
    { k with leases := [lent] }
theorem witness_dueCheck :
    (late.run? 0).map (fun r => (r.stall.isNone, r.truncating, decide (r.stalled < 100))) = some (true, false, true)
    ∧ (late.planEntry? 0 0).map (fun e => (e.sitOut.isNone, e.fallback.contains 0, e.anchored)) = some (true, false, true)
    ∧ late.sess? hOne = some sRun ∧ late.layout? 1 = some lay ∧ 0 < lay.layers
    ∧ (late.at_ (stp.go + dueOffset stp 0 .stream)).arrived 0 { ent with leaseId := some 6 } sRun lay 0 .stream = false
    ∧ (late.at_ (stp.go + dueOffset stp 0 .promotion)).arrived 0 { ent with leaseId := some 6 } sRun lay 0 .promotion = true := by
  decide +kernel
/-- No entry stands before the first; a sheaf to be promoted that is not in T1, of an entry that is not anchored. -/
theorem witness_dueLate :
    let e := { ent with anchored := false, sources := [{ layer := 0, device := [0] }] }
    let x := { sRun with map := [{ shf with tier := .t2 }] }
    let s := (stepIn fun r => { r with plan := { r.plan with entries := [e] } }).modSess hOne fun _ => x
    late.earlierLate 0 0 0 lay stp = false ∧ flkRun.params.anchorStallMax = 100
    ∧ (stepIn fun r => { r with plan := { r.plan with stallMax := 100 } }).run? 0 = some { stp with plan := { pln with stallMax := 100 } }
    ∧ s.planEntry? 0 0 = some e ∧ s.sess? hOne = some x
    ∧ (s.at_ (stp.go + dueOffset stp 0 .promotion)).arrived 0 e x lay 0 .promotion = false := by decide +kernel
theorem witness_deadlines : (flkRun.ports.all stp.portDone) = false
    ∧ ((stepIn fun r => { r with stall := some (0, 0, .stream, 7), stalled := 99 }).run? 0).map (·.stall) = some (some (0, 0, .stream, 7))
    ∧ ({ flk with delivered := some (3, [0]) } : Flock).delivered = some (3, [0]) := by decide +kernel

/-- MovesComplete: a move of the sheaf down to T2 in each of its states; a session parked in T1 with quota in T2. -/
def mov : Move := { id := 3, subject := .sheaf hOne 0 0, src := .t1, dst := .t2, dstNode := 5 }
theorem witness_moves :
    let s := { fleet with moves := [mov] }
    let copying := { fleet with moves := [{ mov with state := .copying, drover := some 15 }] }
    (s.moves.find? fun m => m.id == 3) = some mov ∧ mov.state = .queued ∧ s.recovery.drovers.contains 15 = true
    ∧ s.mayStart mov = true ∧ (s.moves.any fun q => q.state == .copying && q.drover == some 15) = false
    ∧ s.hearth.truncated = false ∧ s.domainRuns (13 + 15 / 4) = true
    ∧ copying.poolQuiet { mov with state := .copying, drover := some 15 } = true ∧ mov.src ≠ .t3 := by decide +kernel
/-- A domain that sleeps, a truncated device with a move that a plan asks for, and a committed move whose source is in T1 and one
whose source is in T2. -/
theorem witness_movesMore :
    let s := { fleet with moves := [mov], hearth := { fleet.hearth with domains := assocSet 16 { state := .sleep } fleet.hearth.domains } }
    let cut := { fleet with moves := [{ mov with forPlan := some 0 }], hearth := { fleet.hearth with truncated := true } }
    let freed := { mov with state := .freeing }
    s.domainRuns (13 + 15 / 4) = false ∧ s.mayStart mov = true ∧ ({ fleet with moves := [{ mov with placed := true }] }).movePlanned
      { mov with placed := true } = true
    ∧ cut.movePlanned { mov with forPlan := some 0 } = true ∧ cut.mayStart { mov with forPlan := some 0 } = true
    ∧ freed.src = .t1 ∧ ((({ fleet with moves := [freed] }).subjectSheaves freed.subject).any ({ fleet with moves := [freed] }).oxReads)
      = false ∧ ({ freed with src := .t2 } : Move).src ≠ .t1 := by decide +kernel
def parked : State := fleetIn fun x => { x with state := .parked }
theorem witness_parkedDemote :
    (parked.sess? hOne).map (fun x => (x.state == .parked, x.tier, chargedPen (hOne, x))) = some (true, .t1, 1023)
    ∧ 0 < parked.quota 1023 .t2 := by
  refine ⟨by decide +kernel, ?_⟩
  unfold State.quota State.t2Bytes
  rw [show parked.pen? 1023 = some pen0 by decide +kernel, show parked.usableGroups = List.range 8 by decide +kernel]
  change 0 < (if t2BytesOf (List.range 8) < t2BytesOf (List.range 8) then _ else _)
  rw [if_neg (Nat.lt_irrefl _)]; decide

/-! ### Witnesses: Step Link messages -/

/-- A message: virtual channel, class, operation, step, body. -/
def sl (vc cls op step : Nat) (body : List Byte) : SlMsg :=
  { vc := vc, header := BitVec.ofNat 128 (cls + op * 2 ^ 8 + body.length * 2 ^ 32 + step * 2 ^ 64), body := body }
/-- A body of `n` bytes with fields (bit, value) in its first ones. -/
def body (n : Nat) (fs : List (Nat × Nat)) : List Byte := natToBytes n ((fs.map fun f => f.2 * 2 ^ f.1).sum)

/-- LeaseMessagesComplete: the last port's acknowledgements of a plan, of a lease, of a cancelled lease; a lease that does
not come back; a LANDED. -/
def owed : State := { atStep with flocks := [(0, { flk with next := some pln, delivered := some (3, [0]), leases := [lent] })] }
def gone : State := { atStep with flocks := [(0, { flk with leases := [{ lent with state := .cancelled, reclaim := [(0, 9)] }] })] }
def ack : SlMsg := sl 0 1 3 8 []
def lack : SlMsg := sl 0 2 4 0 (body 8 [(0, 6), (32, 1)])
def back : SlMsg := sl 0 2 5 0 (body 8 [(0, 6)])
theorem witness_planAck : slTakes owed 0 ack 1 3 ∧ ((slTaken owed 0 ack 1 3).flockOf 0).map (fun f =>
    (f.1, f.2.delivered, f.2.next.map (·.step))) = some (0, some (3, [0]), some (msgStep ack)) := by unfold slTakes; decide +kernel
theorem witness_leaseAck : slTakes owed 0 lack 2 4 ∧ ((slTaken owed 0 lack 2 4).lease? 0 (msgField lack 0 32)).isSome = true
    ∧ msgField lack 32 8 = 1 := by unfold slTakes; decide +kernel
/-- The last acknowledgement of an EXTEND. -/
theorem witness_extendAck :
    let s := { atStep with flocks := [(0, { flk with leases := [{ lent with state := .extending, extending := [0] }] })] }
    let m := sl 0 2 4 0 (body 8 [(0, 6), (32, 2)])
    slTakes s 0 m 2 4 ∧ msgField m 32 8 = 2
    ∧ ((slTaken s 0 m 2 4).lease? 0 6).map (fun l => (decide (l.state = .extending), l.extending.filter (· != 0))) = some (true, []) := by
  unfold slTakes; decide +kernel
theorem witness_reclaimed : slTakes gone 0 back 2 5
    ∧ ((slTaken gone 0 back 2 5).lease? 0 (msgField back 0 32)).map (·.state) = some .cancelled
    ∧ (gone.lease? 0 6).map (fun l => (assocGet 0 l.reclaim, l.stuck.contains 0)) = some (some 9, false) := by
  unfold slTakes; decide +kernel
theorem witness_landed : slTakes atStep 0 (sl 2 3 2 0 (body 8 [])) 3 2 := by unfold slTakes; decide +kernel

/-- StepMessagesComplete: the entry's one row, its record, its logits, STEP_DONE, and the pass over its one tile. -/
def qry : SlMsg := sl 1 4 1 8 (body (16 + 64) [(64, 1)])
def apd : SlMsg := sl 2 5 1 8 (body (16 + lay.recordBytes 0) [(32, 64), (64, 1)])
def lgt : SlMsg := sl 3 6 1 8 (List.replicate (16 + 4 * 768) 0)
def dne : SlMsg := sl 3 8 1 8 (body 16 [])
theorem witness_query : slTakes atStep 0 qry 4 1 ∧ stepRuns (slTaken atStep 0 qry 4 1) 0 qry 0 flkRun stp
    ∧ queryBad stp lay qry = false ∧ stp.plan.entries[msgField qry 0 12]? = some ent ∧ ent.sitOut = none := by
  unfold slTakes stepRuns; decide +kernel
theorem witness_append : slTakes atStep 0 apd 5 1 ∧ stepRuns (slTaken atStep 0 apd 5 1) 0 apd 0 flkRun stp
    ∧ appendBad stp lay apd = false ∧ ent.oneToken = false := by unfold slTakes stepRuns; decide +kernel
theorem witness_rows : slTakes atStep 0 lgt 6 1 ∧ stepRuns (slTaken atStep 0 lgt 6 1) 0 lgt 0 flkRun stp
    ∧ logitsBad lay sRun ent lgt = false ∧ 16 ≤ lgt.body.length ∧ (slTaken atStep 0 lgt 6 1).sess? hOne = some sRun := by
  unfold slTakes stepRuns; decide +kernel
theorem witness_stepDone : slTakes atStep 0 dne 8 1 ∧ stepRuns (slTaken atStep 0 dne 8 1) 0 dne 0 flkRun stp := by
  unfold slTakes stepRuns; decide +kernel
theorem witness_queryRows :
    let u := (slTaken atStep 0 qry 4 1).modPlanEntry 0 0 fun e => { e with rows := e.rows ++ groupRows lay 0 qry, drafts := some 0 }
    (u.planEntry? 0 0).map (fun e => e.allRows lay 0) = some true
    ∧ (((stepIn fun r => { r with plan := { r.plan with entries := [{ ent with kind := .prefill, tokens := 2 }] } }).planEntry? 0 0).map
      fun e => ({ e with rows := e.rows ++ groupRows lay 0 qry } : PlanEntry).allRows lay 0) = some false := by decide +kernel
/-- The entry with its row in and its one tile fixed, and the pass that comes next: whole; then of a layer that selects, to score. -/
def entRows : PlanEntry := { ent with rows := groupRows lay 0 qry, drafts := some 0, sources := [{ layer := 0, device := [0] }] }
theorem witness_oxPass :
    let s := stepIn fun r => { r with plan := { r.plan with entries := [entRows] } }
    s.planEntry? 0 0 = some entRows ∧ s.sess? hOne = some sRun
    ∧ s.passTurn entRows sRun lay 0 0 = some { sheaves := [shf], cut := 1, chunk := 0, scoring := false, ox := 0 }
    ∧ entRows.reuses 0 = false ∧ s.readyOxen.contains 0 = true ∧ ([shf].any fun g => (s.inT1 g).isNone) = false := by decide +kernel
/-- A pass that reuses the scores in ox 3's loft, and one of an entry that has sat out. -/
theorem witness_oxPassReuses :
    let e := { entRows with selected := [(0, true)], passes := [(0, 0, 0, true)], scoredOn := [(0, 3)] }
    let s := { stepIn fun r => { r with plan := { r.plan with entries := [e] } } with
      recovery := { atStep.recovery with lofts := [(3, 8, 0, 0)] } }
    e.reuses 0 = true ∧ s.passTurn e sRun lay 0 0 = some { sheaves := [shf], cut := 1, chunk := 0, scoring := false, ox := 3 }
    ∧ assocGet 3 s.recovery.lofts = some (stp.plan.step, 0, 0) ∧ s.recovery.oxen.contains 3 = true ∧ s.readyOxen.contains 3 = true
    ∧ (let o := { entRows with sitOut := some .t3Late }
       (atStep.passTurn o sRun lay 0 0).isSome = true) := by decide +kernel

/-- BringUpMessagesComplete: a port LINKED without and with its HELLO, one that was sent JOIN, one whose RESYNC is out. -/
def linked : State := { atStep with stepPorts := [(0, { state := .linked, census := true })] }
def hi : SlMsg := sl 0 9 1 0 (body 16 [(40, 1), (48, 1)])
theorem witness_hello : slTakes linked 0 hi 9 1 ∧ ((slTaken linked 0 hi 9 1).stepPort 0).helloSeen = false
    ∧ msgField hi 40 8 = 1 ∧ msgField hi 48 1 = 1
    ∧ (∀ v < 4, (partnerGrants (.step 0)).getD v 0 ≤ (partnerGrants (.step 0)).getD v 0) := by unfold slTakes; decide +kernel
theorem witness_slotTable :
    let s := { atStep with stepPorts := [(0, { state := .linked, census := true, helloSeen := true })] }
    slTakes s 0 (sl 0 9 2 0 (body 16 [])) 9 2
    ∧ ((slTaken s 0 (sl 0 9 2 0 (body 16 [])) 9 2).stepPort 0).helloSeen = true
    ∧ ((slTaken s 0 (sl 0 9 2 0 (body 16 [])) 9 2).stepPort 0).slots = none := by unfold slTakes; decide +kernel
theorem witness_ready :
    let s := { atStep with stepPorts := [(0, { state := .linked, census := true, joinSent := true })] }
    slTakes s 0 (sl 0 9 4 0 []) 9 4 ∧ ((slTaken s 0 (sl 0 9 4 0 []) 9 4).stepPort 0).joinSent = true := by
  unfold slTakes; decide +kernel
theorem witness_resync :
    let s := { atStep with flocks := [(0, { flk with resync := [(0, 5)] })] }
    slTakes s 0 (sl 0 9 6 0 []) 9 6 ∧ ((slTaken s 0 (sl 0 9 6 0 []) 9 6).flockOf 0).map (·.1) = some 0
    ∧ (s.flockOf 0).map (fun f => assocGet 0 f.2.resync) = some (some 5) := by unfold slTakes; decide +kernel
theorem witness_stepLinkError : slTakes atStep 0 (sl 0 9 7 0 (body 8 [])) 9 7 := by unfold slTakes; decide +kernel

/-! ### Witnesses: links and census -/

/-- FlitsComplete: a data flit in order, out of order and old; a NAK; a replay buffer with a flit. -/
def flitOf (type seq ack len : Nat) : BitVec 64 := BitVec.ofNat 64 (type + seq * 2 ^ 8 + ack * 2 ^ 24 + len * 2 ^ 56)
theorem witness_flits : linkExists (.step 0) = true ∧ atStep.linkUp (.step 0) = true
    ∧ flitField (flitOf 1 0 0xFFFF 244) 0 2 = 1 ∧ flitField (flitOf 1 0 0xFFFF 244) 56 8 = 244
    ∧ ((atStep.port (.step 0)).flits.control (flitOf 1 0 0xFFFF 244)).isSome = true
    ∧ flitField (flitOf 2 0 0xFFFF 0) 0 2 = 2 ∧ flitField (flitOf 2 0 0xFFFF 0) 56 8 = 0
    ∧ ((atStep.port (.step 0)).flits.control (flitOf 2 0 0xFFFF 0)).map (·.lastNak) = some none
    ∧ ((atStep.modPort (.step 0) fun q => { q with flits := { q.flits with replay := [(0, 4)], nextSeq := 1 } }).port (.step 0)).flits.replay
      = [(0, 4)] := by decide +kernel
theorem witness_flitsMore :
    flitField (flitOf 0 0 0xFFFF 0) 0 2 = 0 ∧ flitField (flitOf 0 0 0xFFFF 0) 56 8 = 0
    ∧ ((atStep.port (.step 0)).flits.control (flitOf 0 0 0xFFFF 0)).map (fun x =>
        ((flitField (flitOf 0 0 0xFFFF 0) 8 16 + 65536 - x.expect) % 65536, (flitField (flitOf 1 0xFFFF 0xFFFF 1) 8 16 + 65536 - x.expect) % 65536,
          (flitField (flitOf 1 1 0xFFFF 1) 8 16 + 65536 - x.expect) % 65536)) = some (0, 65535, 1)
    ∧ (List.replicate 244 (0 : Byte)).length = 244 ∧ flitField (flitOf 1 0 0xFFFF 1) 56 8 = 1 := by decide +kernel
theorem test_flit :
    ((after (exec (.flit (.step 0) true (flitOf 1 0 0xFFFF 244) (List.replicate 244 0)) atStep) srv).port (.step 0)).flits.expect = 1
    ∧ ((after (exec (.flit (.step 0) true (flitOf 1 1 0xFFFF 244) (List.replicate 244 0)) atStep) srv).port (.step 0)).flits.nakOutstanding
      = true := by decide +kernel

/-- LinkTrainingCompletes: a Step Link and a Commons port in RETRAIN with every lane usable, one in training with all and with
none, one LINKED without its HELLO, one FAILED, one UP. -/
def portIn (k : Link) (st : PortState) : State := srv.modPort k fun q => { q with state := st, width := 1, census := true }
theorem witness_training :
    ((portIn (.step 7) .retrain).port (.step 7)).state = .retrain ∧ (widthOf (.step 7) 0xFFFFFFFF).any (1 ≤ ·) = true
    ∧ ((portIn (.commons 17) .retrain).port (.commons 17)).state = .retrain ∧ (widthOf (.commons 17) 0xFFFFFFFF).any (1 ≤ ·) = true
    ∧ ((portIn (.step 7) .training).port (.step 7)).state = .training ∧ widthOf (.step 7) 0 = none
    ∧ (bringupBound (.step 7) ((portIn (.step 7) .linked).port (.step 7))).isSome = true
    ∧ ((portIn (.step 7) .linked).port (.step 7)).resets = 0
    ∧ ((portIn (.commons 17) .failed).port (.commons 17)).state = .failed
    ∧ (portIn (.commons 17) .up).linkUp (.commons 17) = true ∧ linkExists (.step 7) = true ∧ linkExists (.commons 17) = true := by
  decide +kernel
/-- A narrower width; training after a failure; a port reset three times. -/
theorem witness_trainingMore :
    let k := Link.step 7
    (widthOf k 0x0000FFFF).isSome = true ∧ ((portIn k .retrain).modPort k fun q => { q with width := 32 }).port k
      = { ((portIn k .retrain).port k) with width := 32 }
    ∧ (widthOf k 0x0000FFFF).map (fun w => decide (min w 32 < 32)) = some true
    ∧ (let s := (portIn k .training).modPort k fun q => { q with census := false, retried := true }
       (s.port k).state = .training ∧ (s.port k).census = false ∧ (s.port k).retried = true)
    ∧ (let s := (portIn k .linked).modPort k fun q => { q with resets := 3 }
       bringupBound k (s.port k) = bringupBound k ((portIn k .linked).port k) ∧ 3 ≤ (s.port k).resets) := by decide +kernel

/-- CensusLossesComplete: the last channel and the last stack; the last ox, reset for the first time. -/
theorem witness_census : 127 ∈ srv.recovery.channels ∧ 11 ∈ srv.recovery.hbmStacks ∧ unitExists (.ox 63) = true
    ∧ srv.ident.devState ≠ .boot ∧ srv.recovery.holds (.ox 63) = true
    ∧ (((srv.recovery.unit (.ox 63)).resets.filter fun t => decide (srv.clock.now ≤ t + 2 ^ 26)) ++ [srv.clock.now]).length < 3 := by
  decide +kernel
/-- The unit that no unit reset clears; an ox reset for the third time. -/
theorem witness_censusMore : unitExists .unresettable = true ∧ srv.recovery.holds .unresettable = true
    ∧ (let s := { srv with recovery := { srv.recovery with units := [(.ox 63, { resets := [2 ^ 22, 2 ^ 22] })] } }
       3 ≤ (((s.recovery.unit (.ox 63)).resets.filter fun t => decide (s.clock.now ≤ t + 2 ^ 26)) ++ [s.clock.now]).length) := by
  decide +kernel
theorem test_hbmStackFail : (after (exec (.hbmStackFail 11 []) srv) srv).recovery.hbmStacks = List.range 11 := by decide +kernel

/-! ### Witnesses: the Commons -/

/-- A packet from node 9 to node 5 for pen 1023, on port 17: operation, body. -/
def pkt (op : Nat) (b : List Byte) (pktId : Nat := 4) : Pkt :=
  { port := 17, vc := opVc op, tagOk := true, body := b
    header := BitVec.ofNat 512 (op + 5 * 2 ^ 16 + 9 * 2 ^ 32 + 1023 * 2 ^ 48 + 2 ^ 64 + 2 ^ 128 + b.length * 2 ^ 192 + pktId * 2 ^ 384) }
/-- A map record: kind, node, the bits of a grant, pen and local pen 1023. -/
def mapRec (kind node : Nat) : MapRec :=
  { kind := kind, node := BitVec.ofNat 13 node
    raw := natToBytes 16 (kind + 2 ^ 4 + 2 ^ 5 + 2 ^ 6 + node * 2 ^ 8 + 1023 * 2 ^ 24 + 1023 * 2 ^ 40) }
def req : Request := { pktId := 4, dest := 9, pseq := 1, header := (pkt 1 []).header, body := [], sent := 0, use := .other }
/-- `atStep` with port 17 UP, node 9 its partner, its pool and its client, and a request outstanding. -/
def wired : State :=
  { atStep with
    commons := { ports := [(17, { state := .up, census := true })], map := [mapRec 1 9, mapRec 2 9], requests := [req] }
    partner := { node := some 9 }
    pens := shelf.pens }

/-- PacketsComplete: each memory operation, a response, a HELLO of node 9, and the outstanding request at its last
retransmission and after it. -/
theorem witness_memoryPackets : pktTakes wired (pkt 1 []) 1 ∧ pktTakes wired (pkt 2 []) 2 ∧ pktTakes wired (pkt 3 []) 3 := by
  unfold pktTakes; decide +kernel
/-- A packet next in its source's order, and one applied before. -/
theorem witness_memoryOrder :
    let p := pkt 1 []
    let old := { wired with commons := { wired.commons with ins := [(9, { incarnation := 1, applied := 1 })] } }
    hdrField p.header 64 48 = ((pktTaken wired p).inStream (hdrField p.header 32 13)).applied + 1
    ∧ hdrField p.header 64 48 ≤ ((pktTaken old p).inStream (hdrField p.header 32 13)).applied := by decide +kernel
/-- A switch; a request that waits for its BUSY hint, and one that waits for a route. -/
theorem witness_packetsMore :
    let m := sl 0 9 1 0 (body 16 [(40, 1), (48, 2)])
    let busy := { wired with commons := { wired.commons with requests := [{ req with busyUntil := some 7 }] } }
    let stray := { wired with commons := { wired.commons with requests := [{ req with waiting := some 7 }] } }
    msgField m 48 2 = 2 ∧ (busy.request? 4).map (fun r => (r.waiting, r.busyUntil)) = some (none, some 7)
    ∧ (stray.request? 4).map (·.waiting) = some (some 7) := by decide +kernel
theorem witness_responsePackets : pktTakes wired (pkt 4 []) 4 ∧ pktTakes wired (pkt 0x80 (body 32 [])) 0x80
    ∧ (pktTaken wired (pkt 0x80 (body 32 []))).request? (hdrField (pkt 0x80 (body 32 [])).header 384 64) = some req
    ∧ req.dest.toNat = hdrField (pkt 0x80 (body 32 [])).header 32 13 := by unfold pktTakes; decide +kernel
theorem witness_commonsHello :
    let s := { wired with commons := { ports := [(17, { state := .linked })] } }
    let m := sl 0 9 1 0 (body 16 [(40, 1), (51, 9)])
    (s.port (.commons 17)).carries = true ∧ msgCls m = 9 ∧ msgOp m = 1 ∧ msgLen m = 16 ∧ m.body.length = 16
    ∧ bitsOf m.header.toNat 16 16 = 0 ∧ bitOf (bytesToNat m.body) 50 = false ∧ (s.port (.commons 17)).helloSeen = false
    ∧ msgField m 40 8 = 1 ∧ msgField m 48 2 < 2 ∧ msgField m 51 13 ≠ s.node
    ∧ (s.harvest.aliases.any fun a => a.1.toNat == msgField m 51 13) = false := by decide +kernel
theorem witness_retransmit : wired.request? 4 = some req ∧ req.waiting = none ∧ req.busyUntil = none
    ∧ ({ req with retries := 7 } : Request).retries < 8 ∧ 8 ≤ ({ req with retries := 8 } : Request).retries
    ∧ (wired.at_ (3 + 2 ^ 20)).nextRoute 9 = none := by decide +kernel
/-- The remote services: a request for the sheaf that the session homed here holds, and for the pen's index. -/
def att : Pkt := pkt 0x10 (natToBytes 64 (hOne.toNat * 2 ^ 64 + 2 ^ 139 + 2 ^ 144 + 2 ^ 160 + 32 * 2 ^ 176 + 0x3F800000 * 2 ^ 224
  + 2 ^ 320 + 2 ^ 416) ++ natToBytes 4 0 ++ natToBytes 64 0)
theorem witness_attendReq : serviceTakes wired att 0x10 ∧ hdrField att.header 8 1 = 0
    ∧ ((pktTaken wired att).grantOf att.header).map (·.bit 5) = some true ∧ attendBad att.body = false
    ∧ (∀ o ∈ attendOrdinals att.body, ((pktTaken wired att).heldSheaf (hdrField att.header 32 13) (hdrField att.header 48 10)
        (BitVec.ofNat 64 (bitsOf (bytesToNat (att.body.take 64)) 64 64)) (bitsOf (bytesToNat (att.body.take 64)) 128 10) o).isSome
          = true) := by unfold serviceTakes pktTakes; decide +kernel
def find : Pkt := pkt 0x11 (natToBytes 64 (4 * 2 ^ 128 + 2 ^ 320 + 2 ^ 336) ++ natToBytes 64 0)
theorem witness_searchReq :
    let d : Desc := BitVec.ofNat 512 (bytesToNat (find.body.take 64))
    serviceTakes wired find 0x11 ∧ hdrField find.header 8 1 = 0
    ∧ ((pktTaken wired find).grantOf find.header).map (fun g => (g.bit 6, g.localPen)) = some (true, 1023)
    ∧ (pktTaken wired find).index? 1023 (operand d 0 4) = some idx ∧ find.body.length = 64 + 2 * indexDim idx.params
    ∧ badAmong (searchChecks false d) = none ∧ operand d 24 2 ≠ 0 ∧ operand d 26 2 ≠ 0 := by
  unfold serviceTakes pktTakes; decide +kernel

/-- RegistryPacketsComplete: each operation on the entry held here, and a mirrored entry of the partner. -/
def regPkt (op n : Nat) : Pkt := pkt op (natToBytes n hOne.toNat)
theorem witness_registry1 : serviceTakes wired (regPkt 0x20 8) 0x20 ∧ serviceTakes wired (regPkt 0x21 18) 0x21
    ∧ serviceTakes wired (regPkt 0x22 16) 0x22 ∧ (pktTaken wired (regPkt 0x20 8)).partner.asking = false
    ∧ ((pktTaken wired (regPkt 0x20 8)).partner.deposed && handleNode hOne == (pktTaken wired (regPkt 0x20 8)).node) = false
    ∧ (pktTaken wired (regPkt 0x20 8)).isSelf (handleNode hOne) = true := by unfold serviceTakes pktTakes; decide +kernel
theorem witness_registry2 : serviceTakes wired (regPkt 0x23 16) 0x23 ∧ serviceTakes wired (regPkt 0x24 17) 0x24
    ∧ serviceTakes wired (regPkt 0x25 16) 0x25 := by unfold serviceTakes pktTakes; decide +kernel
theorem witness_registry3 : serviceTakes wired (regPkt 0x26 8) 0x26 ∧ serviceTakes wired (regPkt 0x28 32) 0x28
    ∧ (pktTaken wired (regPkt 0x28 32)).namedPartner = some (hdrField (regPkt 0x28 32).header 32 13)
    ∧ (pktTaken wired (regPkt 0x28 32)).partner.standIn = false := by unfold serviceTakes pktTakes; decide +kernel
/-- The device asks its partner who answers for the slice; no change of it waits from this packet; REGROW of one session. -/
theorem witness_registry4 :
    let s := { wired with partner := { wired.partner with asking := true } }
    (pktTaken s (regPkt 0x20 8)).partner.asking = true
    ∧ ((pktTaken wired (regPkt 0x21 18)).commons.regPending.any fun r => r.origin == .remote (regPkt 0x21 18).header) = false
    ∧ (regPkt 0x26 8).body.length = 8 * 1 := by decide +kernel

/-- PartnerPacketsComplete: notices about the session homed here and about one that is not, batches one after the last and
an old one, an open offer and an open handoff. -/
def notice (kind : Nat) (h : Handle) (n : Nat) : Pkt := pkt 0x27 (natToBytes 8 kind ++ natToBytes 8 h.toNat ++ natToBytes 8 n)
def hFar : Handle := mkHandle 9 1023 1 1
theorem witness_handoffAsk :
    let p := notice nHandoffAsk hOne 4096
    let q := notice nHandoffAsk hFar 4096
    serviceTakes wired p 0x27 ∧ bytesAt p.body 0 8 = nHandoffAsk ∧ ((pktTaken wired p).sess? hOne).isSome = true
    ∧ serviceTakes wired q 0x27 ∧ (pktTaken wired q).sess? hFar = none ∧ (pktTaken wired q).commons.incoming.length = 0
    ∧ (match (pktTaken { wired with pens := srv.pens, commons := { wired.commons with map := [mapRec 1 9] } } q).reserveIncoming 9 hFar 4096 with
      | .ok _ => true | .error _ => false) = true := by
  unfold serviceTakes pktTakes; decide +kernel
theorem witness_homeChanged :
    let p := notice nHomeChanged hOne 2
    let s := wired.modSess hOne fun x => { x with handover := some { dest := 9 } }
    serviceTakes wired (notice nHomeChanged hFar 2) 0x27 ∧ serviceTakes s p 0x27 ∧ bytesAt p.body 0 8 = nHomeChanged
    ∧ ((pktTaken s p).sess? hOne).map (fun x => (x.homeVersion, x.handover.isSome)) = some (1, true) ∧ bytesAt p.body 16 8 = 2 := by
  unfold serviceTakes pktTakes; decide +kernel
theorem witness_restarted :
    let p := notice nRestarted hOne 0
    serviceTakes wired p 0x27 ∧ bytesAt p.body 0 8 = nRestarted ∧ (pktTaken wired p).partner.node.map (·.toNat) = some 9
    ∧ ((pktTaken wired p).commons.requests.any fun r => match r.use with | .giveBack _ => true | _ => false) = false := by
  unfold serviceTakes pktTakes; decide +kernel
theorem witness_records :
    let batch := pkt 0x30 (body 16 [(0, 1), (64, 1)])
    let old := pkt 0x30 (body 16 [(0, 1)])
    let ask := pkt 0x30 (body 32 [(0, 2), (16, 1)])
    let forget := pkt 0x30 (body 24 [(0, 3), (16, 1)])
    serviceTakes wired batch 0x30 ∧ (pktTaken wired batch).namedPartner = some 9
    ∧ bytesAt batch.body 8 8 = (pktTaken wired batch).partner.applied + 1 ∧ bytesAt old.body 8 8 ≤ (pktTaken wired old).partner.applied
    ∧ serviceTakes wired ask 0x30 ∧ bytesAt ask.body 0 1 % 16 = 2 ∧ ask.body.length = 16 + 16 * bytesAt ask.body 2 2
    ∧ serviceTakes wired forget 0x30 ∧ bytesAt forget.body 0 1 % 16 = 3 ∧ forget.body.length = 16 + 8 * bytesAt forget.body 2 2 := by
  unfold serviceTakes pktTakes; decide +kernel
theorem witness_offers :
    let s := fleet.modEntry hOne fun e => { e with offerValid := true, offerNode := 9 }
    let t := fleetIn fun x => { x with handover := some { dest := 9, offered := true } }
    (s.entry? hOne).map (fun e => (e.handle == hOne, e.offerValid)) = some (true, true)
    ∧ ((t.sess? hOne).bind (·.handover)).map (fun h => (h.offered, h.committed)) = some (true, false)
    ∧ (t.commons.requests.any fun r => r.use == .registry hOne) = false := by decide +kernel
theorem witness_handoffCheck :
    let s := fleetIn fun x => { x with handover := some { dest := 9, final := true } }
    ((s.sess? hOne).bind (·.handover)).map (fun h => (h.final, h.committed)) = some (true, false)
    ∧ (s.commons.requests.any fun r => r.use == .registry hOne) = false := by decide +kernel

/-! ### Witnesses: resets, power and supplies -/

/-- WarmResetsComplete: a warm reset that waits, one that rejoins, none; with one and with two in the last 2^31 cycles. -/
theorem witness_warm :
    let w0 := { srv with recovery := { warm := some (9, 0), warmHistory := [1] } }
    let w1 := { srv with recovery := { warm := some (9, 1) } }
    w0.recovery.warm = some (9, 0) ∧ w1.recovery.warm = some (9, 1) ∧ srv.recovery.warm = none ∧ srv.ident.devState ≠ .boot
    ∧ srv.watchmanRuns = true ∧ (srv.debugPort.harts.any fun h => h.1 < 16 && h.2.halted) = false
    ∧ srv.aoRuns = true ∧ srv.board.served = true ∧ srv.board.pwrCycleLow = false
    ∧ (([1, 2] : List Nat).filter fun t => decide (srv.clock.now < t + 2 ^ 31)).length = 2
    ∧ (([1] : List Nat).filter fun t => decide (srv.clock.now < t + 2 ^ 31)).length < 2 := by decide +kernel
theorem test_thirdWarmReset :
    (after (exec (.warmRstL 1000) { srv with recovery := { warmHistory := [1, 2] } }) State.reset).recovery.lastCause = 7
    ∧ (after (exec (.warmRstL 1000) { srv with recovery := { warmHistory := [1] } }) State.reset).recovery.warm = some (2 ^ 22, 0) := by
  decide +kernel

/-- PowerAndSuppliesComplete: PWR_CYCLE_L low, a power cycle that waits for the third time, a boot with an image and with
none, PORST_L asserted, a rail out of order, the clock lost. -/
theorem witness_power_supplies :
    let low := { srv with board := { srv.board with pwrCycleLow := true, hold := 3 } }
    let third := { srv with board := { srv.board with powerOn := some 6, powerTries := 2 } }
    let boots := { srv with board := { porst := false, booting := true }, security := { reeveSlots := (some img, none), rollback := 3 } }
    low.board.pwrCycleLow = true ∧ low.board.hold = 3 ∧ third.board.powerOn = some 6 ∧ third.watchmanRuns = true
    ∧ 2 ≤ third.board.powerTries ∧ srv.board.porst = false ∧ State.reset.board.porst = true
    ∧ boots.board.booting = true ∧ boots.aoRuns = true ∧ boots.board.pwrCycleLow = false
    ∧ boots.security.bootSlot boots.security.reeveSlots .active = some (some img)
    ∧ boots.security.bootSlot boots.security.reeveSlots .neither = none
    ∧ ({ srv with board := { srv.board with railOrder := true } } : State).board.railOrder = true
    ∧ srv.board.refclkLost = false := by decide +kernel
theorem witness_supplies :
    srv.board.porst = false ∧ srv.board.pwrCycleLow = false
    ∧ ({ srv with board := { srv.board with pwrCycleLow := true, railFault := true } } : State).board.railFault = true
    ∧ ({ srv with board := { srv.board with refclkLost := true } } : State).board.refclkLost = true ∧ srv.board.hold = 0 := by
  decide +kernel

/-- DomainsAndHeartbeatsComplete: a change that waits, and a domain that wakes. -/
theorem witness_domains :
    let s := { srv with hearth := { changes := [(1, 105, .run)], domains := [(105, { state := .sleep, wakeDue := some 8 })] } }
    s.hearth.changes = [(1, 105, .run)] ∧ (s.domain 105).wakeDue = some 8 ∧ 105 < 106 := by decide +kernel
theorem witness_mayRest :
    srv.mayRest 105 .off = true ∧ srv.mayRest 105 .sleep = false ∧ srv.mayRest 9 .sleep = true := by decide +kernel

/-! ### Witnesses: side band, SPDM, debug port -/

/-- SideBandCompletes: no attention waits; a record is out, sent twice and for the last time. -/
theorem witness_sideBand :
    let s := { srv.modEvRing 0 2 fun e => { e with written := 1, reeve := true } with watchman := { record := some (2, 9, 2) } }
    sbAnswers srv false ∧ srv.watchman.attention = [] ∧ s.watchman.record = some (2, 9, 2) ∧ s.sbListens = true
    ∧ ((s.crierOf 0).ring 2).head ≠ ((s.crierOf 0).ring 2).written
    ∧ ({ srv with watchman := { record := some (2, 9, 3) } } : State).watchman.record = some (2, 9, 3) := by
  unfold sbAnswers; decide +kernel
theorem test_statusRead : (after (exec (.statusRead 0x7FF 1) srv) State.reset).out.length = 1
    ∧ (after (exec (.statusRead 0x7FF 2) srv) State.reset).out = [.sideBand (sbBody 2 3 [])] := by decide +kernel

/-- MctpCompletes: without an endpoint id, the message to 0 is the Watchman's. -/
theorem witness_mctp : sbAnswers srv true ∧ srv.forMe 0 = true ∧ srv.sbListens = true ∧ (0x7E : Byte) ∈ mctpTypes := by
  unfold sbAnswers; decide +kernel
theorem test_eid : (after (exec (.setEndpointId 0 9) srv) State.reset).watchman.eid = some 9 := by decide +kernel

/-- PldmQueriesComplete and PldmUpdateCompletes: the sensors' ends; no update; one whose block is its last; one staged. -/
theorem witness_pldm : sbAnswers srv false ∧ srv.stateSensor 0x100 = some 1 ∧ pldmListed 2 0x12 = false ∧ (0x50 : BitVec 16).toNat ≤ 0x50
    ∧ (0x117 : BitVec 16).toNat ≤ 0x117 := by unfold sbAnswers; decide +kernel
theorem witness_update :
    let u : Update := { component := 1, size := 1024 }
    sbAnswers srv false ∧ srv.watchman.update = none ∧ srv.ident.liveUpdate = none ∧ srv.stagingByMailbox = false
    ∧ srv.updatable 1 = true ∧ u.received.length < u.size ∧ u.staged = false ∧ u.size ≤ (fitTo 1024 [7]).length
    ∧ (let s := { srv with watchman := { update := some { u with staged := true } }, security := { staged := some img, rollback := 3 } }
       s.watchman.update.isSome = true ∧ s.security.staged = some img ∧ s.security.rollback ≤ img.svn
       ∧ s.board.noReeve = false ∧ sbAnswers s true) := by unfold sbAnswers; decide +kernel

/-- SpdmRequestsComplete: each state of the connection, with and without entropy. -/
def spoke : State :=
  srv.setConn .hostPort { version := true, capabilities := true, algorithms := true }
theorem witness_spdm : srv.spdmHears .hostPort = true ∧ srv.spdmHears .sideBand = true ∧ spoke.spdmHears .hostPort = true
    ∧ (spoke.spdmConn .hostPort).version = true ∧ (spoke.spdmConn .hostPort).capabilities = true
    ∧ (spoke.spdmConn .hostPort).algorithms = true ∧ spoke.security.certValid = true ∧ spoke.security.entropyOk = true
    ∧ ({ spoke with security := { spoke.security with entropyOk := false } } : State).security.entropyOk = false := by decide +kernel

/-- SpdmSessionCompletes: no session; a handshake; a session, with seven tag failures; the first operator key. -/
theorem witness_spdmSession :
    let open_ := { spoke with security := { spoke.security with session := true, locked := true, tagFails := 7 } }
    spoke.security.session = false
    ∧ ({ spoke with security := { spoke.security with handshaking := true } } : State).security.handshaking = true
    ∧ open_.spdmHears .hostPort = true ∧ open_.security.session = true ∧ 7 ≤ open_.security.tagFails
    ∧ open_.sessionMessage.operatorOk 0 true 5 none 0 = true := by decide +kernel
theorem test_operatorKey :
    (after (exec (.operatorKey { ctx := 0x400, secured := true } 0 true 5 none 0)
      { spoke with security := { spoke.security with session := true } }) State.reset).security.operatorKeys = [(0, 5)] := by decide +kernel

/-- DebugPortCompletes: boundary-scan mode; level 0, 1 and 2; eight refusals. -/
theorem witness_debug :
    let scan := { srv with debugPort := { bscanMode := true } }
    let one := { srv with debugPort := { level := 1 } }
    srv.aoRuns = true ∧ scan.debugPort.bscanMode = true ∧ scan.aoRuns = true ∧ srv.security.entropyOk = true
    ∧ ({ refusals := 8 } : Debug).refusals = 8 ∧ srv.debugPort.refusals < 8 ∧ one.debugPort.level = 1 ∧ srv.debugPort.level = 0
    ∧ one.domainRuns 105 = true ∧ srv.security.heldFresh = [] := by decide +kernel
theorem test_idcode : (after (exec .idcode srv) State.reset).out = [.tdo 32 0xB41605D7]
    ∧ (after (exec (.dmi 0x10 1 2) srv) State.reset).debugPort.dmiStatus = 2
    ∧ (after (exec .highz srv) State.reset).debugPort.bscanRefused = true := by decide +kernel

/-- The worked example of 16_security: the info strings of Quince Row's K_PEN in generation 3 and of K_LINK from 0x0041 to
0x0047 and back, and the first bytes of the salt input of a full FP8 sheaf of pen 0x01B. -/
theorem test_key_inputs :
    penInfo 0x015 3 = [0x4C, 0x59, 0x54, 0x48, 0x41, 0x2D, 0x50, 0x45, 0x4E, 0x15, 0x00, 0x03, 0x00, 0x00, 0x00]
    ∧ (linkInfo 0x41 0x47 0x12).drop 10 = [0x41, 0x00, 0x47, 0x00, 0x41, 0x00, 0x12, 0x00, 0x00, 0x00]
    ∧ (linkInfo 0x47 0x41 0x09).drop 10 = [0x41, 0x00, 0x47, 0x00, 0x47, 0x00, 0x09, 0x00, 0x00, 0x00]
    ∧ nameInput 0x01B 1 0x80 [7] = [0x1B, 0x00, 0x01, 0x80, 7] ∧ (linkInfo 0x41 0x47 0x12).length = 20 := by decide +kernel

/-! ### Witnesses: what commands leave alone -/

/-- ManagementFrame, HostPortFrame, ConfigurationFrame and IndexFrame: a command of each that answers a next state. -/
def answers (c : Instr) (s : State) : Bool := match exec c s with | .next _ => true | _ => false
theorem witness_frames : answers .idcode srv = true ∧ answers (.eventMaskWrite own 1023 7) srv = true
    ∧ answers (.layoutLoad .admin) (mbWith srv .admin (mbCmd (desc 0x0020 0 []) layoutBytes)) = true
    ∧ answers (.indexCommit 1023 4095) (ringWith shelf (ringCmd (desc 0x0122 0 [(0, 4, 4)]))) = true := by decide +kernel

end Sys2Proof.Tests
end

section
/-!
SUPPORT. Writes of the control node to a doorbell (R75) and to LADDER_CTRL (R65): what a request that the host port takes
changes before its effect, the rules of `modRing`, the three outcomes of a doorbell write, the discard of a ladder write,
and the two statements about them.
-/
namespace Sys2Proof.Proofs
open Sys2Proof.Machine Sys2Proof.Safety Sys2Proof.Laws

/-! ### The queue -/

theorem step_of_pending_cons {s : State} {c : Instr} {rest : List Instr} (h : s.pending = c :: rest) :
    step s = exec c { s with pending := rest } := by
  simp only [step, h]

/-! ### What a host request leaves alone -/

/-- `t` differs from `s` only where taking a host request and counting an error can reach: the identity block, the host
port's session, the pens' Crier blocks, and what raising an event changes. -/
structure HostRequestOnly (s t : State) : Prop where
  rest : t = { s with
    ident := t.ident, security := t.security, pens := t.pens, out := t.out, crierArea := t.crierArea, hwAt := t.hwAt
    watchman := t.watchman }

namespace HostRequestOnly

theorem refl (s : State) : HostRequestOnly s s := ⟨rfl⟩

theorem trans {s t u : State} (a : HostRequestOnly s t) (b : HostRequestOnly t u) : HostRequestOnly s u := by
  refine ⟨?_⟩
  rw [b.rest, a.rest]

variable {s t : State} (h : HostRequestOnly s t)
include h

theorem ladder : t.ladder = s.ladder := by rw [h.rest]
theorem recovery : t.recovery = s.recovery := by rw [h.rest]
theorem sessions : t.sessions = s.sessions := by rw [h.rest]
theorem flocks : t.flocks = s.flocks := by rw [h.rest]

end HostRequestOnly

/-- A state whose HOST_ERRORS counter of `c` has counted one more (R64). -/
def hostErrorCounted (s : State) (c : HostErr) : State :=
  { s with ident := { s.ident with hostErrors := tallyAdd s.ident.hostErrors c 1 16 } }

/-- After its counter, a host error touches the Crier's side alone. -/
theorem hostError_crierOnly (s : State) (c : HostErr) (ctx off : Nat) :
    CrierOnly (hostErrorCounted s c) (s.hostError c ctx off) := by
  unfold State.hostError
  dsimp only
  split
  · exact .refl _
  · exact raise_crierOnly _ _ _ _ _

theorem hostError_hostErrors (s : State) (c : HostErr) (ctx off : Nat) :
    (s.hostError c ctx off).ident.hostErrors = tallyAdd s.ident.hostErrors c 1 16 := by
  rw [(hostError_crierOnly s c ctx off).rest]
  rfl

theorem hostError_hostRequestOnly (s : State) (c : HostErr) (ctx off : Nat) :
    HostRequestOnly s (s.hostError c ctx off) := by
  refine ⟨?_⟩
  rw [(hostError_crierOnly s c ctx off).rest]
  rfl

theorem sessionMessage_hostRequestOnly (s : State) : HostRequestOnly s s.sessionMessage := ⟨rfl⟩

theorem heard_hostRequestOnly (s : State) (q : Req) : HostRequestOnly s (s.heard q) := by
  unfold State.heard
  split
  · exact sessionMessage_hostRequestOnly s
  · exact .refl s

theorem takeHeader_hostRequestOnly (s : State) (q : Req) (off : Nat) : HostRequestOnly s (s.takeHeader q off) := by
  unfold State.takeHeader
  dsimp only
  split
  · exact (heard_hostRequestOnly s q).trans (hostError_hostRequestOnly _ _ _ _)
  · exact heard_hostRequestOnly s q

theorem hostTaken_hostRequestOnly (s : State) (q : Req) (off : Nat) : HostRequestOnly s (hostTaken s q off) := by
  unfold hostTaken
  dsimp only
  split
  · exact (takeHeader_hostRequestOnly s q off).trans (sessionMessage_hostRequestOnly _)
  · exact takeHeader_hostRequestOnly s q off

/-! ### LADDER_CTRL -/

/-- A value of LADDER_CTRL that R65 and Table 3.3 discard in state `s`. -/
def ladderDiscarded (s : State) (v : BitVec 64) : Prop :=
  s.ladder.busy = true ∨ v.toNat / 2 ^ 16 % 2 ^ 16 ≠ 0xA5C3 ∨ (ladderAction v ≠ 1 ∧ ladderAction v ≠ 2)

theorem writeLadder_discards {s : State} {v : BitVec 64} (h : ladderDiscarded s v) (ctx : Nat) :
    s.writeLadder ctx v = s.hostError .badWrite ctx ladderOff := by
  unfold State.writeLadder
  split
  · rfl
  · next taken =>
    obtain ⟨idle, confirmed⟩ : s.ladder.busy = false ∧ bitsOf v.toNat 16 16 = 0xA5C3 := by simpa using taken
    rcases h with busy | unconfirmed | ⟨notReinit, notWarm⟩
    · simp [idle] at busy
    · exact absurd confirmed unconfirmed
    · rw [if_neg notReinit, if_neg notWarm]

/-- Taking the request does not change whether its value is discarded. -/
theorem ladderDiscarded_hostTaken {s : State} {v : BitVec 64} (h : ladderDiscarded s v) (q : Req) (off : Nat) :
    ladderDiscarded (hostTaken s q off) v := by
  rwa [ladderDiscarded, (hostTaken_hostRequestOnly s q off).ladder]

section
variable {q : Req} {s : State} (taken : hostTakes s q (.ladder 0) ladderOff 8)
include taken

theorem exec_ladderPenReinit {v : BitVec 64} (h : ladderAction v ≠ 2) :
    exec (.ladderPenReinit q v) s = .next ((hostTaken s q ladderOff).writeLadder q.ctx v) := by
  change execLadderPenReinit q v s = _
  rw [execLadderPenReinit, if_neg h, hostWrite_takes taken]

theorem exec_ladderWarmReset {v : BitVec 64} (h : ladderAction v ≠ 1) :
    exec (.ladderWarmReset q v) s = .next ((hostTaken s q ladderOff).writeLadder q.ctx v) := by
  change execLadderWarmReset q v s = _
  rw [execLadderWarmReset, if_neg h, hostWrite_takes taken]

end

/-- Settles O10: such a write only counts a host error, and a host error stays on the host's side of the device. -/
theorem ladderDiscards : Obligations.LadderDiscards := by
  unfold Obligations.LadderDiscards
  intro q v s taken discarded
  have write := writeLadder_discards (ladderDiscarded_hostTaken discarded q ladderOff) q.ctx
  have frame := (hostTaken_hostRequestOnly s q ladderOff).trans
    (hostError_hostRequestOnly _ .badWrite q.ctx ladderOff)
  refine ⟨fun notWarm => ?_, fun notReinit => ?_, frame.ladder, frame.recovery, frame.sessions, frame.flocks,
    hostError_hostErrors _ _ _ _⟩
  · rw [exec_ladderPenReinit taken notWarm, write]
  · rw [exec_ladderWarmReset taken notReinit, write]

/-! ### Reading and changing a ring -/

theorem ring?_modRing (s : State) (p k : Nat) (f : Ring → Ring) : (s.modRing p k f).ring? p k = (s.ring? p k).map f := by
  simp only [State.ring?, State.pen?, State.modRing, modPen_pens, assocGet_mod]
  cases assocGet p s.pens with
  | none => rfl
  | some pen => exact assocGet_mod k f pen.rings

theorem ring?_of_pen {s : State} {p k : Nat} {pen : Pen} {g : Ring} (hp : assocGet p s.pens = some pen)
    (hg : assocGet k pen.rings = some g) : s.ring? p k = some g := by
  simp only [State.ring?, State.pen?, hp, hg, Option.bind_some]

/-- A change that gives a ring its present value back changes nothing. -/
theorem modRing_same {s : State} {p k : Nat} {f : Ring → Ring} (h : ∀ g, s.ring? p k = some g → f g = g) :
    s.modRing p k f = s := by
  have pens : assocMod p (fun q : Pen => { q with rings := assocMod k f q.rings }) s.pens = s.pens := by
    refine assocMod_same fun pen hp => ?_
    rw [assocMod_same fun g hg => h g (ring?_of_pen hp hg)]
  simp only [State.modRing, State.modPen, pens]

theorem assocMod_congr {κ α : Type} [DecidableEq κ] {k : κ} {f f' : α → α} {l : List (κ × α)}
    (h : ∀ v, assocGet k l = some v → f v = f' v) : assocMod k f l = assocMod k f' l := by
  induction l with
  | nil => rfl
  | cons a l ih =>
    obtain ⟨j, w⟩ := a
    by_cases e : j = k
    · simp only [assocGet, assocMod, if_pos e] at h ⊢
      rw [h w rfl]
    · simp only [assocGet, assocMod, if_neg e] at h ⊢
      rw [ih h]

/-- A change of a ring is what it does to the ring that is there. -/
theorem modRing_congr {s : State} {p k : Nat} {f f' : Ring → Ring} (h : ∀ g, s.ring? p k = some g → f g = f' g) :
    s.modRing p k f = s.modRing p k f' := by
  have pens : assocMod p (fun q : Pen => { q with rings := assocMod k f q.rings }) s.pens
      = assocMod p (fun q : Pen => { q with rings := assocMod k f' q.rings }) s.pens := by
    refine assocMod_congr fun pen hp => ?_
    rw [assocMod_congr fun g hg => h g (ring?_of_pen hp hg)]
  simp only [State.modRing, State.modPen, pens]

/-! ### The halves of a doorbell value -/

/-- The SQ_TAIL that a doorbell value carries (R75). -/
def doorbellTail (v : BitVec 64) : Nat := v.toNat % 2 ^ 32

/-- The CQ_HEAD that a doorbell value carries (R75). -/
def doorbellHead (v : BitVec 64) : Nat := v.toNat / 2 ^ 32

theorem bitsOf_doorbellTail (v : BitVec 64) : bitsOf v.toNat 0 32 = doorbellTail v := by
  simp only [bitsOf, doorbellTail, Nat.pow_zero, Nat.div_one]

theorem bitsOf_doorbellHead (v : BitVec 64) : bitsOf v.toNat 32 32 = doorbellHead v := by
  have := v.isLt
  simp only [bitsOf, doorbellHead]
  omega

theorem packNat_doorbell (v : BitVec 64) : packNat [(32, doorbellTail v), (32, doorbellHead v)] = v.toNat := by
  have := v.isLt
  simp only [packNat, doorbellTail, doorbellHead]
  omega

/-! ### The outcomes of a doorbell write -/

theorem doorbellOk_iff (g : Ring) (tail head : Nat) : g.doorbellOk tail head = true ↔
    sub32 tail g.sqTail ≤ 2 ^ g.sqLog2 ∧ sub32 tail g.fetched ≤ 2 ^ g.sqLog2
      ∧ sub32 head g.cqHead ≤ 2 ^ g.cqLog2 ∧ sub32 g.written head ≤ 2 ^ g.cqLog2 := by
  simp only [Ring.doorbellOk, Bool.and_eq_true, decide_eq_true_eq, and_assoc]

/-- A ring after a doorbell accepted at cycle `now`: SQ_TAIL and CQ_HEAD moved, and the newly published descriptors, if any,
visible from then on (R75, R99). -/
def acceptDoorbell (tail head now : Nat) (g : Ring) : Ring :=
  { g with sqTail := tail, cqHead := head,
           visible := if tail = g.sqTail then g.visible else g.visible ++ [(sub32 tail g.sqTail, now)] }

theorem acceptDoorbell_current {g : Ring} {tail head : Nat} (ht : tail = g.sqTail) (hh : head = g.cqHead) (now : Nat) :
    acceptDoorbell tail head now g = g := by
  subst ht hh
  simp only [acceptDoorbell, if_true]

/-- No ring of that number takes doorbells: none exists, or it is being destroyed (R77). -/
theorem ringDoorbell_absent {s : State} {p k : Nat} (h : ∀ g, s.ring? p k = some g → g.destroying.isSome = true)
    (v : BitVec 64) : s.ringDoorbell p k v = s.bumpPen p .dbInvalid 1 := by
  unfold State.ringDoorbell
  split
  · rfl
  · next g hg => rw [if_pos (h g hg)]

section
variable {s : State} {p k : Nat} {g : Ring} (hg : s.ring? p k = some g) (live : g.destroying = none) {v : BitVec 64}
include hg live

theorem ringDoorbell_accepted (ok : g.doorbellOk (doorbellTail v) (doorbellHead v) = true) :
    s.ringDoorbell p k v = s.modRing p k (acceptDoorbell (doorbellTail v) (doorbellHead v) s.clock.now) := by
  simp only [State.ringDoorbell, hg, live, bitsOf_doorbellTail, bitsOf_doorbellHead, ok, Option.isSome_none,
    Bool.false_eq_true, if_false, if_true]
  rfl

theorem ringDoorbell_discarded (bad : ¬g.doorbellOk (doorbellTail v) (doorbellHead v) = true) :
    s.ringDoorbell p k v = (s.modRing p k fun r => { r with ctrs := tallyAdd r.ctrs .dbInvalid 1 32 }).raiseTo p 0x0202 k
      (tallyGet (tallyAdd g.ctrs .dbInvalid 1 32) .dbInvalid) g.eventRing := by
  have count : (s.modRing p k fun r => { r with ctrs := tallyAdd r.ctrs .dbInvalid 1 32 })
      = s.modRing p k fun _ => g.bump .dbInvalid 1 := by
    refine modRing_congr fun r hr => ?_
    obtain rfl : g = r := Option.some.inj (hg.symm.trans hr)
    rfl
  rw [count]
  simp only [State.ringDoorbell, hg, live, bitsOf_doorbellTail, bitsOf_doorbellHead, if_neg bad, Option.isSome_none,
    Bool.false_eq_true, if_false]
  rfl

end

theorem doorbellReg_of_ring {s : State} {p k : Nat} {g : Ring} (h : s.ring? p k = some g) :
    s.doorbellReg p k = packNat [(32, g.sqTail), (32, g.cqHead)] := by
  simp only [State.doorbellReg, h]

theorem exec_doorbell {q : Req} {p k : Nat} {s : State} (hp : p < 1024) (hk : k < 4096)
    (taken : hostTakes s q (.doorbell p k 0) (doorbellOff p k) 8) (v : BitVec 64) :
    exec (.doorbell q p k v) s = .next ((hostTaken s q (doorbellOff p k)).ringDoorbell p k v) := by
  have inWindow : ¬(1024 ≤ p || 4096 ≤ k) = true := by simp [hp, hk]
  change execDoorbell q p k v s = _
  rw [execDoorbell, if_neg inWindow, hostWrite_takes taken]

/-- Settles O9: a write taken by the host port is `ringDoorbell` of the state that took it, in one of its three outcomes; an
accepted one with the current values gives the ring back as it was. -/
theorem doorbellRule : Obligations.DoorbellRule := by
  unfold Obligations.DoorbellRule
  refine ⟨fun q p k v s hp hk taken => ⟨fun g hg live => ⟨fun ok => ?_, fun ok ht hh => ?_, fun bad => ?_⟩,
    fun absent => ?_⟩, fun q q' p k v v' rest s waiting => step_of_pending_cons waiting⟩
  · have accepted := ringDoorbell_accepted hg live (v := v) ((doorbellOk_iff _ _ _).2 ok)
    have moved := ring?_modRing (hostTaken s q (doorbellOff p k)) p k
      (acceptDoorbell (doorbellTail v) (doorbellHead v) (hostTaken s q (doorbellOff p k)).clock.now)
    rw [hg, Option.map_some] at moved
    refine ⟨_, by rw [exec_doorbell hp hk taken, accepted], ?_, ?_⟩
    · rw [moved]
      rfl
    · exact (doorbellReg_of_ring moved).trans (packNat_doorbell v)
  · rw [exec_doorbell hp hk taken, ringDoorbell_accepted hg live ((doorbellOk_iff _ _ _).2 ok), modRing_same]
    intro r hr
    obtain rfl : g = r := Option.some.inj (hg.symm.trans hr)
    exact acceptDoorbell_current ht hh _
  · rw [exec_doorbell hp hk taken, ringDoorbell_discarded hg live (mt (doorbellOk_iff _ _ _).1 bad)]
  · rw [exec_doorbell hp hk taken, ringDoorbell_absent absent]

end Sys2Proof.Proofs
end

section
/-!
SUPPORT. The CONSUMER register of an event ring (R363): what an update of the state leaves in the event rings of a Crier
block, what firing a ring, writing a record and reporting lost events do to the ring, the two outcomes of a CONSUMER write,
and the statement about it.
-/
namespace Sys2Proof.Proofs
open Sys2Proof.Machine Sys2Proof.Safety Sys2Proof.Laws

/-! ### Reading an event ring -/

/-- The event rings of every pen are in `t` what they are in `s`. -/
def EvRingsKept (s t : State) : Prop := ∀ p, (t.crierOf p).rings = (s.crierOf p).rings

namespace EvRingsKept

theorem of_pens {s t : State} (h : t.pens = s.pens) : EvRingsKept s t := fun p => by
  simp only [State.crierOf, State.pen?, h]

theorem trans {s t u : State} (a : EvRingsKept s t) (b : EvRingsKept t u) : EvRingsKept s u :=
  fun p => (b p).trans (a p)

theorem ring {s t : State} (h : EvRingsKept s t) (p r : Nat) : (t.crierOf p).ring r = (s.crierOf p).ring r := by
  simp only [Crier.ring, h p]

end EvRingsKept

theorem pen?_modPen (s : State) (p : Nat) (f : Pen → Pen) : (s.modPen p f).pen? p = (s.pen? p).map f := by
  simp only [State.pen?, modPen_pens, assocGet_mod]

theorem crierOf_of_pen {s : State} {p : Nat} {q : Pen} (h : s.pen? p = some q) : s.crierOf p = q.crier := by
  simp only [State.crierOf, h, Option.map_some, Option.getD_some]

theorem modPen_evRingsKept (s : State) (n : Nat) (f : Pen → Pen) (h : ∀ q, (f q).crier.rings = q.crier.rings) :
    EvRingsKept s (s.modPen n f) := by
  intro p
  by_cases same : p = n
  · subst same
    cases found : s.pen? p with
    | none => simp only [State.crierOf, pen?_modPen, found, Option.map_none]
    | some q => rw [crierOf_of_pen found, crierOf_of_pen (by rw [pen?_modPen, found, Option.map_some]), h]
  · simp only [State.crierOf, State.pen?, modPen_pens, assocGet_mod_ne same]

theorem pen?_modEvRing_isSome {s : State} {p : Nat} (h : (s.pen? p).isSome = true) (r : Nat)
    (f : EventRing → EventRing) : ((s.modEvRing p r f).pen? p).isSome = true := by
  rw [State.modEvRing, pen?_modPen, Option.isSome_map, h]

theorem evRing_modEvRing {s : State} {p : Nat} (h : (s.pen? p).isSome = true) (r : Nat) (f : EventRing → EventRing) :
    ((s.modEvRing p r f).crierOf p).ring r = f ((s.crierOf p).ring r) := by
  obtain ⟨q, found⟩ := Option.isSome_iff_exists.1 h
  have changed := pen?_modPen s p fun q =>
    { q with crier := { q.crier with rings := assocSet r (f (q.crier.ring r)) q.crier.rings } }
  rw [found, Option.map_some] at changed
  rw [State.modEvRing, crierOf_of_pen changed, crierOf_of_pen found, Crier.ring, assocGet_set, Option.getD_some]

/-! ### A ring fires -/

theorem hostOut_pens (s : State) (o : Output) : (s.hostOut o).pens = s.pens := by
  unfold State.hostOut
  split <;> rfl

theorem sendRecord_pens (s : State) (r resends : Nat) : (s.sendRecord r resends).pens = s.pens := by
  unfold State.sendRecord
  split <;> rfl

theorem watchmanTakes_evRingsKept (s : State) (r : Nat) : EvRingsKept s (s.watchmanTakes r) := by
  unfold State.watchmanTakes
  split
  · dsimp only
    refine .trans ?_ (.of_pens (sendRecord_pens _ _ _))
    exact modPen_evRingsKept s 0 _ fun _ => rfl
  · exact .of_pens rfl

theorem attnSignal_evRingsKept (s : State) (p r : Nat) : EvRingsKept s (s.attnSignal p r) := by
  unfold State.attnSignal
  split
  · exact .of_pens rfl
  · split
    · exact (EvRingsKept.of_pens (emit_pens s _)).trans (watchmanTakes_evRingsKept _ _)
    · exact .of_pens (hostOut_pens _ _)

theorem hwMark_evRingsKept (s : State) (b : HwBit) : EvRingsKept s (s.hwMark b) := .of_pens rfl

/-- Firing a ring ends its moderation and changes no more of any event ring (R362). -/
theorem evFire_evRingsKept {s : State} {p : Nat} (h : (s.pen? p).isSome = true) (r : Nat) :
    EvRingsKept (s.modEvRing p r fun e => { e with n := 0, timer := none }) (s.evFire p r) := by
  obtain ⟨q, found⟩ := Option.isSome_iff_exists.1 h
  simp only [State.evFire, found]
  split
  · exact hwMark_evRingsKept _ _
  · have marked : ∀ t : State, EvRingsKept t ((t.modPen p fun q =>
        { q with crier := { q.crier with attnPending := setBit16 q.crier.attnPending r } }).hwMark (.attention p r)) := by
      intro t
      refine .trans ?_ (hwMark_evRingsKept _ _)
      exact modPen_evRingsKept t p _ fun _ => rfl
    split
    · exact marked _
    · exact (marked _).trans (attnSignal_evRingsKept _ _ _)

theorem evFire_ring {s : State} {p : Nat} (h : (s.pen? p).isSome = true) (r : Nat) :
    ((s.evFire p r).crierOf p).ring r = { (s.crierOf p).ring r with n := 0, timer := none } := by
  rw [(evFire_evRingsKept h r).ring, evRing_modEvRing h]

/-! ### A record is written -/

/-- An event ring that has taken one record at cycle `now`, before it fires (R355, R362, R363). -/
def takeRecord (now : Nat) (e : EventRing) : EventRing :=
  { e with written := add32 e.written 1, n := e.n + 1, timer := some (e.timer.getD now), idle := false }

/-- A record goes into its ring, which then fires where it was idle or its moderation says so (R362, R363). -/
theorem evWrite_takes {s : State} {p r : Nat} {e : EventRing} (h : (s.pen? p).isSome = true)
    (he : (s.crierOf p).ring r = e) (seq code p0 p1 : Nat) :
    ∃ u : State, (u.pen? p).isSome = true ∧ (u.crierOf p).ring r = takeRecord s.clock.now e
      ∧ s.evWrite p r seq code p0 p1
        = if e.idle || (takeRecord s.clock.now e).due s.clock.now then u.evFire p r else u := by
  obtain ⟨q, found⟩ := Option.isSome_iff_exists.1 h
  rw [crierOf_of_pen found] at he
  have store : ∃ t : State, t.pens = s.pens ∧ s.evWrite p r seq code p0 p1
      = let u := (t.modEvRing p r fun _ => takeRecord s.clock.now e).hwMark (.idle p r)
        if e.idle || (takeRecord s.clock.now e).due s.clock.now then u.evFire p r else u := by
    simp only [State.evWrite, found, he]
    refine ⟨_, ?_, rfl⟩
    split
    · rfl
    · exact hostOut_pens _ _
  obtain ⟨t, samePens, write⟩ := store
  have there : (t.pen? p).isSome = true := by rw [State.pen?, samePens]; exact h
  refine ⟨_, ?_, ?_, write⟩
  · exact pen?_modEvRing_isSome there r fun _ => takeRecord s.clock.now e
  · rw [(hwMark_evRingsKept _ _).ring, evRing_modEvRing there]

/-- A record moves WRITTEN and leaves HEAD. -/
theorem evWrite_ring {s : State} {p : Nat} (h : (s.pen? p).isSome = true) (r seq code p0 p1 : Nat) :
    let e' := ((s.evWrite p r seq code p0 p1).crierOf p).ring r
    e'.head = ((s.crierOf p).ring r).head ∧ e'.written = add32 ((s.crierOf p).ring r).written 1 := by
  obtain ⟨u, there, taken, write⟩ := evWrite_takes h rfl seq code p0 p1 (r := r)
  rw [write]
  split
  · rw [evFire_ring there, taken]
    exact ⟨rfl, rfl⟩
  · rw [taken]
    exact ⟨rfl, rfl⟩

/-- An event ring whose losses a record of EVENTS_LOST takes up (R361). -/
def takeLosses (e : EventRing) : EventRing := { e with nextSeq := e.nextSeq + 1, lostPending := 0 }

/-- The report of lost events is one record, or none (R361). -/
theorem evReportLost_ring {s : State} {p : Nat} (h : (s.pen? p).isSome = true) (r : Nat) :
    let e := (s.crierOf p).ring r
    let e' := ((s.evReportLost p r).crierOf p).ring r
    e' = e ∨ e'.head = e.head ∧ e'.written = add32 e.written 1 := by
  obtain ⟨q, found⟩ := Option.isSome_iff_exists.1 h
  simp only [State.evReportLost, found]
  split
  · have wrote := evWrite_ring (pen?_modEvRing_isSome h r takeLosses) r
    rw [evRing_modEvRing h] at wrote
    exact .inr (wrote _ _ _ _)
  · exact .inl rfl

theorem add32_one_ne (n : Nat) : add32 n 1 ≠ n := by
  simp only [add32]
  omega

/-! ### A CONSUMER write -/

/-- The HEAD that a CONSUMER value carries (Table 14.5). -/
theorem bitsOf_consumerHead (v : BitVec 64) : bitsOf v.toNat 0 32 = v.toNat % 2 ^ 32 := by
  rw [bitsOf, Nat.pow_zero, Nat.div_one]

theorem bitOf_eq_testBit (n i : Nat) : bitOf n i = n.testBit i := by
  rw [bitOf, bitsOf, Nat.testBit_eq_decide_div_mod_eq]
  rfl

theorem consume_head (e : EventRing) (v : BitVec 64) : (e.consume v).head = v.toNat % 2 ^ 32 := bitsOf_consumerHead v

theorem consume_idle (e : EventRing) (v : BitVec 64) : (e.consume v).idle = v.toNat.testBit 32 := bitOf_eq_testBit _ _

theorem consumerOk_iff (e : EventRing) (v : BitVec 64) :
    e.consumerOk v = true ↔ sub32 e.written (v.toNat % 2 ^ 32) ≤ sub32 e.written e.head := by
  rw [EventRing.consumerOk, bitsOf_consumerHead, decide_eq_true_eq]

section
variable {s : State} {p r : Nat} {v : BitVec 64}

theorem hostConsumer_accepted (ok : ((s.crierOf p).ring r).consumerOk v = true) (ctx : Nat) :
    s.hostConsumer ctx p r v = s.writeConsumer p r v := by
  rw [State.hostConsumer, if_pos ok]

theorem hostConsumer_discarded (bad : ¬((s.crierOf p).ring r).consumerOk v = true) (ctx : Nat) :
    s.hostConsumer ctx p r v = (s.modEvRing p r fun e => { e with headInvalid := true }).hostError .badWrite ctx
      (crierOff p (evRingOff r 0x18)) := by
  rw [State.hostConsumer, if_neg bad]

/-- Where no record was written in this cycle, the write is HEAD and IDLE, then the report of lost events (R361, R363). -/
theorem writeConsumer_later (notNow : s.hwNow (.idle p r) = false) :
    s.writeConsumer p r v = (s.modEvRing p r fun e => e.consume v).evReportLost p r := by
  simp only [State.writeConsumer, notNow, Bool.false_eq_true, if_false]

/-- A record written in this cycle comes after the write: IDLE ends 0, and the ring fires where the write set it (R12). -/
theorem writeConsumer_now (now : s.hwNow (.idle p r) = true) :
    s.writeConsumer p r v =
      let w := s.modEvRing p r fun e => { e.consume v with idle := false }
      (if v.toNat.testBit 32 then w.evFire p r else w).evReportLost p r := by
  simp only [State.writeConsumer, now, if_true, bitOf_eq_testBit]

/-- After the write HEAD is the new one, and IDLE too unless EVENTS_LOST has been written since (R361, R363). -/
theorem consumed_ring (h : (s.pen? p).isSome = true) :
    let e' := (((s.modEvRing p r fun e => e.consume v).evReportLost p r).crierOf p).ring r
    e'.head = v.toNat % 2 ^ 32
      ∧ (e'.written = ((s.crierOf p).ring r).written → e'.idle = v.toNat.testBit 32) := by
  have reported := evReportLost_ring (pen?_modEvRing_isSome h r fun e => e.consume v) r
  rw [evRing_modEvRing h] at reported
  rcases reported with unreported | ⟨head, written⟩
  · rw [unreported]
    exact ⟨consume_head _ v, fun _ => consume_idle _ v⟩
  · refine ⟨head.trans (consume_head _ v), fun same => ?_⟩
    exact absurd (written.symm.trans same) (add32_one_ne _)

end

theorem exec_consumerWrite {q : Req} {p r : Nat} {s : State} (hp : p < 1024) (hr : r < 16)
    (taken : hostTakes s q (.crier p (evRingOff r 0x18)) (crierOff p (evRingOff r 0x18)) 8) (v : BitVec 64) :
    exec (.consumerWrite q p r v) s
      = .next ((hostTaken s q (crierOff p (evRingOff r 0x18))).hostConsumer q.ctx p r v) := by
  change execConsumerWrite q p r v s = _
  rw [execConsumerWrite, crierRingWrite, if_neg (Nat.not_le.2 hr), crierPenWrite, if_neg (Nat.not_le.2 hp),
    hostWrite_takes taken]

/-- Settles O11: a write taken by the host port is discarded, or accepted, with or without a record of its own cycle (R12 as
log entry 91 reads it); and a record written into an idle ring fires it, whatever its moderation says. -/
theorem consumerRule : Obligations.ConsumerRule := by
  unfold Obligations.ConsumerRule
  refine ⟨fun q p r v s hp hr taken => ⟨fun ok there notNow => ?_, fun ok there now => ⟨?_, ?_⟩, fun bad => ?_⟩,
    fun s p r seq code p0 p1 there idle => ?_⟩
  · refine ⟨_, ?_, consumed_ring there⟩
    rw [exec_consumerWrite hp hr taken, hostConsumer_accepted ((consumerOk_iff _ _).2 ok), writeConsumer_later notNow]
  · rw [exec_consumerWrite hp hr taken, hostConsumer_accepted ((consumerOk_iff _ _).2 ok), writeConsumer_now now]
  · rw [evRing_modEvRing there]
    exact bitsOf_consumerHead v
  · rw [exec_consumerWrite hp hr taken, hostConsumer_discarded (mt (consumerOk_iff _ _).1 (Nat.not_le.2 bad))]
  · obtain ⟨u, -, record, write⟩ := evWrite_takes there rfl seq code p0 p1 (r := r)
    rw [idle, Bool.true_or, if_pos rfl] at write
    exact ⟨u, write, congrArg EventRing.idle record, congrArg EventRing.written record⟩

end Sys2Proof.Proofs
end

section
/-!
SUPPORT. The land grid (18_board_design R430 to R436): what the reflections of R434 do to the quadrant and the depth of a
land, the function of the lands of the strips and of those inside them, case by case, and the statement about the images.
-/
namespace Sys2Proof.Proofs
open Sys2Proof.Machine Sys2Proof.Safety

/-! ### Correspondence of lands -/

/-- `r`/`c` is a land of quadrant region `q`, and corresponds to land `r0`/`c0` of Q0 (R434), which is as deep. -/
structure LandCorresponds (q r0 c0 r c : Nat) : Prop where
  land : hasLand r c = true
  quadrant : landQuadrant r c = q
  image : landImage r c = (r0, c0)
  depth : landDepth r c = landDepth r0 c0

theorem landDepth_mirrorColumn {c : Nat} (r : Nat) (hc : 1 ≤ c) : landDepth r (127 - c) = landDepth r c := by
  have near : 127 - c - 1 = 126 - c := by omega
  have far : min (126 - c) (126 - (127 - c)) = min (c - 1) (126 - c) := by omega
  rw [landDepth, near, far, landDepth]

theorem landDepth_comm (r c : Nat) : landDepth r c = landDepth c r := Nat.min_comm _ _

theorem landDepth_mirrorRow {r : Nat} (c : Nat) (hr : 1 ≤ r) : landDepth (127 - r) c = landDepth r c := by
  rw [landDepth_comm, landDepth_mirrorColumn c hr, landDepth_comm]

/-- The sites without a land are deeper than the strips (R430, R431). -/
theorem hasLand_of_strip {r c : Nat} (hr : 1 ≤ r ∧ r ≤ 126) (hc : 1 ≤ c ∧ c ≤ 126) (strip : landDepth r c ≤ 11) :
    hasLand r c = true := by
  rw [landDepth] at strip
  simp only [hasLand, Bool.and_eq_true, Bool.not_eq_true', Bool.and_eq_false_iff, decide_eq_true_eq, decide_eq_false_iff_not]
  omega

section
variable {r c : Nat}

theorem landQuadrant_q0 (hr : r ≤ 63) (hc : c ≤ 63) : landQuadrant r c = 0 := by
  rw [landQuadrant, if_pos hr, if_pos hc]

theorem landQuadrant_q1 (hr : r ≤ 63) (hc : c ≤ 63) : landQuadrant r (127 - c) = 1 := by
  rw [landQuadrant, if_pos hr, if_neg (by omega)]

theorem landQuadrant_q2 (hr : r ≤ 63) (hc : c ≤ 63) : landQuadrant (127 - r) (127 - c) = 2 := by
  rw [landQuadrant, if_neg (by omega), if_pos (by omega)]

theorem landQuadrant_q3 (hr : r ≤ 63) (hc : c ≤ 63) : landQuadrant (127 - r) c = 3 := by
  rw [landQuadrant, if_neg (by omega), if_neg (by omega)]

theorem landImage_q0 (hr : r ≤ 63) (hc : c ≤ 63) : landImage r c = (r, c) := by
  simp only [landImage, landQuadrant_q0 hr hc]

theorem landImage_q1 (hr : r ≤ 63) (hc : c ≤ 63) : landImage r (127 - c) = (r, c) := by
  simp only [landImage, landQuadrant_q1 hr hc, Nat.sub_sub_self (show c ≤ 127 by omega)]

theorem landImage_q2 (hr : r ≤ 63) (hc : c ≤ 63) : landImage (127 - r) (127 - c) = (r, c) := by
  simp only [landImage, landQuadrant_q2 hr hc, Nat.sub_sub_self (show r ≤ 127 by omega),
    Nat.sub_sub_self (show c ≤ 127 by omega)]

theorem landImage_q3 (hr : r ≤ 63) (hc : c ≤ 63) : landImage (127 - r) c = (r, c) := by
  simp only [landImage, landQuadrant_q3 hr hc, Nat.sub_sub_self (show r ≤ 127 by omega)]

variable (hr : 1 ≤ r ∧ r ≤ 63) (hc : 1 ≤ c ∧ c ≤ 63) (strip : landDepth r c ≤ 11)
include hr hc strip

theorem corresponds_q0 : LandCorresponds 0 r c r c where
  land := hasLand_of_strip (by omega) (by omega) strip
  quadrant := landQuadrant_q0 hr.2 hc.2
  image := landImage_q0 hr.2 hc.2
  depth := rfl

theorem corresponds_q1 : LandCorresponds 1 r c r (127 - c) :=
  have depth := landDepth_mirrorColumn r hc.1
  ⟨hasLand_of_strip (by omega) (by omega) (depth ▸ strip), landQuadrant_q1 hr.2 hc.2, landImage_q1 hr.2 hc.2, depth⟩

theorem corresponds_q2 : LandCorresponds 2 r c (127 - r) (127 - c) :=
  have depth := (landDepth_mirrorRow (127 - c) hr.1).trans (landDepth_mirrorColumn r hc.1)
  ⟨hasLand_of_strip (by omega) (by omega) (depth ▸ strip), landQuadrant_q2 hr.2 hc.2, landImage_q2 hr.2 hc.2, depth⟩

theorem corresponds_q3 : LandCorresponds 3 r c (127 - r) c :=
  have depth := landDepth_mirrorRow c hr.1
  ⟨hasLand_of_strip (by omega) (by omega) (depth ▸ strip), landQuadrant_q3 hr.2 hc.2, landImage_q3 hr.2 hc.2, depth⟩

end

/-! ### The function of a land -/

section
variable {q r0 c0 r c : Nat} (h : LandCorresponds q r0 c0 r c) (pc : Bool)
include h

/-- A slice of the Step Link strip that carries lane `k` of its quadrant (R432, R436). -/
theorem landFunction_lane {k : Nat} (depth : landDepth r0 c0 ≤ 3) (carries : sliceLane (stepSlice r0 c0).1 = some k) :
    landFunction pc r c = if pc then .noConnect else .stepLink (64 * q + k) (lanePin (stepSlice r0 c0).2) := by
  simp [landFunction, h.land, h.quadrant, h.image, h.depth, depth, carries]

/-- Every other slice of the Step Link strip is ground (R432). -/
theorem landFunction_noLane (depth : landDepth r0 c0 ≤ 3) (bare : sliceLane (stepSlice r0 c0).1 = none) :
    landFunction pc r c = .gnd := by
  simp [landFunction, h.land, h.image, h.depth, depth, bare]

/-- The last slices of the flash strip are ground (R433). -/
theorem landFunction_noChannel (outer : ¬landDepth r0 c0 ≤ 3) (depth : landDepth r0 c0 ≤ 11)
    (last : 96 ≤ (flashSlice r0 c0).1) : landFunction pc r c = .gnd := by
  simp [landFunction, h.land, h.image, h.depth, outer, depth, last]

/-- A land of a flash channel with a function of Table 18.2 (R433). -/
theorem landFunction_flashPin {x : FlashPin} (outer : ¬landDepth r0 c0 ≤ 3) (depth : landDepth r0 c0 ≤ 11)
    (channel : ¬96 ≤ (flashSlice r0 c0).1) (carries : flashPin ((flashSlice r0 c0).1 % 3) (flashSlice r0 c0).2 = some x) :
    landFunction pc r c = .flash (32 * q + (flashSlice r0 c0).1 / 3) x := by
  simp [landFunction, h.land, h.quadrant, h.image, h.depth, outer, depth, channel, carries]

/-- A land of a flash channel that Table 18.2 makes ground (R433). -/
theorem landFunction_noFlashPin (outer : ¬landDepth r0 c0 ≤ 3) (depth : landDepth r0 c0 ≤ 11)
    (channel : ¬96 ≤ (flashSlice r0 c0).1) (bare : flashPin ((flashSlice r0 c0).1 % 3) (flashSlice r0 c0).2 = none) :
    landFunction pc r c = .gnd := by
  simp [landFunction, h.land, h.image, h.depth, outer, depth, channel, bare]

/-- A strip land has the function of its land of Q0, shifted by its quadrant's lanes and channels (R432 to R434). -/
theorem landFunction_strip (h0 : LandCorresponds 0 r0 c0 r0 c0) (strip : landDepth r0 c0 ≤ 11) :
    landFunction pc r c = landShift q (landFunction pc r0 c0) := by
  by_cases outer : landDepth r0 c0 ≤ 3
  · cases slice : sliceLane (stepSlice r0 c0).1 with
    | some k =>
      rw [landFunction_lane h pc outer slice, landFunction_lane h0 pc outer slice]
      cases pc <;> simp [landShift]
    | none =>
      rw [landFunction_noLane h pc outer slice, landFunction_noLane h0 pc outer slice]
      rfl
  by_cases last : 96 ≤ (flashSlice r0 c0).1
  · rw [landFunction_noChannel h pc outer strip last, landFunction_noChannel h0 pc outer strip last]
    rfl
  cases pin : flashPin ((flashSlice r0 c0).1 % 3) (flashSlice r0 c0).2 with
  | some x =>
    rw [landFunction_flashPin h pc outer strip last pin, landFunction_flashPin h0 pc outer strip last pin]
    simp [landShift]
  | none =>
    rw [landFunction_noFlashPin h pc outer strip last pin, landFunction_noFlashPin h0 pc outer strip last pin]
    rfl

end

/-- Outside Q0 the branch of the control lands is shut, and no other branch answers one (R431, R434). -/
theorem landQuadrant_of_control {pc : Bool} {r c i : Nat} (control : landFunction pc r c = .control i) :
    landQuadrant r c = 0 := by
  refine Decidable.byContradiction fun elsewhere => ?_
  unfold landFunction at control
  simp only [elsewhere, decide_false, Bool.and_false, Bool.false_eq_true, if_false] at control
  repeat' split at control
  all_goals cases control

/-- Settles O12: each image of a Q0 land comes back under `landImage`; at strip depth the three images correspond to it
(`LandCorresponds`), and a strip's function depends on the land of Q0 but for the quadrant's shift. -/
theorem landImages : Obligations.LandImages := by
  unfold Obligations.LandImages
  refine ⟨fun r c hr1 hr hc1 hc => ⟨landImage_q1 hr hc, landImage_q2 hr hc, landImage_q3 hr hc, fun pc strip => ?_⟩,
    fun pc r c i => landQuadrant_of_control⟩
  have rows : 1 ≤ r ∧ r ≤ 63 := ⟨hr1, hr⟩
  have columns : 1 ≤ c ∧ c ≤ 63 := ⟨hc1, hc⟩
  have own := corresponds_q0 rows columns strip
  exact ⟨landFunction_strip (corresponds_q1 rows columns strip) pc own strip,
    landFunction_strip (corresponds_q2 rows columns strip) pc own strip,
    landFunction_strip (corresponds_q3 rows columns strip) pc own strip⟩

end Sys2Proof.Proofs
end

section
/-!
SUPPORT. What every command keeps (`Keeps`): the queue of waiting commands, blown fuses, pen 0x000 and the form of the
memories. One lemma per function of the model, in the model's order, from what it does to a state that keeps them; then one
per command, the dispatch, and the five statements that follow.
-/
namespace Sys2Proof.Proofs
open Sys2Proof.Machine Sys2Proof.Safety Sys2Proof.Laws

/-! ### Association lists -/

section
variable {κ α : Type} [DecidableEq κ] {P : α → Prop} {l : List (κ × α)} (all : ∀ q ∈ l, P q.2)
include all

theorem forall_assocMod {k : κ} {f : α → α} (hf : ∀ v, P v → P (f v)) : ∀ q ∈ assocMod k f l, P q.2 := by
  induction l with
  | nil => exact all
  | cons a l ih =>
    obtain ⟨j, w⟩ := a
    rw [List.forall_mem_cons] at all
    simp only [assocMod]
    split
    · exact List.forall_mem_cons.2 ⟨hf w all.1, all.2⟩
    · exact List.forall_mem_cons.2 ⟨all.1, ih all.2⟩

theorem forall_assocSet {k : κ} {v : α} (hv : P v) : ∀ q ∈ assocSet k v l, P q.2 := by
  induction l with
  | nil => exact List.forall_mem_singleton.2 hv
  | cons a l ih =>
    obtain ⟨j, w⟩ := a
    rw [List.forall_mem_cons] at all
    simp only [assocSet]
    split
    · exact List.forall_mem_cons.2 ⟨hv, all.2⟩
    · exact List.forall_mem_cons.2 ⟨all.1, ih all.2⟩

theorem forall_assocDel {k : κ} : ∀ q ∈ assocDel k l, P q.2 := by
  induction l with
  | nil => exact all
  | cons a l ih =>
    obtain ⟨j, w⟩ := a
    rw [List.forall_mem_cons] at all
    simp only [assocDel]
    split
    · exact ih all.2
    · exact List.forall_mem_cons.2 ⟨all.1, ih all.2⟩

end

theorem assocGet_mod_isSome {κ α : Type} [DecidableEq κ] (j k : κ) (f : α → α) (l : List (κ × α)) :
    (assocGet j (assocMod k f l)).isSome = (assocGet j l).isSome := by
  by_cases same : j = k
  · rw [same, assocGet_mod, Option.isSome_map]
  · rw [assocGet_mod_ne same]

theorem assocGet_set_isSome {κ α : Type} [DecidableEq κ] {j : κ} {l : List (κ × α)} (h : (assocGet j l).isSome = true)
    (k : κ) (v : α) : (assocGet j (assocSet k v l)).isSome = true := by
  by_cases same : j = k
  · rw [same, assocGet_set]
    rfl
  · rw [assocGet_set_ne same, h]

theorem assocGet_mapVals {κ α : Type} [DecidableEq κ] (j : κ) (f : α → α) (l : List (κ × α)) :
    assocGet j (mapVals f l) = (assocGet j l).map f := by
  induction l with
  | nil => rfl
  | cons a l ih =>
    simp only [mapVals, List.map_cons, assocGet] at ih ⊢
    split
    · rfl
    · exact ih

theorem rollback_le_blow (x : Security) (svn blown : Nat) : x.rollback ≤ (x.blow svn blown).rollback := by
  simp only [Security.blow]
  omega

theorem rollback_le_bootReeve (x : Security) (i : Option Image) (blown : Nat) : x.rollback ≤ (x.bootReeve i blown).rollback := by
  cases i with
  | none => exact Nat.le_refl _
  | some i => exact rollback_le_blow { x with running := some i } i.svn blown

/-! ### What every command keeps -/

/-- What every command keeps of the state it runs in. -/
structure Keeps (s t : State) : Prop where
  pending : t.pending = s.pending
  fuses : s.security.rollback ≤ t.security.rollback
  penZero : penZero s → penZero t
  memories : memoriesWf s → memoriesWf t

namespace Keeps

theorem refl (s : State) : Keeps s s := ⟨rfl, Nat.le_refl _, id, id⟩

theorem trans {s t v : State} (a : Keeps s t) (b : Keeps t v) : Keeps s v :=
  ⟨b.pending.trans a.pending, Nat.le_trans a.fuses b.fuses, b.penZero ∘ a.penZero, b.memories ∘ a.memories⟩

theorem of_fst {s0 a : State} {α : Type} {p : State × α} {b : α} (h : Keeps s0 p.1) (e : p = (a, b)) : Keeps s0 a := by
  rw [e] at h
  exact h

theorem of_snd {s0 b : State} {α : Type} {p : α × State} {a : α} (h : Keeps s0 p.2) (e : p = (a, b)) : Keeps s0 b := by
  rw [e] at h
  exact h

theorem ite {s0 x y : State} {c : Prop} [Decidable c] (hx : Keeps s0 x) (hy : Keeps s0 y) :
    Keeps s0 (if c then x else y) := by
  split
  · exact hx
  · exact hy

section
variable {s0 s t : State} (hk : Keeps s0 s)
include hk

/-- An update of other fields. -/
theorem update (same : (t.pending, t.security.rollback, t.pens, t.adminMb.payload, t.sbMb.payload, t.crierArea) =
    (s.pending, s.security.rollback, s.pens, s.adminMb.payload, s.sbMb.payload, s.crierArea)) : Keeps s0 t := by
  simp only [Prod.mk.injEq] at same
  obtain ⟨p, f, q, a, b, c⟩ := same
  refine hk.trans ⟨p, Nat.le_of_eq f.symm, ?_, ?_⟩
  · simp only [Safety.penZero, State.pen?, q, imp_self]
  · simp only [memoriesWf, q, a, b, c, imp_self]

/-- An update that also changes each pen, none of whose payload areas loses its form, and may clear the Crier's area. -/
theorem updatePens {g : Pen → Pen} (hg : ∀ q, Memory.wf q.mailbox.payload = true → Memory.wf (g q).mailbox.payload = true)
    (q : t.pens = mapVals g s.pens) (f : s.security.rollback ≤ t.security.rollback)
    (a : Memory.wf s.adminMb.payload = true → Memory.wf t.adminMb.payload = true)
    (b : Memory.wf s.sbMb.payload = true → Memory.wf t.sbMb.payload = true)
    (c : Memory.wf s.crierArea = true → Memory.wf t.crierArea = true)
    (p : t.pending = s.pending) : Keeps s0 t := by
  refine hk.trans ⟨p, f, ?_, fun ⟨ha, hb, hc, hq⟩ => ⟨a ha, b hb, c hc, ?_⟩⟩
  · simp only [Safety.penZero, State.pen?, q, assocGet_mapVals, Option.isSome_map, imp_self]
  · simp only [q, mapVals, List.forall_mem_map]
    exact fun q mem => hg q.2 (hq q mem)

theorem crierArea {m : List (Nat × Byte)} (hm : Memory.wf s.crierArea = true → Memory.wf m = true) :
    Keeps s0 { s with crierArea := m } :=
  hk.trans ⟨rfl, Nat.le_refl _, id, fun ⟨a, b, c, d⟩ => ⟨a, b, hm c, d⟩⟩

theorem modPen {p : Nat} {f : Pen → Pen}
    (hf : ∀ q, Memory.wf q.mailbox.payload = true → Memory.wf (f q).mailbox.payload = true) :
    Keeps s0 (s.modPen p f) := by
  refine hk.trans ⟨rfl, Nat.le_refl _, fun z => ?_, fun ⟨a, b, c, d⟩ => ⟨a, b, c, forall_assocMod d hf⟩⟩
  simpa only [Safety.penZero, State.pen?, modPen_pens, assocGet_mod_isSome] using z

theorem modMb {mb : Mb} {f : Mailbox → Mailbox}
    (hf : ∀ m, Memory.wf m.payload = true → Memory.wf (f m).payload = true) :
    Keeps s0 (s.modMb mb f) := by
  unfold State.modMb
  split
  · exact hk.trans ⟨rfl, Nat.le_refl _, id, fun ⟨a, b, c, d⟩ => ⟨hf _ a, b, c, d⟩⟩
  · exact hk.trans ⟨rfl, Nat.le_refl _, id, fun ⟨a, b, c, d⟩ => ⟨a, hf _ b, c, d⟩⟩
  · exact hk.modPen fun q => hf q.mailbox

theorem setMoves {moves : List Move} : Keeps s0 { s with moves := moves } := hk.update rfl

theorem setFlocks {flocks : List (Nat × Flock)} : Keeps s0 { s with flocks := flocks } := hk.update rfl

theorem setClock {clock : Clock} : Keeps s0 { s with clock := clock } := hk.update rfl

theorem setIdent {ident : Ident} : Keeps s0 { s with ident := ident } := hk.update rfl

theorem setLadder {ladder : Ladder} : Keeps s0 { s with ladder := ladder } := hk.update rfl

theorem setDispatched {dispatched : List RingCmd} : Keeps s0 { s with dispatched := dispatched } := hk.update rfl

theorem setT2 {t2 : T2Space} : Keeps s0 { s with t2 := t2 } := hk.update rfl

theorem setCommons {commons : Commons} : Keeps s0 { s with commons := commons } := hk.update rfl

theorem setPartner {partner : Partner} : Keeps s0 { s with partner := partner } := hk.update rfl

theorem setRecovery {recovery : Recovery} : Keeps s0 { s with recovery := recovery } := hk.update rfl

theorem setWatchman {watchman : Watchman} : Keeps s0 { s with watchman := watchman } := hk.update rfl

theorem setBoard {board : Board} : Keeps s0 { s with board := board } := hk.update rfl

theorem setClockHearth {clock : Clock} {hearth : Hearth} : Keeps s0 { s with clock := clock, hearth := hearth } := hk.update rfl

theorem setHandshaking {b : Bool} : Keeps s0 { s with security := { s.security with handshaking := b } } := hk.update rfl

theorem setHarvest {x : Harvest} : Keeps s0 { s with harvest := x } := hk.update rfl

theorem setHearth {x : Hearth} : Keeps s0 { s with hearth := x } := hk.update rfl

theorem newPen {p : Nat} {q : Pen} {gens : List (Nat × Nat)} (hq : Memory.wf q.mailbox.payload = true) :
    Keeps s0 { s with pens := assocSet p q s.pens, penGens := gens } :=
  hk.trans ⟨rfl, Nat.le_refl _, fun z => assocGet_set_isSome z p q, fun ⟨a, b, c, d⟩ =>
    ⟨a, b, c, forall_assocSet (P := fun q : Pen => Memory.wf q.mailbox.payload = true) d hq⟩⟩

theorem delPen {p : Nat} (hp : p ≠ 0) : Keeps s0 { s with pens := assocDel p s.pens } := by
  refine hk.trans ⟨rfl, Nat.le_refl _, fun z => ?_, fun ⟨a, b, c, d⟩ =>
    ⟨a, b, c, forall_assocDel (P := fun q : Pen => Memory.wf q.mailbox.payload = true) d⟩⟩
  simpa only [Safety.penZero, State.pen?, assocGet_del_ne hp.symm] using z

theorem foldl {α : Type} {f : State → α → State} {l : List α} (hf : ∀ {t x}, Keeps s0 t → Keeps s0 (f t x)) :
    Keeps s0 (l.foldl f s) := by
  induction l generalizing s with
  | nil => exact hk
  | cons a l ih => exact ih (hf hk)

theorem getD {o : Option State} (ho : ∀ t, o = some t → Keeps s0 t) : Keeps s0 (o.getD s) := by
  cases o with
  | none => exact hk
  | some t => exact ho t rfl

end

/-! ### Answers and outcomes -/

/-- A ring command's answer that keeps what every command keeps. -/
inductive OfRing (s0 : State) : RingDone → Prop
  | now {t : State} (r : Reply) : Keeps s0 t → OfRing s0 (.now t r)
  | later {t : State} : Keeps s0 t → OfRing s0 (.later t)

theorem OfRing.ite {s0 : State} {x y : RingDone} {c : Prop} [Decidable c] (hx : OfRing s0 x) (hy : OfRing s0 y) :
    OfRing s0 (if c then x else y) := by
  split
  · exact hx
  · exact hy

/-- A mailbox command's answer that keeps what every command keeps. -/
inductive OfMb (s0 : State) : MbDone → Prop
  | now {t : State} (r : Reply) : Keeps s0 t → OfMb s0 (.now t r)
  | later {t : State} : Keeps s0 t → OfMb s0 (.later t)

/-- An outcome whose next state keeps what every command keeps; it is a fault only where `wf` does not hold. -/
inductive OfOut (s0 : State) (wf : Prop) : Out → Prop
  | next {t : State} : Keeps s0 t → OfOut s0 wf (.next t)
  | fault (e : Fault) : ¬wf → OfOut s0 wf (.fault e)

theorem OfMb.ite {s0 : State} {x y : MbDone} {c : Prop} [Decidable c] (hx : OfMb s0 x) (hy : OfMb s0 y) :
    OfMb s0 (if c then x else y) := by
  split
  · exact hx
  · exact hy

section
variable {s0 : State} {wf : Prop}

theorem OfOut.ite {x y : Out} {c : Prop} [Decidable c] (hx : OfOut s0 wf x) (hy : OfOut s0 wf y) :
    OfOut s0 wf (if c then x else y) := by
  split
  · exact hx
  · exact hy

theorem OfOut.guard {o : Out} {e : Fault} {c : Prop} [Decidable c] (hw : wf → ¬c) (ho : OfOut s0 wf o) :
    OfOut s0 wf (if c then .fault e else o) := by
  split
  · next h => exact .fault e fun w => hw w h
  · exact ho

end

section
variable {s0 s : State} {wf : Prop}

/-! ### The shared operations -/

theorem stutter (hk : Keeps s0 s) : OfOut s0 wf (stutter s) := .next hk

theorem onlyIf {p : Bool} {t : State} (hk : Keeps s0 s) (ht : Keeps s0 t) :
    OfOut s0 wf (onlyIf p s t) := .ite (.next ht) (.next hk)

theorem emit {o : Output} (hk : Keeps s0 s) : Keeps s0 (s.emit o) := by
  unfold State.emit
  exact hk.update rfl

theorem hostOut {o : Output} (hk : Keeps s0 s) : Keeps s0 (s.hostOut o) := by
  unfold State.hostOut
  split
  · exact hk.update rfl
  · exact hk.emit

theorem draw_snd (hk : Keeps s0 s) : Keeps s0 s.draw.2 := by
  unfold State.draw
  exact hk.update rfl

theorem hwMark {b : HwBit} (hk : Keeps s0 s) : Keeps s0 (s.hwMark b) := by
  unfold State.hwMark
  exact hk.update rfl

theorem bumpPen {p : Nat} {c : PenCtr} {n : Nat} (hk : Keeps s0 s) : Keeps s0 (s.bumpPen p c n) := by
  unfold State.bumpPen
  exact hk.modPen fun _ w => w

theorem maxPen {p : Nat} {c : PenCtr} {n : Nat} (hk : Keeps s0 s) : Keeps s0 (s.maxPen p c n) := by
  unfold State.maxPen
  exact hk.modPen fun _ w => w

theorem bumpDev {c : DevCtr} {n : Nat} (hk : Keeps s0 s) : Keeps s0 (s.bumpDev c n) := by
  unfold State.bumpDev
  exact hk.update rfl

theorem modRing {p k : Nat} {f : Ring → Ring} (hk : Keeps s0 s) : Keeps s0 (s.modRing p k f) := by
  unfold State.modRing
  exact hk.modPen fun _ w => w

theorem modEvRing {p r : Nat} {f : EventRing → EventRing} (hk : Keeps s0 s) : Keeps s0 (s.modEvRing p r f) := by
  unfold State.modEvRing
  exact hk.modPen fun _ w => w

theorem sendRecord {r resends : Nat} (hk : Keeps s0 s) : Keeps s0 (s.sendRecord r resends) := by
  unfold State.sendRecord
  split
  · exact hk
  · exact hk.emit.setWatchman

theorem watchmanTakes {r : Nat} (hk : Keeps s0 s) : Keeps s0 (s.watchmanTakes r) := by
  unfold State.watchmanTakes
  split
  · exact .sendRecord (hk.modPen fun _ w => w)
  · exact hk.update rfl

theorem attnSignal {p r : Nat} (hk : Keeps s0 s) : Keeps s0 (s.attnSignal p r) := by
  unfold State.attnSignal
  split
  · exact hk
  · split
    · exact hk.emit.watchmanTakes
    · exact hk.hostOut

theorem evFire {p r : Nat} (hk : Keeps s0 s) : Keeps s0 (s.evFire p r) := by
  unfold State.evFire
  split
  · exact hk
  · extract_lets +onlyGivenNames s1
    have hs1 : Keeps s0 s1 := hk.modEvRing
    split
    · exact hs1.hwMark
    · extract_lets +onlyGivenNames s2
      have hs2 : Keeps s0 s2 := .hwMark (hs1.modPen fun _ w => w)
      split
      · exact hs2
      · exact hs2.attnSignal

theorem evWrite {p r seq code p0 p1 : Nat} (hk : Keeps s0 s) : Keeps s0 (s.evWrite p r seq code p0 p1) := by
  unfold State.evWrite
  split
  · exact hk
  · extract_lets +onlyGivenNames _ bytes addr s1 _ s2
    have hs1 : Keeps s0 s1 := by
      unfold s1
      split
      · exact hk.crierArea (memWriteBytes_wf _ addr bytes)
      · exact hk.hostOut
    have hs2 : Keeps s0 s2 := hs1.modEvRing.hwMark
    split
    · exact hs2.evFire
    · exact hs2

theorem evRoute {p r code p0 p1 : Nat} (hk : Keeps s0 s) : Keeps s0 (s.evRoute p r code p0 p1) := by
  unfold State.evRoute
  split
  · exact hk
  · extract_lets +onlyGivenNames _ s1
    have hs1 : Keeps s0 s1 := hk.modEvRing
    split
    · exact hs1.modPen fun _ w => w
    · split
      · exact hs1.modEvRing.hwMark
      · exact hs1.evWrite

theorem raiseTo {p code p0 p1 : Nat} {ring : Option Nat} (hk : Keeps s0 s) :
    Keeps s0 (s.raiseTo p code p0 p1 ring) := by
  unfold State.raiseTo
  split
  · exact hk
  · split
    · exact hk.modPen fun _ w => w
    · exact hk.evRoute

theorem raise {p code p0 p1 : Nat} (hk : Keeps s0 s) : Keeps s0 (s.raise p code p0 p1) := by
  unfold State.raise
  exact hk.raiseTo

theorem raiseAll {code p0 p1 : Nat} (hk : Keeps s0 s) : Keeps s0 (s.raiseAll code p0 p1) := by
  unfold State.raiseAll
  exact hk.foldl fun ht => ht.raise

theorem evReportLost {p r : Nat} (hk : Keeps s0 s) : Keeps s0 (s.evReportLost p r) := by
  unfold State.evReportLost
  split
  · exact hk
  · extract_lets +onlyGivenNames _
    split
    · exact hk.modEvRing.evWrite
    · exact hk

theorem cqAdvanced {p k r written : Nat} (hk : Keeps s0 s) : Keeps s0 (s.cqAdvanced p k r written) := by
  unfold State.cqAdvanced
  split
  · exact hk
  · split
    · exact hk
    · extract_lets +onlyGivenNames _ s1
      have hs1 : Keeps s0 s1 := hk.raiseTo.modRing
      split
      · exact hs1
      · split
        · exact hs1
        · exact hs1.modEvRing

theorem mbWrite {mb : Mb} {seq : Nat} {d : Desc} {r : Reply} (hk : Keeps s0 s) : Keeps s0 (s.mbWrite mb seq d r) := by
  unfold State.mbWrite
  extract_lets +onlyGivenNames _ s1 s2
  have hs1 : Keeps s0 s1 := hk.modMb fun _ w => w
  have hs2 : Keeps s0 s2 := by
    unfold s2
    split
    · exact hs1.emit
    · exact hs1.modPen fun _ w => w
    · exact hs1
  exact hs2.hwMark.raise

theorem mbReply {r : MbRef} {reply : Reply} (hk : Keeps s0 s) : Keeps s0 (s.mbReply r reply) := by
  unfold State.mbReply
  split
  · exact hk
  · split
    · exact hk.mbWrite
    · exact hk.bumpPen

theorem mbTake {mb : Mb} {c : MbCmd} (hk : Keeps s0 s) : Keeps s0 (s.mbTake mb c) := by
  unfold State.mbTake
  extract_lets s1
  have hs1 : Keeps s0 s1 := hk.modMb fun _ w => w
  exact hs1.update rfl

theorem refuse {mb : Mb} {n : Nat} (hk : Keeps s0 s) : ∀ t, s.refuse mb n = some t → Keeps s0 t := by
  intro t found
  simp only [State.refuse, Option.bind_eq_some_iff] at found
  obtain ⟨c, -, found⟩ := found
  split at found
  · obtain ⟨r, -, rfl⟩ := Option.map_eq_some_iff.1 found
    exact hk.mbTake.mbReply
  · cases found

theorem refuseHeads {n : Nat} (hk : Keeps s0 s) : Keeps s0 (State.refuseHeads n s) := by
  induction n generalizing s with
  | zero => exact hk
  | succ n ih =>
    unfold State.refuseHeads
    split
    · exact hk
    · split
      · exact hk
      · next found => exact ih (hk.refuse _ found)

theorem reeveNext (hk : Keeps s0 s) : Keeps s0 s.reeveNext := by
  unfold State.reeveNext
  exact hk.refuseHeads

theorem reeveResumes (hk : Keeps s0 s) : Keeps s0 s.reeveResumes := by
  unfold State.reeveResumes
  refine .reeveNext (hk.foldl fun ht => ?_)
  split
  · exact ht.getD ht.refuse
  · exact ht

theorem mbFinish {r : MbRef} {reply : Reply} (hk : Keeps s0 s) : Keeps s0 (s.mbFinish r reply) := by
  unfold State.mbFinish
  exact hk.mbReply.reeveNext

theorem ringGone {p k : Nat} (hk : Keeps s0 s) : Keeps s0 (s.ringGone p k) := by
  unfold State.ringGone
  split
  · exact hk
  · split
    · exact hk
    · split
      · have gone : Keeps s0 (s.modPen p fun q => { q with rings := assocDel k q.rings }) := hk.modPen fun _ w => w
        exact gone.mbFinish.foldl fun ht => ht.mbFinish
      · exact hk

theorem complete {c : RingCmd} {r : Reply} (hk : Keeps s0 s) : Keeps s0 (s.complete c r) := by
  unfold State.complete
  split
  · exact hk
  · split
    · extract_lets +onlyGivenNames _ _ _ s2 s3 s4
      have hs2 : Keeps s0 s2 := hk.hostOut.modRing
      have hs3 : Keeps s0 s3 := by
        unfold s3
        split
        · exact hs2.bumpPen
        · exact hs2.bumpPen
        · exact hs2.bumpDev
        · exact hs2
      have hs4 : Keeps s0 s4 := by
        unfold s4
        split
        · exact hs3
        · split
          · exact hs3.cqAdvanced
          · exact hs3
      exact hs4.ringGone
    · exact hk

theorem at_ {t : Nat} (hk : Keeps s0 s) : Keeps s0 (s.at_ t) := by
  unfold State.at_
  exact hk.update rfl

theorem modSess {h : Handle} {f : Session → Session} (hk : Keeps s0 s) : Keeps s0 (s.modSess h f) := by
  unfold State.modSess
  exact hk.update rfl

theorem modFlock {f : Nat} {g : Flock → Flock} (hk : Keeps s0 s) : Keeps s0 (s.modFlock f g) := by
  unfold State.modFlock
  exact hk.update rfl

theorem endLeases {h : Handle} (hk : Keeps s0 s) : Keeps s0 (s.endLeases h) := by
  unfold State.endLeases
  exact hk.update rfl

theorem setSlice {n : Nat} {sl : Slice} (hk : Keeps s0 s) : Keeps s0 (s.setSlice n sl) := by
  unfold State.setSlice
  split
  · exact hk.update rfl
  · exact hk.update rfl

theorem modEntry {h : Handle} {f : RegEntry → RegEntry} (hk : Keeps s0 s) : Keeps s0 (s.modEntry h f) := by
  unfold State.modEntry
  split
  · exact hk
  · exact hk.setSlice

theorem mbRun {mb : Mb} {op : Nat} {body : State → MbCmd → MbDone}
    (hk : Keeps s0 s) (hb : ∀ {t c}, Keeps s0 t → OfMb s0 (body t c)) :
    OfOut s0 wf (mbRun s mb op body) := by
  unfold Machine.mbRun
  split
  · exact hk.stutter
  · next c _ =>
    refine .ite hk.stutter ?_
    extract_lets s1
    have hs1 : Keeps s0 s1 := hk.mbTake
    split
    · exact .next hs1.mbFinish
    · have answer := hb (c := c) hs1
      generalize body s1 c = d at answer
      cases answer with
      | now r ht => exact .next ht.mbFinish
      | later ht => exact .next ht.reeveNext

theorem ringTake {c : RingCmd} (hk : Keeps s0 s) : Keeps s0 (s.ringTake c) := by
  unfold State.ringTake
  exact hk.update rfl

theorem ringRun {pen ring op : Nat} {body : State → RingCmd → RingDone}
    (hk : Keeps s0 s) (hb : ∀ {t c}, Keeps s0 t → OfRing s0 (body t c)) :
    OfOut s0 wf (ringRun s pen ring op body) := by
  unfold Machine.ringRun
  split
  · exact hk.stutter
  · next c _ =>
    refine .ite hk.stutter ?_
    extract_lets s1
    have hs1 : Keeps s0 s1 := hk.ringTake
    split
    · exact .next hs1.complete
    · have answer := hb (c := c) hs1
      generalize body s1 c = d at answer
      cases answer with
      | now r ht => exact .next ht.complete
      | later ht => exact .next ht

theorem retryLater_fst (hk : Keeps s0 s) : Keeps s0 (retryLater s).1 := by
  unfold retryLater
  exact hk.draw_snd

/-! ### The Tollgate -/

theorem ringDoorbell {p k : Nat} {v : BitVec 64} (hk : Keeps s0 s) : Keeps s0 (s.ringDoorbell p k v) := by
  unfold State.ringDoorbell
  split
  · exact hk.bumpPen
  · split
    · exact hk.bumpPen
    · extract_lets +onlyGivenNames _ _
      split
      · exact hk.modRing
      · exact hk.modRing.raiseTo

theorem colourCmd {p k : Nat} {cmd : RingCmd} (hk : Keeps s0 s) : Keeps s0 (s.colourCmd p k cmd) := by
  unfold State.colourCmd
  split
  · exact hk
  · split
    · split
      · exact hk.modRing
      · exact hk.modRing.complete
    · exact hk.modRing

theorem rejectCmd {p k : Nat} {cmd : RingCmd} {r : Reply} (hk : Keeps s0 s) : Keeps s0 (s.rejectCmd p k cmd r) := by
  unfold State.rejectCmd
  exact hk.modRing.complete

theorem oversizeCmd {p k : Nat} {cmd : RingCmd} (hk : Keeps s0 s) : Keeps s0 (s.oversizeCmd p k cmd) := by
  unfold State.oversizeCmd
  exact hk.modRing.rejectCmd

theorem tickRing {p k : Nat} (hk : Keeps s0 s) : Keeps s0 (s.tickRing p k) := by
  unfold State.tickRing
  extract_lets +onlyGivenNames s1 s2
  have hs1 : Keeps s0 s1 := hk.modRing
  have hs2 : Keeps s0 s2 := by
    unfold s2
    split
    · exact hs1
    · split
      · exact hs1
      · split
        · exact hs1
        · split
          · exact hs1.oversizeCmd
          · exact hs1.colourCmd
  split
  · exact hs2
  · exact hs2.modRing.foldl fun ht => ht.modRing.mbFinish

theorem execTollgateTick (hk : Keeps s0 s) : OfOut s0 wf (execTollgateTick s) := by
  unfold Machine.execTollgateTick
  exact .next (hk.at_.setClock.foldl fun ht => ht.tickRing)

theorem execTollgateSample {p k : Nat} (hk : Keeps s0 s) : OfOut s0 wf (execTollgateSample p k s) := by
  unfold Machine.execTollgateSample
  split
  · exact hk.stutter
  · exact .next hk.at_.modRing

theorem execHeartbeatWindow (hk : Keeps s0 s) : OfOut s0 wf (execHeartbeatWindow s) := by
  unfold Machine.execHeartbeatWindow
  exact .next (hk.at_.updatePens (g := fun q => q.heartbeatWindow s.clock.heartbeatWindow) (fun _ w => w) rfl
    (Nat.le_refl _) id id id rfl)

theorem execReeveHeartbeatTick (hk : Keeps s0 s) : OfOut s0 wf (execReeveHeartbeatTick s) := by
  unfold Machine.execReeveHeartbeatTick
  extract_lets +onlyGivenNames _ _ _ s2
  have hs2 : Keeps s0 s2 := hk.at_.setClock
  exact .ite (.next (hs2.update rfl)) (.next hs2)

/-! ### Pens, rings, layouts and constraint sets -/

theorem withPen {mb : Mb} {d : Desc} {off : Nat} {body : Nat → Pen → MbDone}
    (hk : Keeps s0 s) (hb : ∀ p q, OfMb s0 (body p q)) :
    OfMb s0 (withPen s mb d off body) := by
  unfold Machine.withPen
  split
  · exact hb _ _
  · exact .now _ hk

theorem unlessBad {l others : List (Nat × Bool)} {body : MbDone} (hk : Keeps s0 s) (hb : OfMb s0 body) :
    OfMb s0 (unlessBad s l body others) := by
  unfold Machine.unlessBad
  split
  · exact .now _ hk
  · exact hb

theorem execNirvexCaps {mb : Mb} (hk : Keeps s0 s) : OfOut s0 wf (execNirvexCaps mb s) := by
  unfold Machine.execNirvexCaps
  refine hk.mbRun fun {t _} ht => ?_
  generalize t.capsBlock = bytes
  exact .now _ (ht.modMb fun m => memWriteBytes_wf m.payload 0 bytes)

theorem execPenCreate {mb : Mb} (hk : Keeps s0 s) : OfOut s0 wf (execPenCreate mb s) := by
  unfold Machine.execPenCreate
  exact hk.mbRun fun ht => ht.unlessBad (.ite (.now _ ht) (.now _ (ht.newPen rfl)))

theorem execPenDestroy {mb : Mb} (hk : Keeps s0 s) : OfOut s0 wf (execPenDestroy mb s) := by
  unfold Machine.execPenDestroy
  refine hk.mbRun fun ht => ?_
  extract_lets
  split
  · exact .now _ ht
  · next notZero => exact ht.unlessBad (.now _ (ht.delPen notZero))

theorem execPenConfig {mb : Mb} (hk : Keeps s0 s) : OfOut s0 wf (execPenConfig mb s) := by
  unfold Machine.execPenConfig
  exact hk.mbRun fun ht => ht.unlessBad (.ite (.now _ ht) (.later (ht.modPen fun _ w => w)))

theorem execRingCreate {mb : Mb} (hk : Keeps s0 s) : OfOut s0 wf (execRingCreate mb s) := by
  unfold Machine.execRingCreate
  exact hk.mbRun fun ht => ht.withPen fun _ _ => ht.unlessBad (.ite (.now _ ht) (.now _ (ht.modPen fun _ w => w)))

theorem execRingDestroy {mb : Mb} (hk : Keeps s0 s) : OfOut s0 wf (execRingDestroy mb s) := by
  unfold Machine.execRingDestroy
  refine hk.mbRun fun ht => ht.withPen fun _ _ => ht.unlessBad ?_
  extract_lets held s1
  have hs1 : Keeps s0 s1 := ht.modRing
  cases held with
  | none => exact .later hs1.ringGone
  | some h => exact .later hs1.complete

theorem execRingConfig {mb : Mb} (hk : Keeps s0 s) : OfOut s0 wf (execRingConfig mb s) := by
  unfold Machine.execRingConfig
  exact hk.mbRun fun ht => ht.withPen fun _ _ => ht.unlessBad (.later ht.modRing)

theorem execLayoutLoad {mb : Mb} (hk : Keeps s0 s) : OfOut s0 wf (execLayoutLoad mb s) := by
  unfold Machine.execLayoutLoad
  refine hk.mbRun fun ht => ?_
  extract_lets +onlyGivenNames _
  split
  · exact .now _ ht
  · exact .now _ (ht.update rfl)

theorem execLayoutUnload {mb : Mb} (hk : Keeps s0 s) : OfOut s0 wf (execLayoutUnload mb s) := by
  unfold Machine.execLayoutUnload
  exact hk.mbRun fun ht => ht.unlessBad (.now _ (ht.update rfl))

theorem execConstraintLoad {mb : Mb} {source : List Byte} (hk : Keeps s0 s) :
    OfOut s0 wf (execConstraintLoad mb source s) := by
  unfold Machine.execConstraintLoad
  refine hk.mbRun fun ht => ?_
  refine ht.withPen fun _ _ => ?_
  extract_lets +onlyGivenNames _ _ _
  split
  · exact .now _ ht
  · refine ht.unlessBad ?_
    split
    · exact .now _ ht
    · split
      · exact .now _ ht
      · exact .ite (.now _ ht) (.now _ (ht.modPen fun _ w => w))

theorem execConstraintUnload {mb : Mb} (hk : Keeps s0 s) : OfOut s0 wf (execConstraintUnload mb s) := by
  unfold Machine.execConstraintUnload
  exact hk.mbRun fun ht => ht.withPen fun _ _ => ht.unlessBad (.now _ (ht.modPen fun _ w => w))

/-! ### Domains, grants and limits -/

theorem setDomain {d : Nat} {x : Domain} (hk : Keeps s0 s) : Keeps s0 (s.setDomain d x) := by
  unfold State.setDomain
  exact hk.update rfl

theorem askWake {cls d : Nat} (hk : Keeps s0 s) : Keeps s0 (s.askWake cls d) := by
  unfold State.askWake
  extract_lets +onlyGivenNames _ _ s1
  have hs1 : Keeps s0 s1 := hk.update rfl
  split
  · exact hs1
  · exact hs1.update rfl

theorem askWakes {cls : Nat} {ds : List Nat} (hk : Keeps s0 s) : Keeps s0 (s.askWakes cls ds) := by
  unfold State.askWakes
  exact hk.foldl fun ht => ht.askWake

theorem restDomain {d : Nat} {t : DomState} (hk : Keeps s0 s) : Keeps s0 (s.restDomain d t) := by
  unfold State.restDomain
  split
  · exact hk.at_.setHearth
  · exact hk

theorem execDomainSleep {d : Nat} (hw : wf → ¬106 ≤ d) (hk : Keeps s0 s) : OfOut s0 wf (execDomainSleep d s) := by
  unfold Machine.execDomainSleep
  exact .guard hw (.next hk.restDomain)

theorem execDomainOffTimer {d : Nat} (hw : wf → ¬106 ≤ d) (hk : Keeps s0 s) :
    OfOut s0 wf (execDomainOffTimer d s) := by
  unfold Machine.execDomainOffTimer
  exact .guard hw (.next hk.restDomain)

theorem portRests {d : Nat} {t : DomState} (hk : Keeps s0 s) : Keeps s0 (s.portRests d t) := by
  unfold State.portRests
  split
  · split
    · exact hk.update rfl
    · exact hk
  · exact hk

theorem issueChange {d : Nat} {t : DomState} (hk : Keeps s0 s) : Keeps s0 (s.issueChange d t) := by
  unfold State.issueChange
  extract_lets +onlyGivenNames _
  split
  · exact hk.setDomain.setHearth
  · split
    · exact hk.setDomain.portRests.setHearth
    · exact hk

theorem execWakeIssue (hk : Keeps s0 s) : OfOut s0 wf (execWakeIssue s) := by
  unfold Machine.execWakeIssue
  split
  · exact hk.stutter
  · exact .next hk.at_.setHearth.issueChange

theorem execDomainWoken {d : Nat} (hw : wf → ¬106 ≤ d) (hk : Keeps s0 s) : OfOut s0 wf (execDomainWoken d s) := by
  unfold Machine.execDomainWoken
  refine .guard hw ?_
  split
  · exact hk.stutter
  · exact .next hk.at_.setDomain

theorem execPowerLimitSet {mb : Mb} (hk : Keeps s0 s) : OfOut s0 wf (execPowerLimitSet mb s) := by
  unfold Machine.execPowerLimitSet
  exact hk.mbRun fun ht => ht.unlessBad (.now _ (.raise (ht.update rfl)))

theorem execOverrunWindow (hk : Keeps s0 s) : OfOut s0 wf (execOverrunWindow s) := by
  unfold Machine.execOverrunWindow
  extract_lets +onlyGivenNames _ _ _ _ _ _ _ s3
  have hs3 : Keeps s0 s3 := hk.at_.setClock.setHearth
  exact .ite (.next hs3.raise) (.next hs3)

theorem grant_snd {key period weight request guaranteed : Nat} (hk : Keeps s0 s) :
    Keeps s0 (s.grant key period weight request guaranteed).2 := by
  unfold State.grant
  extract_lets put
  have hput : ∀ {g h}, Keeps s0 (put g h) := hk.update rfl
  split
  · exact hput
  · exact hput

theorem idleDomains (hk : Keeps s0 s) : Keeps s0 s.idleDomains := by
  unfold State.idleDomains
  split
  · exact hk
  · exact hk.update rfl

theorem dropGrant {key : Nat} (hk : Keeps s0 s) : Keeps s0 (s.dropGrant key) := by
  unfold State.dropGrant
  exact .idleDomains (hk.update rfl)

theorem correctPrice {f price : Nat} (hk : Keeps s0 s) : Keeps s0 (s.correctPrice f price) := by
  unfold State.correctPrice
  exact hk.draw_snd.update rfl

theorem sampleSensors {samples : List (Option Int)} (hk : Keeps s0 s) : Keeps s0 (s.sampleSensors samples) := by
  unfold State.sampleSensors
  exact hk.foldl fun ht => (Keeps.ite (.raise (ht.update rfl)) (ht.update rfl))

theorem setDerate (hk : Keeps s0 s) : Keeps s0 s.setDerate := by
  unfold State.setDerate
  split
  extract_lets +onlyGivenNames _ _ s1
  have hs1 : Keeps s0 s1 := hk.setHearth
  clear_value s1
  split
  · exact hs1.setHearth.raise
  · exact hs1

/-! ### Flash -/

theorem readPages {run first n : Nat} (hk : Keeps s0 s) : Keeps s0 (s.readPages run first n) := by
  unfold State.readPages
  split
  · exact hk
  · exact hk.bumpDev

theorem writeRun {g n : Nat} (hk : Keeps s0 s) : Keeps s0 (s.writeRun g n) := by
  unfold State.writeRun
  exact hk.update rfl

theorem newRun {n : Nat} (hk : Keeps s0 s) : ∀ r, s.newRun n = some r → Keeps s0 r.2 := by
  intro r found
  unfold State.newRun at found
  dsimp only at found
  split at found
  · cases found
  · cases found
    exact hk.writeRun

theorem newRuns {ns : List Nat} (hk : Keeps s0 s) : ∀ r, s.newRuns ns = some r → Keeps s0 r.2 := by
  induction ns generalizing s with
  | nil =>
    intro r found
    cases found
    exact hk
  | cons n ns ih =>
    intro r found
    unfold State.newRuns at found
    split at found
    · cases found
    · next first =>
      obtain ⟨q, rest, rfl⟩ := Option.map_eq_some_iff.1 found
      exact ih (hk.newRun _ first) q rest

theorem placeSession_snd {h : Handle} {t : Tier} {x : Session} (hk : Keeps s0 s) :
    Keeps s0 (s.placeSession h t x).2 := by
  unfold State.placeSession
  extract_lets
  split
  · exact hk
  · next found =>
    split at found
    · exact hk.newRuns _ found
    · cases found
  · exact hk

theorem readRun {l : Layout} {f : Sheaf} (hk : Keeps s0 s) : Keeps s0 (s.readRun l f) := by
  unfold State.readRun
  split
  · exact hk
  · exact hk.readPages

theorem collect (hk : Keeps s0 s) : Keeps s0 s.collect := by
  unfold State.collect
  exact hk.update rfl

theorem rewriteGroup {g : Nat} (hk : Keeps s0 s) : Keeps s0 (s.rewriteGroup g) := by
  unfold State.rewriteGroup
  split
  · exact hk
  · split
    · exact hk.update rfl
    · exact hk.readPages.writeRun.setT2

theorem manageFlash (hk : Keeps s0 s) : Keeps s0 s.manageFlash := by
  unfold State.manageFlash
  exact hk.collect.foldl fun ht => ht.rewriteGroup

/-! ### Placement -/

theorem setMoving (hk : Keeps s0 s) : Keeps s0 s.setMoving := by
  unfold State.setMoving
  exact hk.update rfl

theorem modMove {id : Nat} {g : Move → Move} (hk : Keeps s0 s) : Keeps s0 (s.modMove id g) := by
  unfold State.modMove
  exact hk.update rfl

theorem queueMove {q : MoveSubject} {src dst : Tier} {forPlan : Option Nat} (hk : Keeps s0 s) :
    Keeps s0 (s.queueMove q src dst forPlan) := by
  unfold State.queueMove
  split
  · exact hk
  · exact .setMoving (hk.update rfl)

theorem queueChosen {t : Tier} {chosen : List (MoveSubject × Tier)} (hk : Keeps s0 s) :
    Keeps s0 (s.queueChosen t chosen) := by
  unfold State.queueChosen
  exact hk.foldl fun ht => ht.queueMove

theorem demoteTier {p : Nat} {t : Tier} (hk : Keeps s0 s) : Keeps s0 (s.demoteTier p t) := by
  unfold State.demoteTier
  extract_lets +onlyGivenNames _ _
  split
  · exact hk.queueChosen
  · exact hk

theorem demote {p : Nat} (hk : Keeps s0 s) : Keeps s0 (s.demote p) := by
  unfold State.demote
  exact hk.demoteTier.demoteTier

theorem demoteAll (hk : Keeps s0 s) : Keeps s0 s.demoteAll := by
  unfold State.demoteAll
  exact hk.foldl fun ht => ht.demote

theorem demoteFor {p n : Nat} (hk : Keeps s0 s) : Keeps s0 (s.demoteFor p n) := by
  unfold State.demoteFor
  exact hk.queueChosen

theorem refuseT1 {p n : Nat} (hk : Keeps s0 s) : ∀ r, refuseT1 s p n = some r → Keeps s0 r.1 := by
  intro r refused
  unfold Machine.refuseT1 at refused
  split at refused
  · cases refused
  · split at refused
    · injection refused with refused
      rw [← refused]
      exact hk.demoteFor.bumpPen.retryLater_fst
    · injection refused with refused
      rw [← refused]
      exact hk.bumpPen

theorem refuseGrowth {t : State} {p : Nat} {h : Handle} (hk : Keeps s0 s) :
    ∀ r, refuseGrowth s t p h = some r → Keeps s0 r.1 := by
  intro r refused
  unfold Machine.refuseGrowth at refused
  split at refused
  · exact hk.refuseT1 r refused
  · cases refused

/-! ### Sending on the Commons -/

theorem sendPacket {p : Nat} {h : BitVec 512} {body : List Byte} (hk : Keeps s0 s) :
    Keeps s0 (s.sendPacket p h body) := by
  unfold State.sendPacket
  exact hk.emit.setCommons.bumpDev

theorem request {d op pen : Nat} {body : List Byte} {use : ReqUse} (hk : Keeps s0 s) :
    Keeps s0 (s.request d op pen body use) := by
  unfold State.request
  split
  · exact hk
  · extract_lets +onlyGivenNames _ _ _ _ _ _ route _ _ s1
    have hs1 : Keeps s0 s1 := hk.update rfl
    cases route with
    | none => exact hs1
    | some p => exact hs1.sendPacket

theorem resendRequest {r : Request} (hk : Keeps s0 s) : Keeps s0 (s.resendRequest r) := by
  unfold State.resendRequest
  extract_lets +onlyGivenNames _ _
  split
  · exact .bumpDev (.sendPacket (hk.update rfl))
  · exact hk.update rfl

theorem leaveRoute {p : Nat} (hk : Keeps s0 s) : Keeps s0 (s.leaveRoute p) := by
  unfold State.leaveRoute
  exact hk.foldl fun ht => ht.resendRequest

theorem joinRoute (hk : Keeps s0 s) : Keeps s0 s.joinRoute := by
  unfold State.joinRoute
  exact hk.foldl fun ht => (Keeps.ite ht.resendRequest ht)

theorem reissue {r : Request} (hk : Keeps s0 s) : Keeps s0 (s.reissue r) := by
  unfold State.reissue
  exact .resendRequest (hk.update rfl)

theorem learn {n inc : Nat} (hk : Keeps s0 s) : Keeps s0 (s.learn n inc) := by
  unfold State.learn
  split
  · exact hk
  · extract_lets
    exact hk.setCommons.foldl fun ht => ht.reissue

theorem respond {req : BitVec 512} {status hint result : Nat} {payload : List Byte} (hk : Keeps s0 s) :
    Keeps s0 (s.respond req status hint result payload) := by
  unfold State.respond
  extract_lets +onlyGivenNames _ s1
  have hs1 : Keeps s0 s1 := (Keeps.ite hk.bumpDev (Keeps.ite hk.bumpDev (Keeps.ite hk.bumpDev hk)))
  split
  · exact hs1
  · split
    · exact hs1
    · exact .sendPacket (hs1.update rfl)

theorem oweEntry {h : Handle} (hk : Keeps s0 s) : Keeps s0 (s.oweEntry h) := by
  unfold State.oweEntry
  split
  · exact hk.update rfl
  · exact hk

theorem mirrorEntry {h : Handle} (hk : Keeps s0 s) : Keeps s0 (s.mirrorEntry h) := by
  unfold State.mirrorEntry
  split
  · exact hk.oweEntry.request
  · exact hk.oweEntry
  · exact hk

theorem freeExtent {p node off n : Nat} (hk : Keeps s0 s) : Keeps s0 (s.freeExtent p node off n) := by
  unfold State.freeExtent
  exact hk.request

theorem removeMove {m : Move} (hk : Keeps s0 s) : Keeps s0 (s.removeMove m) := by
  unfold State.removeMove
  extract_lets +onlyGivenNames s1
  have hs1 : Keeps s0 s1 := hk.update rfl
  split
  · exact hs1.freeExtent
  · exact hs1

theorem offerWithdrawn {h : Handle} (hk : Keeps s0 s) : Keeps s0 (s.offerWithdrawn h) := by
  unfold State.offerWithdrawn
  split
  · exact hk
  · exact hk.modSess.setDispatched

theorem regAway {h : Handle} {op : Nat} {body : List Byte} {use : ReqUse} (hk : Keeps s0 s) :
    Keeps s0 (s.regAway h op body use) := by
  unfold State.regAway
  exact hk.request

theorem regHere_fst {h : Handle} {op : Nat} {tail : List Byte} {use : ReqUse} (hk : Keeps s0 s) :
    Keeps s0 (s.regHere h op tail use).1 := by
  unfold State.regHere
  split
  · exact hk
  · extract_lets +onlyGivenNames _ q add
    have hadd : ∀ q, Keeps s0 (add s q) := fun q => hk.update rfl
    split
    · exact hadd q
    · split
      · exact hk
      · split
        · dsimp only
          exact hk.modEntry.oweEntry
        · dsimp only
          exact (hadd _).request

theorem withdrawOffer {h : Handle} (hk : Keeps s0 s) : Keeps s0 (s.withdrawOffer h) := by
  unfold State.withdrawOffer
  split
  · split
    · split
      · exact hk
      · split
        · exact hk.offerWithdrawn
        · split
          · next answer => exact (hk.regHere_fst.of_fst answer).offerWithdrawn
          · next answer => exact hk.regHere_fst.of_fst answer
    · exact hk
  · exact hk.regAway

theorem holdForOffer {h : Handle} {c : RingCmd} (hk : Keeps s0 s) : Keeps s0 (s.holdForOffer h c) := by
  unfold State.holdForOffer
  split
  · exact hk
  · split
    · exact hk
    · extract_lets +onlyGivenNames s1
      have hs1 : Keeps s0 s1 := hk.modSess
      split
      · exact hs1.withdrawOffer
      · exact hs1

theorem ringRunHome {pen ring op : Nat} {body : State → RingCmd → RingDone} (hk : Keeps s0 s)
    (hb : ∀ {t c}, Keeps s0 t → OfRing s0 (body t c)) : OfOut s0 wf (ringRunHome s pen ring op body) := by
  unfold Machine.ringRunHome
  refine hk.ringRun fun ht => ?_
  split
  · exact .ite (.later ht.holdForOffer) (hb ht)
  · exact hb ht

theorem sendRecords {d : Nat} {h : Handle} {step : Nat} {recs : List Rec} {header : List (List Byte)}
    (hk : Keeps s0 s) : Keeps s0 (s.sendRecords d h step recs header) := by
  unfold State.sendRecords
  exact .request (hk.update rfl)

/-! ### Commit groups -/

theorem formGroup {h : Handle} {recs : List Rec} {eff : CommitEffect} (hk : Keeps s0 s) :
    Keeps s0 (s.formGroup h recs eff) := by
  unfold State.formGroup
  split
  · exact hk
  · extract_lets +onlyGivenNames _ _ _ s1
    have hs1 : Keeps s0 s1 := .modSess (hk.update rfl)
    split
    · exact hs1
    · exact hs1.sendRecords

theorem queueBehind {h : Handle} {c : RingCmd} (hk : Keeps s0 s) : Keeps s0 (s.queueBehind h c) := by
  unfold State.queueBehind
  exact .modSess (hk.update rfl)

theorem countSampled {h : Handle} {l : Layout} {x : Session} {ids : List Nat} (hk : Keeps s0 s) :
    Keeps s0 (s.countSampled h l x ids) := by
  unfold State.countSampled
  exact hk.bumpPen.bumpPen.foldl fun ht => ht.raise

theorem raiseParked {h : Handle} {c : ParkCause} (hk : Keeps s0 s) : Keeps s0 (s.raiseParked h c) := by
  unfold State.raiseParked
  exact hk.raise

theorem flashSession {h : Handle} (hk : Keeps s0 s) : Keeps s0 (s.flashSession h) := by
  unfold State.flashSession
  split
  · exact hk
  · exact .modSess (hk.update rfl)

theorem commitGroup {h : Handle} (hk : Keeps s0 s) : Keeps s0 (s.commitGroup h) := by
  unfold State.commitGroup
  split
  · exact hk
  · split
    · extract_lets +onlyGivenNames _ _ _ _ _ _ _ _ _ s0' s1 _ s1' s2 s3 s4 s5
      have hs0' : Keeps s0 s0' := hk.modSess
      have hs1 : Keeps s0 s1 := (Keeps.ite hs0'.flashSession hs0')
      have hs1' : Keeps s0 s1' := (Keeps.ite (hs1.update rfl) hs1)
      have hs2 : Keeps s0 s2 := (Keeps.ite hs1' hs1'.bumpPen.bumpPen.maxPen)
      have hs3 : Keeps s0 s3 := (Keeps.ite hs2.bumpPen hs2)
      have hs4 : Keeps s0 s4 := (Keeps.ite hs3.bumpPen hs3)
      have hs5 : Keeps s0 s5 := (Keeps.ite hs4.bumpPen hs4)
      split
      · exact hs5.complete
      · exact hs5.complete
      · exact hs5.complete
      · extract_lets +onlyGivenNames s6
        have hs6 : Keeps s0 s6 := (Keeps.ite hs5.raiseParked.endLeases hs5)
        exact hs6.complete
      · exact hs5.countSampled
      · exact hs5
      · exact hs5
    · exact hk

theorem refuseLedgerFull_fst (hk : Keeps s0 s) : Keeps s0 s.refuseLedgerFull.1 := by
  unfold State.refuseLedgerFull
  exact hk.raise

/-! ### Sheaves -/

theorem addRef {owner : Handle} {layer ordinal : Nat} (hk : Keeps s0 s) :
    Keeps s0 (s.addRef owner layer ordinal) := by
  unfold State.addRef
  exact hk.modSess

theorem freeIndex {h : Handle} (hk : Keeps s0 s) : Keeps s0 (s.freeIndex h) := by
  unfold State.freeIndex
  split
  · exact hk
  · split
    · exact hk.setSlice
    · split
      · exact hk
      · exact hk.setSlice

theorem retire {h : Handle} (hk : Keeps s0 s) : Keeps s0 (s.retire h) := by
  unfold State.retire
  split
  · exact hk.regHere_fst
  · exact hk.regAway

theorem freeMap {h : Handle} (hk : Keeps s0 s) : Keeps s0 (s.freeMap h) := by
  unfold State.freeMap
  extract_lets +onlyGivenNames s1
  have hs1 : Keeps s0 s1 := hk.update rfl
  split
  · split
    · split
      · exact hs1.freeIndex
      · exact hs1
    · exact hs1
  · exact hs1.regAway

theorem reap {h : Handle} (hk : Keeps s0 s) : Keeps s0 (s.reap h) := by
  unfold State.reap
  split
  · exact hk
  · split
    · exact hk.freeMap
    · exact hk

theorem dropRef {owner : Handle} {layer ordinal : Nat} (hk : Keeps s0 s) :
    Keeps s0 (s.dropRef owner layer ordinal) := by
  unfold State.dropRef
  exact hk.modSess.reap

/-! ### Posted output -/

theorem completeBuffer {h : Handle} (hk : Keeps s0 s) : Keeps s0 (s.completeBuffer h) := by
  unfold State.completeBuffer
  split
  · exact hk
  · split
    · exact hk
    · exact hk.modSess.bumpPen.formGroup

theorem completeWhile {p : Session → OutBuf → Bool} {n : Nat} {h : Handle} (hk : Keeps s0 s) :
    Keeps s0 (State.completeWhile p n s h) := by
  induction n generalizing s with
  | zero => exact hk
  | succ n ih =>
    unfold State.completeWhile
    split
    · exact hk
    · split
      · exact hk
      · exact .ite (ih hk.completeBuffer) hk

theorem fillOutput {h : Handle} {go : State → Layout → Nat → State} (hk : Keeps s0 s)
    (hgo : ∀ {t l n}, Keeps s0 t → Keeps s0 (go t l n)) : Keeps s0 (s.fillOutput h go) := by
  unfold State.fillOutput
  split
  · exact hk
  · split
    · exact hk
    · exact hgo (hk.foldl fun ht => ht.hostOut).modSess

theorem settleOutput {h : Handle} {boundary park : Bool} (hk : Keeps s0 s) :
    Keeps s0 (s.settleOutput h boundary park) := by
  unfold State.settleOutput
  split
  · exact hk
  · exact hk.fillOutput fun ht => ht.completeWhile

theorem closeOutput {h : Handle} (hk : Keeps s0 s) : Keeps s0 (s.closeOutput h) := by
  unfold State.closeOutput
  exact hk.fillOutput fun ht => ht.completeWhile

/-! ### Sessions -/

theorem issue {p : Nat} {isPrefix : Bool} (hk : Keeps s0 s) : ∀ r, s.issue p isPrefix = some r → Keeps s0 r.2 := by
  intro r issued
  unfold State.issue at issued
  split at issued
  · cases issued
  · injection issued with issued
    rw [← issued]
    exact hk.update rfl

theorem openSession {h : Handle} {x : Session} {inherited : List Rec} {c : RingCmd} (hk : Keeps s0 s) :
    Keeps s0 (s.openSession h x inherited c) := by
  unfold State.openSession
  exact .formGroup (.mirrorEntry (hk.update rfl))

theorem fork {ph h : Handle} {smp : Sampler} {lc isPrefix : Bool} {c : RingCmd} (hk : Keeps s0 s) :
    Keeps s0 (s.fork ph h smp lc isPrefix c) := by
  unfold State.fork
  split
  · exact hk
  · extract_lets +onlyGivenNames _ _ _ s2
    have hs2 : Keeps s0 s2 := (hk.modSess.foldl fun ht => ht.addRef)
    exact hs2.openSession

theorem forkRefusal {p : Nat} {x : Session} (hk : Keeps s0 s) : ∀ r, forkRefusal s p x = some r → Keeps s0 r.1 := by
  intro r refused
  unfold Machine.forkRefusal at refused
  split at refused
  · injection refused with refused
    rw [← refused]
    exact hk
  · split at refused
    · injection refused with refused
      rw [← refused]
      exact hk
    · split at refused
      · injection refused with refused
        rw [← refused]
        exact hk.refuseLedgerFull_fst
      · exact hk.refuseT1 r refused

theorem deferCmd {c : RingCmd} (hk : Keeps s0 s) : Keeps s0 (s.deferCmd c) := by
  unfold State.deferCmd
  exact .modSess (hk.update rfl)

theorem awaitHandover {c : RingCmd} (hk : Keeps s0 s) : Keeps s0 (s.awaitHandover c) := by
  unfold State.awaitHandover
  exact hk.modSess

theorem openFork {c : RingCmd} {x : Session} {smp : Sampler} {lc isPrefix : Bool} (hk : Keeps s0 s) :
    OfRing s0 (s.openFork c x smp lc isPrefix) := by
  unfold State.openFork
  split
  · next refused => exact .now _ (hk.forkRefusal _ refused)
  · split
    · exact .now _ hk
    · next issued => exact .later (Keeps.fork (hk.issue _ issued))

theorem forkInTurn {c : RingCmd} {x : Session} {reached : Bool} {now : RingDone} (hk : Keeps s0 s) (hn :
    OfRing s0 now) :
    OfRing s0 (s.forkInTurn c x reached now) := by
  unfold State.forkInTurn
  exact .ite (.now _ hk.retryLater_fst) (.ite (.later hk.deferCmd) (.ite (.later hk.awaitHandover)
    (.ite hn (.later hk.queueBehind))))

theorem openPrefix {c : RingCmd} (hk : Keeps s0 s) : OfRing s0 (s.openPrefix c) := by
  unfold State.openPrefix
  extract_lets
  split
  · split
    · exact .now _ hk
    · exact hk.openFork
  · exact .now _ hk

theorem openEmpty {c : RingCmd} (hk : Keeps s0 s) : OfRing s0 (s.openEmpty c) := by
  unfold State.openEmpty
  refine .ite (.now _ hk) (.ite (.now _ hk.refuseLedgerFull_fst) ?_)
  split
  · next refused => exact .now _ (hk.refuseT1 _ refused)
  · split
    · exact .now _ hk
    · next issued => exact .later (Keeps.openSession (hk.issue _ issued))

theorem execSessionOpen {pen ring : Nat} (hk : Keeps s0 s) : OfOut s0 wf (execSessionOpen pen ring s) := by
  unfold Machine.execSessionOpen
  refine hk.ringRun fun ht => ?_
  split
  · exact .now _ ht
  · refine .ite (.now _ ht.retryLater_fst) ?_
    split
    · exact .now _ ht
    · split
      · exact ht.forkInTurn ht.openPrefix
      · exact ht.openEmpty

theorem forkNow {c : RingCmd} (hk : Keeps s0 s) : OfRing s0 (s.forkNow c) := by
  unfold State.forkNow
  split
  · exact .now _ hk
  · exact hk.openFork

theorem execSessionFork {pen ring : Nat} (hk : Keeps s0 s) : OfOut s0 wf (execSessionFork pen ring s) := by
  unfold Machine.execSessionFork
  refine hk.ringRun fun ht => ?_
  split
  · exact .now _ ht
  · exact ht.forkInTurn ht.forkNow

theorem badHandleAll {cs : List RingCmd} (hk : Keeps s0 s) : Keeps s0 (s.badHandleAll cs) := by
  unfold State.badHandleAll
  exact hk.foldl fun ht => ht.complete

theorem closeBuffers {h : Handle} (hk : Keeps s0 s) : Keeps s0 (s.closeBuffers h) := by
  unfold State.closeBuffers
  split
  · exact hk
  · exact hk.foldl fun ht => ht.bumpPen.complete

theorem abandonMovesOf {h : Handle} (hk : Keeps s0 s) : Keeps s0 (s.abandonMovesOf h) := by
  unfold State.abandonMovesOf
  exact (hk.foldl fun ht => ht.removeMove).bumpPen

theorem closeSession {h : Handle} {c : Option RingCmd} (hk : Keeps s0 s) : Keeps s0 (s.closeSession h c) := by
  unfold State.closeSession
  split
  · exact hk
  · extract_lets +onlyGivenNames _ _ _ s4 _ s6 s7 s8
    have hs4 : Keeps s0 s4 := (hk.closeBuffers.badHandleAll.abandonMovesOf.endLeases.modSess.foldl fun ht =>
        ht.dropRef)
    have hs6 : Keeps s0 s6 := hs4.modSess.retire.update rfl
    have hs7 : Keeps s0 s7 := by
      unfold s7
      split
      · exact hs6.request
      · exact hs6
    have hs8 : Keeps s0 s8 := hs7.reap.raise
    split
    · exact hs8.complete
    · exact hs8

theorem closeNow {c : RingCmd} (hk : Keeps s0 s) : Keeps s0 (s.closeNow c) := by
  unfold State.closeNow
  extract_lets +onlyGivenNames _ s1
  have hs1 : Keeps s0 s1 := hk.closeOutput
  split
  · exact hs1.complete
  · split
    · exact hs1.complete
    · split
      · exact hs1.closeSession
      · exact hs1.queueBehind

theorem execSessionClose {pen ring : Nat} (hk : Keeps s0 s) : OfOut s0 wf (execSessionClose pen ring s) := by
  unfold Machine.execSessionClose
  refine hk.ringRunHome fun ht => ?_
  split
  · exact .now _ ht
  · exact .ite (.later ht.deferCmd) (.later ht.closeNow)

theorem parkNow {c : RingCmd} (hk : Keeps s0 s) : OfRing s0 (s.parkNow c) := by
  unfold State.parkNow
  extract_lets
  split
  · exact .now _ hk
  · split
    · exact .later hk.formGroup
    · exact .later hk.formGroup
    · exact .now _ hk

theorem execSessionPark {pen ring : Nat} (hk : Keeps s0 s) : OfOut s0 wf (execSessionPark pen ring s) := by
  unfold Machine.execSessionPark
  refine hk.ringRunHome fun ht => ?_
  split
  · exact .now _ ht
  · exact .ite (.later ht.deferCmd) ht.parkNow

theorem execSessionResume {pen ring : Nat} (hk : Keeps s0 s) : OfOut s0 wf (execSessionResume pen ring s) := by
  unfold Machine.execSessionResume
  refine hk.ringRunHome fun ht => ?_
  extract_lets +onlyGivenNames _
  split
  · exact .now _ ht
  · extract_lets +onlyGivenNames _
    split
    · exact .now _ ht
    · split
      · exact .now _ ht
      · exact .now _ ht
      · exact .now _ ht
      · exact .now _ ht
      · exact .ite (.later ht.formGroup) (.now _ ht)
      · exact .ite (.later ht.formGroup) (.now _ ht)

theorem takeTurn {c : RingCmd} {reached : Bool} (hk : Keeps s0 s) : Keeps s0 (s.takeTurn c reached) := by
  unfold State.takeTurn
  extract_lets done
  have hdone : ∀ {d}, OfRing s0 d → Keeps s0 (done d) := by
    rintro _ (⟨_, ht⟩ | ht)
    · exact ht.complete
    · exact ht
  split
  · exact hk.complete
  · refine .ite hk.complete ?_
    split
    · exact hdone (hk.forkInTurn hk.openPrefix)
    · exact hdone (hk.forkInTurn hk.forkNow)
    · exact .ite hk.deferCmd hk.closeNow
    · exact hdone hk.parkNow
    · exact hk.complete

theorem renumber {n id : Nat} (hk : Keeps s0 s) : Keeps s0 (s.renumber n id) := by
  unfold State.renumber
  exact hk.update rfl

theorem settleGroup {h : Handle} (hk : Keeps s0 s) : Keeps s0 (s.settleGroup h) := by
  unfold State.settleGroup
  split
  · exact hk
  · split
    · exact hk.modSess.takeTurn.renumber
    · extract_lets +onlyGivenNames t' _
      have ht' : Keeps s0 t' := hk.commitGroup
      split
      · exact ht'.settleOutput
      · exact ht'

theorem commitReady {h : Handle} (hk : Keeps s0 s) : Keeps s0 (s.commitReady h) := by
  unfold State.commitReady
  exact hk.foldl fun ht => (Keeps.ite ht.settleGroup ht)

theorem execSessionQuery {pen ring : Nat} (hk : Keeps s0 s) : OfOut s0 wf (execSessionQuery pen ring s) := by
  unfold Machine.execSessionQuery
  refine hk.ringRun fun ht => ?_
  extract_lets +onlyGivenNames _ _
  split
  · split
    · exact .now _ ht.hostOut
    · exact .now _ ht
  · split
    · exact .now _ ht.hostOut
    · exact .now _ ht

theorem execSessionConfig {pen ring : Nat} (hk : Keeps s0 s) : OfOut s0 wf (execSessionConfig pen ring s) := by
  unfold Machine.execSessionConfig
  refine hk.ringRunHome fun ht => ?_
  extract_lets +onlyGivenNames _
  split
  · split
    · exact .now _ ht
    · split
      · exact .now _ ht
      · exact .later ht.modSess
  · exact .now _ ht

theorem applyConfig {h : Handle} {c : RingCmd} (hk : Keeps s0 s) : Keeps s0 (s.applyConfig h c) := by
  unfold State.applyConfig
  split
  · exact hk
  · exact hk.modSess.formGroup

theorem applyConfigs {h : Handle} (hk : Keeps s0 s) : Keeps s0 (s.applyConfigs h) := by
  unfold State.applyConfigs
  split
  · exact hk
  · exact hk.modSess.foldl fun ht => ht.applyConfig

/-! ### Text commands -/

theorem countText {p : Nat} {t : TextCounts} (hk : Keeps s0 s) : Keeps s0 (s.countText p t) := by
  unfold State.countText
  exact hk.bumpPen.bumpPen.bumpPen.bumpPen

theorem execAppendText {pen ring : Nat} {text : List Byte} (hk : Keeps s0 s) :
    OfOut s0 wf (execAppendText pen ring text s) := by
  unfold Machine.execAppendText
  refine hk.ringRunHome fun ht => ?_
  extract_lets +onlyGivenNames _ _ _ _ _ _
  split
  · exact .now _ ht
  · split
    · exact .now _ ht
    · split
      · exact .now _ ht
      · refine .ite (.now _ ht) (.ite (.now _ ht) (.ite (.now _ ht) (.ite (.now _ ht) (.ite ?_ ?_))))
        · exact .now _ ht.refuseLedgerFull_fst
        · extract_lets +onlyGivenNames _ _ _ s2 s3
          have hs2 : Keeps s0 s2 := ht.countText.modSess
          have hs3 : Keeps s0 s3 := .ite hs2.formGroup (.ite hs2.formGroup hs2.formGroup)
          split
          · next answer => exact .now _ (ht.refuseGrowth _ answer)
          · exact .later hs3

theorem execAppendTokens {pen ring : Nat} {ids : List Byte} (hk : Keeps s0 s) :
    OfOut s0 wf (execAppendTokens pen ring ids s) := by
  unfold Machine.execAppendTokens
  refine hk.ringRunHome fun ht => ?_
  extract_lets +onlyGivenNames _ _ _ _
  split
  · exact .now _ ht
  · split
    · exact .now _ ht
    · refine .ite (.now _ ht) ?_
      extract_lets +onlyGivenNames _ _
      split
      · exact .now _ ht
      · refine .ite (.now _ ht) ?_
        extract_lets +onlyGivenNames _
        refine .ite (.now _ ht) (.ite (.now _ ht.refuseLedgerFull_fst) ?_)
        extract_lets +onlyGivenNames s1 _
        have hs1 : Keeps s0 s1 := ht.bumpPen.bumpPen
        refine .ite (.now _ hs1) ?_
        split
        · next answer => exact .now _ (ht.refuseGrowth _ answer)
        · exact .later hs1.formGroup

theorem execOutputPost {pen ring : Nat} (hk : Keeps s0 s) : OfOut s0 wf (execOutputPost pen ring s) := by
  unfold Machine.execOutputPost
  refine hk.ringRun fun ht => ?_
  extract_lets +onlyGivenNames _ _ _
  split
  · exact .now _ ht
  · split
    · exact .now _ ht
    · exact .ite (.now _ ht) (.ite (.now _ ht) (.ite (.later ht.awaitHandover) (.later ht.modSess.settleOutput)))

/-! ### Sending on Step Link, and the step in progress -/

theorem modStepPort {p : Nat} {f : Port → Port} (hk : Keeps s0 s) : Keeps s0 (s.modStepPort p f) := by
  unfold State.modStepPort
  exact hk.update rfl

theorem slSend {p vc cls op step : Nat} {body : List Byte} (hk : Keeps s0 s) :
    Keeps s0 (s.slSend p vc cls op step body) := by
  unfold State.slSend
  split
  · exact hk.emit.modStepPort
  · exact hk

theorem slSendAll {ports : List Nat} {vc cls op step : Nat} {body : List Byte} (hk : Keeps s0 s) :
    Keeps s0 (s.slSendAll ports vc cls op step body) := by
  unfold State.slSendAll
  exact hk.foldl fun ht => ht.slSend

theorem modRun {f : Nat} {g : StepRun → StepRun} (hk : Keeps s0 s) : Keeps s0 (s.modRun f g) := by
  unfold State.modRun
  exact hk.modFlock

theorem modPlanEntry {f i : Nat} {g : PlanEntry → PlanEntry} (hk : Keeps s0 s) : Keeps s0 (s.modPlanEntry f i g) := by
  unfold State.modPlanEntry
  exact hk.modRun

theorem bumpShep {p : Nat} {lc : Bool} {c : ShepCtr} {n : Nat} (hk : Keeps s0 s) :
    Keeps s0 (s.bumpShep p lc c n) := by
  unfold State.bumpShep
  exact hk.bumpPen

theorem sitOut {f i layer : Nat} {c : SitCause} (hk : Keeps s0 s) : Keeps s0 (s.sitOut f i layer c) := by
  unfold State.sitOut
  split
  · exact hk
  · split
    · split
      · exact hk
      · extract_lets +onlyGivenNames s1 _ s2
        have hs1 : Keeps s0 s1 := hk.modPlanEntry
        have hs2 : Keeps s0 s2 := (Keeps.ite hs1.bumpPen hs1.bumpShep)
        exact hs2.slSendAll
    · exact hk

theorem sitOutSession {h : Handle} {c : SitCause} (hk : Keeps s0 s) : Keeps s0 (s.sitOutSession h c) := by
  unfold State.sitOutSession
  split
  · exact hk
  · split
    · exact hk.sitOut
    · exact hk

/-! ### Vector indexes -/

theorem modIndex {p id : Nat} {g : Index → Index} (hk : Keeps s0 s) : Keeps s0 (s.modIndex p id g) := by
  unfold State.modIndex
  exact hk.modPen fun _ w => w

theorem execIndexCreate {mb : Mb} (hk : Keeps s0 s) : OfOut s0 wf (execIndexCreate mb s) := by
  unfold Machine.execIndexCreate
  exact hk.mbRun fun ht => ht.withPen fun _ _ => ht.unlessBad (.ite (.now _ ht) (.now _ (ht.modPen fun _ w => w)))

theorem tryDestroyIndex {p id : Nat} (hk : Keeps s0 s) : Keeps s0 (s.tryDestroyIndex p id) := by
  unfold State.tryDestroyIndex
  split
  · exact hk
  · split
    · exact hk
    · split
      · exact .mbFinish (hk.modPen fun _ w => w)
      · exact hk

theorem execIndexDestroy {mb : Mb} (hk : Keeps s0 s) : OfOut s0 wf (execIndexDestroy mb s) := by
  unfold Machine.execIndexDestroy
  exact hk.mbRun fun ht => ht.withPen fun _ _ => ht.unlessBad (.later ht.modIndex.tryDestroyIndex)

theorem execIndexInsert {pen ring : Nat} {records : List Byte} (hk : Keeps s0 s) :
    OfOut s0 wf (execIndexInsert pen ring records s) := by
  unfold Machine.execIndexInsert
  refine hk.ringRun fun ht => ?_
  extract_lets +onlyGivenNames _ _
  split
  · exact .now _ ht
  · extract_lets +onlyGivenNames _ _
    split
    · exact .now _ ht
    · split
      · exact .now _ ht
      · exact .ite (.now _ ht.modIndex.retryLater_fst)
          (.ite (.now _ ht) (.ite (.now _ ht.bumpPen) (.now _ ht.modIndex)))

theorem execIndexDelete {pen ring : Nat} {records : List Byte} (hk : Keeps s0 s) :
    OfOut s0 wf (execIndexDelete pen ring records s) := by
  unfold Machine.execIndexDelete
  refine hk.ringRun fun ht => ?_
  extract_lets +onlyGivenNames _ _
  split
  · exact .now _ ht
  · exact .ite (.now _ ht) (.ite (.now _ ht) (.now _ ht.modIndex))

theorem execIndexCommit {pen ring : Nat} (hk : Keeps s0 s) : OfOut s0 wf (execIndexCommit pen ring s) := by
  unfold Machine.execIndexCommit
  refine hk.ringRun fun ht => ?_
  extract_lets +onlyGivenNames _
  split
  · exact .now _ ht
  · exact .ite (.now _ ht) (.ite (.now _ ht) (.now _ ht.modIndex))

theorem freeGenerations {p id : Nat} (hk : Keeps s0 s) : Keeps s0 (s.freeGenerations p id) := by
  unfold State.freeGenerations
  exact hk.modIndex

theorem compact {p id : Nat} (hk : Keeps s0 s) : Keeps s0 (s.compact p id) := by
  unfold State.compact
  split
  · exact hk
  · split
    · exact hk
    · extract_lets +onlyGivenNames _ _ _
      split
      · exact hk
      · exact hk.modIndex.freeGenerations.bumpPen

theorem execCompactionTimer {p id : Nat} (hk : Keeps s0 s) : OfOut s0 wf (execCompactionTimer p id s) := by
  unfold Machine.execCompactionTimer
  split
  · exact hk.stutter
  · split
    · exact hk.stutter
    · exact .ite hk.stutter (.next hk.at_.modIndex)

theorem countSearch {p : Nat} {r : SearchResult} (hk : Keeps s0 s) : Keeps s0 (s.countSearch p r) := by
  unfold State.countSearch
  exact hk.bumpPen.bumpPen.bumpPen.bumpPen

theorem finishSearch {p id : Nat} {q : Search} (hk : Keeps s0 s) : Keeps s0 (s.finishSearch p id q) := by
  unfold State.finishSearch
  split
  · exact hk
  · extract_lets +onlyGivenNames _ s1 s2
    have hs1 : Keeps s0 s1 := hk.modIndex.countSearch
    have hs2 : Keeps s0 s2 := by
      unfold s2
      split
      · exact (Keeps.ite hs1 hs1.hostOut).complete
      · exact hs1.respond
      · exact hs1
    exact hs2.freeGenerations.tryDestroyIndex

theorem execSearch {pen ring : Nat} {query : List Byte} (hk : Keeps s0 s) :
    OfOut s0 wf (execSearch pen ring query s) := by
  unfold Machine.execSearch
  refine hk.ringRun fun ht => ?_
  extract_lets +onlyGivenNames _
  split
  · exact .now _ ht
  · split
    · exact .ite (.now _ ht.bumpPen.tryDestroyIndex) (.later ht.modIndex)
    · exact .now _ ht

theorem searchStep {p id : Nat} (hk : Keeps s0 s) : Keeps s0 (s.searchStep p id) := by
  unfold State.searchStep
  split
  · exact hk
  · extract_lets +onlyGivenNames _
    split
    · exact hk.bumpPen
    · extract_lets +onlyGivenNames s1
      have hs1 : Keeps s0 s1 := hk.modIndex
      split
      · exact hs1
      · exact hs1.foldl fun ht => ht.finishSearch

/-! ### Data faults and regrowth -/

theorem regLife_fst {h : Handle} {life : Life} (hk : Keeps s0 s) : Keeps s0 (s.regLife h life).1 := by
  unfold State.regLife
  extract_lets
  split
  · split
    · split
      · exact hk.modSess
      · split
        · next answer => exact (hk.regHere_fst.of_fst answer).modSess
        · next answer => exact hk.regHere_fst.of_fst answer
    · exact hk
  · dsimp only
    exact hk.regAway

theorem finishRegrowth {h : Handle} (hk : Keeps s0 s) : Keeps s0 (s.finishRegrowth h) := by
  unfold State.finishRegrowth
  split
  · exact hk
  · split
    · exact hk
    · extract_lets +onlyGivenNames _ _ s2
      have hs2 : Keeps s0 s2 := hk.modSess.bumpPen.bumpPen
      split
      · exact hs2.raiseParked.settleOutput
      · exact hs2

theorem endRegrowth {h : Handle} (hk : Keeps s0 s) : Keeps s0 (s.endRegrowth h) := by
  unfold State.endRegrowth
  split
  · exact hk
  · split
    · split
      · next answer => exact (hk.regLife_fst.of_fst answer).finishRegrowth
      · next answer => exact (hk.regLife_fst.of_fst answer).modSess
    · exact hk

theorem planRegrowth {h : Handle} (hk : Keeps s0 s) : Keeps s0 (s.planRegrowth h) := by
  unfold State.planRegrowth
  split
  · exact hk
  · exact hk.modSess.endRegrowth

theorem recoverFromLedger {h : Handle} (hk : Keeps s0 s) : Keeps s0 (s.recoverFromLedger h) := by
  unfold State.recoverFromLedger
  split
  · exact hk
  · split
    · exact hk.modSess.planRegrowth
    · exact hk.bumpPen.raise

theorem recover {h : Handle} {lost : Sheaf → Bool} (hk : Keeps s0 s) : Keeps s0 (s.recover h lost) := by
  unfold State.recover
  split
  · exact hk
  · split
    · exact hk.modSess.planRegrowth
    · split
      · split
        · exact hk.modSess.request
        · exact hk.recoverFromLedger
      · exact hk.recoverFromLedger

theorem enterFaulted {h : Handle} {c : FaultCause} {lost : Sheaf → Bool} (hk : Keeps s0 s) :
    Keeps s0 (s.enterFaulted h c lost) := by
  unfold State.enterFaulted
  exact hk.modSess.endLeases.bumpPen.bumpPen.raise.regLife_fst.recover

theorem faultSession {h : Handle} {c : FaultCause} {lost : Sheaf → Bool} (hk : Keeps s0 s) :
    Keeps s0 (s.faultSession h c lost) := by
  unfold State.faultSession
  split
  · exact hk
  · extract_lets +onlyGivenNames s1 s2
    have hs1 : Keeps s0 s1 := hk.abandonMovesOf.setMoving
    have hs2 : Keeps s0 s2 := by
      unfold s2
      split
      · split
        · exact hs1.withdrawOffer
        · exact hs1
      · exact hs1
    split
    · exact hs2.modSess
    · exact hs2.modSess.sitOutSession
    · extract_lets +onlyGivenNames s3
      have hs3 : Keeps s0 s3 := (Keeps.ite hs2.modSess.regLife_fst hs2)
      exact hs3.sitOutSession.recover
    · exact hs2.enterFaulted

theorem faultSheaf {owner : Handle} {layer ordinal : Nat} (hk : Keeps s0 s) :
    Keeps s0 (s.faultSheaf owner layer ordinal) := by
  unfold State.faultSheaf
  exact hk.foldl fun ht => ht.faultSession

/-! ### Moves -/

theorem abandonMove {m : Move} (hk : Keeps s0 s) : Keeps s0 (s.abandonMove m) := by
  unfold State.abandonMove
  exact hk.removeMove.bumpPen.setMoving

theorem askAgain {m : Move} {retries : Nat} {pool : Option Nat} (hk : Keeps s0 s) :
    Keeps s0 (s.askAgain m retries pool) := by
  unfold State.askAgain
  exact hk.abandonMove.queueMove.modMove

theorem askPromotion {owner : Handle} {layer ordinal : Nat} {forPlan : Option Nat} (hk : Keeps s0 s) :
    Keeps s0 (s.askPromotion owner layer ordinal forPlan) := by
  unfold State.askPromotion
  extract_lets +onlyGivenNames _ s1
  have hs1 : Keeps s0 s1 := by
    unfold s1
    split
    · split
      · exact hk.abandonMove
      · exact hk
    · exact hk
  split
  · exact hs1
  · split
    · exact hs1
    · split
      · exact hs1.modMove
      · exact hs1.queueMove

theorem promoteHot {h : Handle} {n : Nat} (hk : Keeps s0 s) : Keeps s0 (s.promoteHot h n) := by
  unfold State.promoteHot
  split
  · exact hk
  · extract_lets +onlyGivenNames s1 s2
    have hs1 : Keeps s0 s1 := (hk.foldl fun ht => ht.abandonMove)
    have hs2 : Keeps s0 s2 := (Keeps.ite hs1 hs1.queueMove)
    exact hs2.foldl fun ht => ht.askPromotion

theorem promoteSession {h : Handle} (hk : Keeps s0 s) : Keeps s0 (s.promoteSession h) := by
  unfold State.promoteSession
  split
  · exact hk.promoteHot
  · exact hk.promoteHot

theorem execParkedDemote {h : Handle} (hk : Keeps s0 s) : OfOut s0 wf (execParkedDemote h s) := by
  unfold Machine.execParkedDemote
  split
  · exact hk.stutter
  · exact .ite (.next hk.at_.queueChosen) hk.stutter

theorem readExtent {m : Move} {node off n : Nat} (hk : Keeps s0 s) : Keeps s0 (s.readExtent m node off n) := by
  unfold State.readExtent
  exact hk.foldl fun ht => ht.request

theorem allocAtPool {m : Move} {node n : Nat} (hk : Keeps s0 s) : Keeps s0 (s.allocAtPool m node n) := by
  unfold State.allocAtPool
  split
  · exact hk
  · exact hk.modMove.request

theorem beginPass {m : Move} {drover : Nat} (hk : Keeps s0 s) : Keeps s0 (s.beginPass m drover) := by
  unfold State.beginPass
  extract_lets +onlyGivenNames _ _ s1
  have hs1 : Keeps s0 s1 := hk.modMove
  split
  · exact hs1.modMove.readExtent
  · exact hs1

theorem divert {m : Move} (hk : Keeps s0 s) : Keeps s0 (s.divert m) := by
  unfold State.divert
  split
  · exact hk.setMoves.foldl fun ht => ht.queueMove
  · exact hk.modMove

theorem waitForGroup {m : Move} (hk : Keeps s0 s) : Keeps s0 (s.waitForGroup m) := by
  unfold State.waitForGroup
  split
  · exact hk
  · exact hk.modMove.bumpPen

theorem startMove {m : Move} {drover : Nat} (hk : Keeps s0 s) : Keeps s0 (s.startMove m drover) := by
  unfold State.startMove
  extract_lets +onlyGivenNames _ _ _
  split
  · exact .ite hk.beginPass hk.demoteFor
  · split
    · split
      · exact hk.waitForGroup
      · next found => exact Keeps.beginPass (hk.newRuns _ found).modMove
    · exact .ite hk.divert hk.abandonMove
  · split
    · split
      · extract_lets s1
        have hs1 : Keeps s0 s1 := hk.beginPass
        split
        · exact hs1.allocAtPool
        · exact hs1
      · exact hk.abandonMove
    · exact hk.abandonMove

theorem execMoveStart {mv drover : Nat} (hw : wf → ¬16 ≤ drover) (hk : Keeps s0 s) :
    OfOut s0 wf (execMoveStart mv drover s) := by
  unfold Machine.execMoveStart
  refine .guard hw ?_
  split
  · exact hk.stutter
  · exact .ite hk.stutter (.ite (.next hk.askWake) (.next hk.startMove))

theorem countMove {m : Move} {n : Nat} (hk : Keeps s0 s) : Keeps s0 (s.countMove m n) := by
  unfold State.countMove
  exact hk.bumpPen.bumpPen

theorem moveDone {m : Move} {n : Nat} (hk : Keeps s0 s) : Keeps s0 (s.moveDone m n) := by
  unfold State.moveDone
  exact hk.modMove.countMove.setMoving

theorem commitSession {m : Move} {h : Handle} {l : Layout} (hk : Keeps s0 s) : Keeps s0 (s.commitSession m h l) := by
  unfold State.commitSession
  exact hk.modSess.modEntry.moveDone

theorem commitSheaves {m : Move} {l : Layout} (hk : Keeps s0 s) : Keeps s0 (s.commitSheaves m l) := by
  unfold State.commitSheaves
  extract_lets +onlyGivenNames _ _
  split
  · exact hk.abandonMove
  · split
    · exact hk.modMove
    · exact (hk.foldl fun ht => ht.modSess).moveDone

theorem commitMove {m : Move} (hk : Keeps s0 s) : Keeps s0 (s.commitMove m) := by
  unfold State.commitMove
  split
  · exact hk.abandonMove
  · split
    · exact hk.commitSession
    · exact hk.commitSheaves

theorem retryCommits (hk : Keeps s0 s) : Keeps s0 s.retryCommits := by
  unfold State.retryCommits
  exact hk.foldl fun ht => ht.commitMove

theorem ageCommits (hk : Keeps s0 s) : Keeps s0 s.ageCommits := by
  unfold State.ageCommits
  exact hk.foldl fun ht => (Keeps.ite ht.abandonMove ht.modMove)

theorem readSubject {m : Move} (hk : Keeps s0 s) : Keeps s0 (s.readSubject m) := by
  unfold State.readSubject
  split
  · exact hk
  · extract_lets +onlyGivenNames s1
    have hs1 : Keeps s0 s1 := by
      unfold s1
      split
      · split
        · exact hk.readPages
        · exact hk
      · exact hk
    exact hs1.foldl fun ht => ht.readRun

theorem countTagFail {a : Tier} (hk : Keeps s0 s) : Keeps s0 (s.countTagFail a) := by
  unfold State.countTagFail
  split
  · exact hk.bumpDev
  · exact hk.bumpDev
  · exact hk

theorem sourceFails {m : Move} {place : Nat} (hk : Keeps s0 s) : Keeps s0 (s.sourceFails m place) := by
  unfold State.sourceFails
  extract_lets +onlyGivenNames s1
  have hs1 : Keeps s0 s1 := hk.bumpPen.countTagFail.abandonMove
  split
  · exact hs1.faultSession
  · split
    · exact hs1.faultSheaf
    · exact hs1

theorem writeFails {m : Move} (hk : Keeps s0 s) : Keeps s0 (s.writeFails m) := by
  unfold State.writeFails
  split
  · exact hk.abandonMove
  · exact hk.askAgain

theorem passEnd {m : Move} {how : PassEnd} (hk : Keeps s0 s) : Keeps s0 (s.passEnd m how) := by
  unfold State.passEnd
  split
  · exact hk.readSubject.commitMove
  · exact hk.sourceFails
  · exact hk.writeFails
  · exact hk.bumpPen.countTagFail.writeFails

theorem checkDrained {node : Nat} (hk : Keeps s0 s) : Keeps s0 (s.checkDrained node) := by
  unfold State.checkDrained
  split
  · exact hk.raise
  · exact hk

theorem freeSource {m : Move} (hk : Keeps s0 s) : Keeps s0 (s.freeSource m) := by
  unfold State.freeSource
  extract_lets +onlyGivenNames s1
  have hs1 : Keeps s0 s1 := .setMoving (hk.update rfl)
  split
  · exact hs1.freeExtent
  · exact hs1

theorem wantAgain {m : Move} (hk : Keeps s0 s) : Keeps s0 (s.wantAgain m) := by
  unfold State.wantAgain
  split
  · exact hk
  · extract_lets +onlyGivenNames _ s1
    have hs1 : Keeps s0 s1 := (hk.foldl fun ht => (ht.foldl fun ht' => (Keeps.ite ht'.askPromotion ht')))
    split
    · split
      · exact hs1.promoteSession
      · exact hs1
    · exact hs1

theorem execMoveFree {mv : Nat} (hk : Keeps s0 s) : OfOut s0 wf (execMoveFree mv s) := by
  unfold Machine.execMoveFree
  split
  · exact hk.stutter
  · exact .ite hk.stutter (.next hk.freeSource.wantAgain.reap)

/-! ### Leases -/

theorem modLease {f id : Nat} {g : Lease → Lease} (hk : Keeps s0 s) : Keeps s0 (s.modLease f id g) := by
  unfold State.modLease
  exact hk.modFlock

theorem dropLease {f : Nat} {l : Lease} (hk : Keeps s0 s) : Keeps s0 (s.dropLease f l) := by
  unfold State.dropLease
  exact hk.modFlock.foldl fun ht => ht.dropRef

theorem reclaimLease {f id port : Nat} (hk : Keeps s0 s) : Keeps s0 (s.reclaimLease f id port) := by
  unfold State.reclaimLease
  split
  · exact hk
  · extract_lets +onlyGivenNames _ s1
    have hs1 : Keeps s0 s1 := hk.modLease
    split
    · exact hs1.dropLease
    · exact hs1

theorem cancelLease {f id : Nat} (hk : Keeps s0 s) : Keeps s0 (s.cancelLease f id) := by
  unfold State.cancelLease
  split
  · exact hk
  · split
    · exact hk
    · extract_lets +onlyGivenNames _ _ s1
      have hs1 : Keeps s0 s1 := hk.modLease.slSendAll
      split
      · exact hs1.dropLease
      · exact hs1

theorem cancelLeases {f : Nat} {p : Lease → Bool} (hk : Keeps s0 s) : Keeps s0 (s.cancelLeases f p) := by
  unfold State.cancelLeases
  exact hk.foldl fun ht => ht.cancelLease

theorem clearLeases {f : Nat} (hk : Keeps s0 s) : Keeps s0 (s.clearLeases f) := by
  unfold State.clearLeases
  exact hk.foldl fun ht => ht.dropLease

theorem cancelSessionLeases {h : Handle} (hk : Keeps s0 s) : Keeps s0 (s.cancelSessionLeases h) := by
  unfold State.cancelSessionLeases
  exact hk.foldl fun ht => ht.cancelLeases

theorem streamTo {f : Nat} {ls : Lease} {l : Layout} {x : Sheaf} {slot first n port : Nat}
    (hk : Keeps s0 s) : Keeps s0 (s.streamTo f ls l x slot first n port) := by
  unfold State.streamTo
  exact hk.slSend.modStepPort.modLease

theorem stream {f : Nat} {ls : Lease} {l : Layout} {x : Sheaf} {slot first n : Nat} (hk : Keeps s0 s) :
    Keeps s0 (s.stream f ls l x slot first n) := by
  unfold State.stream
  split
  · exact hk
  · exact hk.foldl fun ht => ht.streamTo

theorem grantLease {f : Nat} {h : Handle} {n wrap : Nat} {speculative : Bool} {issue : Nat} (hk : Keeps s0 s) :
    ∀ t, s.grantLease f h n wrap speculative issue = some t → Keeps s0 t := by
  intro t granted
  unfold State.grantLease at granted
  dsimp only at granted
  split at granted
  · split at granted
    · cases granted
    · split at granted
      · split at granted
        · cases granted
        · injection granted with granted
          rw [← granted]
          refine .foldl ?_ fun ht => ?_
          · exact .slSendAll (.foldl hk.modFlock fun ht => ht.addRef)
          · split
            · exact ht.stream
            · exact ht
      · cases granted
  · cases granted

/-! ### Attention -/

theorem sendPartials {step i ly kind : Nat} {ps : List Partial} {rows : List (Nat × Nat × List Byte)}
    (hk : Keeps s0 s) : Keeps s0 (s.sendPartials step i ly kind ps rows) := by
  unfold State.sendPartials
  split
  · exact hk
  · exact hk.slSend

theorem countFallback {ls : Lease} {x : Session} {h : Handle} {ly rows : Nat} (hk : Keeps s0 s) :
    Keeps s0 (s.countFallback ls x h ly rows) := by
  unfold State.countFallback
  exact hk.bumpPen.bumpPen

theorem deliver {f i ly : Nat} (hk : Keeps s0 s) : Keeps s0 (s.deliver f i ly) := by
  unfold State.deliver
  split
  · split
    · split
      · exact hk
      · extract_lets +onlyGivenNames _ _ _
        split
        · exact hk
        · extract_lets +onlyGivenNames _ _ _ _ ls s1 s2 _ s3
          have hs1 : Keeps s0 s1 := by
            refine .foldl ?_ fun ht => ?_
            · cases ls with
              | none => exact hk
              | some q => exact hk.countFallback
            · cases ls with
              | none => exact ht.sendPartials
              | some q => exact ht.sendPartials.sendPartials
          have hs2 : Keeps s0 s2 := hs1.modPlanEntry
          have hs3 : Keeps s0 s3 := .ite hs2 hs2.bumpPen
          exact hs3.bumpPen.bumpPen.bumpPen
    · exact hk
  · exact hk

theorem deliverLayer {f ly : Nat} (hk : Keeps s0 s) : Keeps s0 (s.deliverLayer f ly) := by
  unfold State.deliverLayer
  split
  · exact hk
  · exact hk.foldl fun ht => ht.deliver

/-! ### Timing -/

theorem claim {f ly n : Nat} (hk : Keeps s0 s) : Keeps s0 (s.claim f ly n) := by
  unfold State.claim
  exact hk.modRun

/-! ### Plans -/

theorem buildPlan_snd {f n : Nat} {k : Flock} {l : Layout} {table : List LayerTiming} (hk : Keeps s0 s) :
    Keeps s0 (s.buildPlan f n k l table).2 := by
  unfold State.buildPlan
  extract_lets
  exact .setIdent (.grant_snd hk.setHearth)

/-! ### Delivering a plan -/

theorem tryJoin {f : Nat} (hk : Keeps s0 s) : Keeps s0 (s.tryJoin f) := by
  unfold State.tryJoin
  split
  · exact hk
  · split
    · exact hk
    · split
      · exact hk.foldl fun ht => ht.slSend.modStepPort
      · exact hk

theorem rejoin {f : Nat} (hk : Keeps s0 s) : Keeps s0 (s.rejoin f) := by
  unfold State.rejoin
  split
  · exact hk
  · exact (hk.foldl fun ht => ht.modStepPort).tryJoin

theorem preempt {h : Handle} {c : PreCause} (hk : Keeps s0 s) : Keeps s0 (s.preempt h c) := by
  unfold State.preempt
  split
  · exact hk
  · exact hk.modSess.bumpShep

theorem unbindAll {f : Nat} (hk : Keeps s0 s) : Keeps s0 (s.unbindAll f) := by
  unfold State.unbindAll
  exact hk.update rfl

theorem leaseSealed {f : Nat} {ls : Lease} {x : Session} (hk : Keeps s0 s) : Keeps s0 (s.leaseSealed f ls x) := by
  unfold State.leaseSealed
  exact hk.modLease.foldl fun ht => ht.addRef

theorem extendLease {f : Nat} {k : Flock} {l : Layout} {ls : Lease} {x : Session} (hk : Keeps s0 s) :
    Keeps s0 (s.extendLease f k l ls x) := by
  unfold State.extendLease
  extract_lets +onlyGivenNames _
  split
  · exact hk
  · extract_lets +onlyGivenNames _
    split
    · exact hk.cancelLease
    · extract_lets +onlyGivenNames _ _ s1
      have hs1 : Keeps s0 s1 := hk.modLease
      split
      · exact hs1.slSendAll
      · exact hs1

theorem streamGained {f : Nat} {k : Flock} {l : Layout} {ls : Lease} {x : Session} (hk : Keeps s0 s) :
    Keeps s0 (s.streamGained f k l ls x) := by
  unfold State.streamGained
  extract_lets +onlyGivenNames s1
  have hs1 : Keeps s0 s1 := by
    unfold s1
    refine hk.foldl fun ht => ?_
    split
    · exact ht.stream
    · exact ht
  exact hs1.modLease

theorem growLease {f : Nat} {h : Handle} (hk : Keeps s0 s) : Keeps s0 (s.growLease f h) := by
  unfold State.growLease
  split
  · split
    · exact hk
    · split
      · exact hk
      · extract_lets +onlyGivenNames s1
        have hs1 : Keeps s0 s1 := hk.leaseSealed.extendLease
        split
        · split
          · exact hs1
          · exact hs1.leaseSealed.streamGained
        · exact hs1
  · exact hk

theorem cancelStaged {f : Nat} {l : Lease} (hk : Keeps s0 s) : Keeps s0 (s.cancelStaged f l) := by
  unfold State.cancelStaged
  extract_lets +onlyGivenNames s1
  have hs1 : Keeps s0 s1 := hk.cancelLease
  split
  · exact hs1.bumpShep
  · exact hs1

theorem expireStaged {f : Nat} (hk : Keeps s0 s) : Keeps s0 (s.expireStaged f) := by
  unfold State.expireStaged
  split
  · exact hk
  · exact hk.foldl fun ht => ht.cancelStaged

theorem makeRoom {f n fuel : Nat} (hk : Keeps s0 s) : Keeps s0 (s.makeRoom f n fuel) := by
  induction fuel generalizing s with
  | zero => exact hk
  | succ fuel ih =>
    unfold State.makeRoom
    split
    · exact hk
    · extract_lets
      split
      · exact hk
      · split
        · exact ih hk.cancelStaged
        · exact hk

theorem grantPlanned {f step : Nat} {h : Handle} (hk : Keeps s0 s) : Keeps s0 (s.grantPlanned f step h) := by
  unfold State.grantPlanned
  split
  · split
    · exact hk
    · extract_lets
      split
      · next granted => exact hk.grantLease _ granted
      · exact .ite hk.makeRoom hk
  · exact hk

theorem restream {f : Nat} {h : Handle} (hk : Keeps s0 s) : Keeps s0 (s.restream f h) := by
  unfold State.restream
  split
  · refine hk.modLease.foldl fun ht => ?_
    split
    · exact ht.stream
    · exact ht
  · exact hk

theorem recordPreemptions {k : Flock} {reconfigured : Bool} {p : Option Plan} {kept ran : List Handle}
    (hk : Keeps s0 s) : Keeps s0 (s.recordPreemptions k reconfigured p kept ran) := by
  unfold State.recordPreemptions
  exact hk.foldl fun ht => ht.preempt

theorem deliverPlan {f : Nat} (hk : Keeps s0 s) : Keeps s0 (s.deliverPlan f) := by
  unfold State.deliverPlan
  split
  · exact hk
  · split
    · split
      · exact hk
      · extract_lets +onlyGivenNames _ s1 named again s3 _ _ _
        have hs1 : Keeps s0 s1 := by
          unfold s1
          refine hk.foldl fun ht => ?_
          split
          · split
            · exact ht.cancelStaged
            · exact ht
          · exact ht
        have hnamed : Keeps s0 named := by
          unfold named
          refine hs1.foldl fun ht => ?_
          split
          · exact ht.modLease
          · exact ht
        have hagain : Keeps s0 again := (Keeps.ite (hnamed.foldl fun ht => (Keeps.ite ht.restream ht)) hnamed)
        have hs3 : Keeps s0 s3 := (hagain.foldl fun ht => ht.grantPlanned)
        split
        · exact hs3.modFlock.dropGrant
        · extract_lets +onlyGivenNames s4 _ _
          have hs4 : Keeps s0 s4 := (hs3.foldl fun ht => ht.modSess.bumpShep)
          exact hs4.modFlock.slSendAll.slSendAll
    · exact hk

/-! ### The end of a step -/

theorem regrowRecord {h : Handle} {l : Layout} {ly q : Nat} {rec_ : List Byte} (hk : Keeps s0 s) :
    Keeps s0 (s.regrowRecord h l ly q rec_) := by
  unfold State.regrowRecord
  split
  · exact hk
  · split
    · split
      · exact hk.modSess
      · exact hk
    · exact hk.modSess

theorem landRegrow {h : Handle} {l : Layout} {e : PlanEntry} (hk : Keeps s0 s) : Keeps s0 (s.landRegrow h l e) := by
  unfold State.landRegrow
  extract_lets +onlyGivenNames s1 _
  have hs1 : Keeps s0 s1 := by
    unfold s1
    refine hk.modSess.foldl fun ht => ?_
    refine ht.foldl fun ht' => ?_
    split
    · exact ht'.regrowRecord
    · exact ht'
  exact hs1.modSess.bumpPen.planRegrowth

theorem formTokens {e : PlanEntry} (hk : Keeps s0 s) : Keeps s0 (s.formTokens e) := by
  unfold State.formTokens
  split
  · split
    · exact hk.formGroup
    · exact hk
  · exact hk

theorem placeDeferred {h : Handle} (hk : Keeps s0 s) : Keeps s0 (s.placeDeferred h) := by
  unfold State.placeDeferred
  split
  · exact hk
  · exact hk.foldl fun ht => ht.formGroup

theorem parkOrGoOn {h : Handle} {c : ParkCause} (hk : Keeps s0 s) : Keeps s0 (s.parkOrGoOn h c) := by
  unfold State.parkOrGoOn
  split
  · exact hk
  · split
    · exact hk.modSess.placeDeferred
    · exact hk.modSess.raiseParked

theorem applyDeferred {hs : List Handle} (hk : Keeps s0 s) : Keeps s0 (s.applyDeferred hs) := by
  unfold State.applyDeferred
  exact (hk.foldl fun ht => ht.modSess).foldl fun ht => ht.takeTurn

theorem afterTransition {h : Handle} (hk : Keeps s0 s) : Keeps s0 (s.afterTransition h) := by
  unfold State.afterTransition
  extract_lets +onlyGivenNames _ _ s2
  have hs2 : Keeps s0 s2 := hk.applyConfigs.settleOutput
  split
  · split
    · exact hs2
    · exact hs2.cancelSessionLeases
  · exact hs2.cancelSessionLeases

theorem sendHandoff {h : Handle} {data : List Byte} (hk : Keeps s0 s) : Keeps s0 (s.sendHandoff h data) := by
  unfold State.sendHandoff
  split
  · exact hk
  · extract_lets +onlyGivenNames s1
    have hs1 : Keeps s0 s1 := (hk.foldl fun ht => ht.request)
    exact hs1.modSess

theorem sendOrFallBack {h : Handle} {hd : Handover} {data : List Byte} (hk : Keeps s0 s) :
    Keeps s0 (s.sendOrFallBack h hd data) := by
  unfold State.sendOrFallBack
  split
  · exact hk.sendHandoff
  · exact hk.withdrawOffer

theorem sendSnapshot {h : Handle} (hk : Keeps s0 s) : Keeps s0 (s.sendSnapshot h) := by
  unfold State.sendSnapshot
  split
  · exact hk
  · split
    · exact hk
    · split
      · exact hk
      · exact hk.modSess.sendOrFallBack

theorem sendFinal {h : Handle} {held : List Byte} {park : Option ParkCause} (hk : Keeps s0 s) :
    Keeps s0 (s.sendFinal h held park) := by
  unfold State.sendFinal
  split
  · exact hk
  · split
    · exact hk
    · split
      · exact hk
      · exact hk.modSess.sendOrFallBack

theorem handoverStep {h : Handle} (hk : Keeps s0 s) : Keeps s0 (s.handoverStep h) := by
  unfold State.handoverStep
  extract_lets +onlyGivenNames s1
  have hs1 : Keeps s0 s1 := hk.sendSnapshot
  split
  · exact hs1
  · split
    · exact hs1
    · exact hs1.sendFinal

theorem freeHanded {h : Handle} {dest version : Nat} (hk : Keeps s0 s) : Keeps s0 (s.freeHanded h dest version) := by
  unfold State.freeHanded
  split
  · exact hk
  · extract_lets +onlyGivenNames _ _ s1 _ s2 _ s5 _ _ s6
    have hs1 : Keeps s0 s1 := (hk.foldl fun ht => ht.complete)
    have hs2 : Keeps s0 s2 := (hs1.foldl fun ht => ht.bumpPen.complete)
    have hs5 : Keeps s0 s5 := .setMoving (hs2.cancelSessionLeases.bumpPen.update rfl)
    have hs6 : Keeps s0 s6 := (Keeps.ite (hs5.update rfl) hs5)
    split
    · exact hs6.request
    · exact hs6

theorem faultAtBoundary {h : Handle} {c : FaultCause} (hk : Keeps s0 s) : Keeps s0 (s.faultAtBoundary h c) := by
  unfold State.faultAtBoundary
  exact hk.modSess.enterFaulted

theorem finishEntry {l : Layout} {e : PlanEntry} (hk : Keeps s0 s) : Keeps s0 (s.finishEntry l e) := by
  unfold State.finishEntry
  extract_lets +onlyGivenNames _
  split
  · exact hk
  · split
    · split
      · exact hk
      · split
        · exact hk.modSess
        · split
          · exact hk.landRegrow
          · exact hk
    · split
      · exact hk
      · split
        · exact hk.faultAtBoundary.modSess
        · split
          · exact hk.modSess
          · extract_lets +onlyGivenNames s1 s2
            have hs1 : Keeps s0 s1 := hk.modSess
            have hs2 : Keeps s0 s2 := by
              unfold s2
              split
              · exact hs1.raise
              · exact hs1
            split
            · exact hs2.parkOrGoOn
            · exact hs2

theorem offerEntry {l : Layout} {e : PlanEntry} (hk : Keeps s0 s) : Keeps s0 (s.offerEntry l e) := by
  unfold State.offerEntry
  extract_lets +onlyGivenNames _
  split
  · exact hk
  · split
    · exact hk
    · split
      · exact hk
      · extract_lets +onlyGivenNames _
        split
        · exact hk.withdrawOffer
        · exact hk.sendFinal

theorem leaveEntry {l : Layout} {e : PlanEntry} (hk : Keeps s0 s) : Keeps s0 (s.leaveEntry l e) := by
  unfold State.leaveEntry
  extract_lets +onlyGivenNames _
  split
  · exact hk
  · split
    · exact hk
    · split
      · exact hk
      · extract_lets +onlyGivenNames s1
        have hs1 : Keeps s0 s1 := by
          unfold s1
          split
          · exact hk.raiseParked
          · exact hk
        exact hs1.freeHanded

theorem unanchorAll {f : Nat} (hk : Keeps s0 s) : Keeps s0 (s.unanchorAll f) := by
  unfold State.unanchorAll
  exact hk.update rfl

theorem finishDestroy {f : Nat} {ran : List Handle} (hk : Keeps s0 s) : Keeps s0 (s.finishDestroy f ran) := by
  unfold State.finishDestroy
  split
  · exact hk
  · split
    · exact hk
    · extract_lets +onlyGivenNames s1 s2 s3 _ _ s6
      have hs1 : Keeps s0 s1 := (hk.foldl fun ht => ht.mbFinish)
      have hs2 : Keeps s0 s2 := (hs1.foldl fun ht => ht.mbFinish)
      have hs3 : Keeps s0 s3 := (hs2.foldl fun ht => ht.preempt)
      have hs6 : Keeps s0 s6 := (hs3.cancelLeases.clearLeases.unbindAll.unanchorAll.foldl fun ht => ht.modStepPort)
      exact .mbFinish (.dropGrant (hs6.update rfl))

theorem sketchForked {h : Handle} (hk : Keeps s0 s) : Keeps s0 (s.sketchForked h) := by
  unfold State.sketchForked
  split
  · extract_lets +onlyGivenNames _
    split
    · exact hk.modSess
    · exact hk
  · exact hk

theorem applyParams {f : Nat} {p : PlanParams} (hk : Keeps s0 s) : Keeps s0 (s.applyParams f p) := by
  unfold State.applyParams
  split
  · exact hk
  · extract_lets +onlyGivenNames s1 s2
    have hs1 : Keeps s0 s1 := hk.modFlock.dropGrant
    have hs2 : Keeps s0 s2 := (Keeps.ite hs1.cancelLeases.unbindAll (Keeps.ite hs1.cancelLeases hs1))
    split
    · exact hs2.rejoin
    · exact hs2.tryJoin

theorem anchor {f : Nat} {h : Handle} {on : Bool} (hk : Keeps s0 s) : Keeps s0 (s.anchor f h on) := by
  unfold State.anchor
  exact hk.modSess

theorem settleIdle {f : Nat} (hk : Keeps s0 s) : Keeps s0 (s.settleIdle f) := by
  unfold State.settleIdle
  split
  · exact hk
  · split
    · exact hk
    · extract_lets +onlyGivenNames _ s1
      have hs1 : Keeps s0 s1 := (hk.modFlock.foldl fun ht => ht.applyParams.mbFinish)
      exact hs1.foldl fun ht => ht.anchor.mbFinish

theorem dropAttends {f : Nat} (hk : Keeps s0 s) : Keeps s0 (s.dropAttends f) := by
  unfold State.dropAttends
  exact hk.update rfl

theorem captureSession {h : Handle} (hk : Keeps s0 s) : Keeps s0 (s.captureSession h) := by
  unfold State.captureSession
  split
  · split
    · exact hk
    · exact hk.modSess.setHarvest.bumpPen
  · exact hk

theorem countStall {f i len : Nat} (hk : Keeps s0 s) : Keeps s0 (s.countStall f i len) := by
  unfold State.countStall
  split
  · exact hk.modRun.bumpShep.bumpShep.foldl fun ht => ht.bumpShep
  · exact hk

theorem endStall {f : Nat} (hk : Keeps s0 s) : Keeps s0 (s.endStall f) := by
  unfold State.endStall
  split
  · exact hk.countStall
  · exact hk

theorem leaveCut {e : PlanEntry} {c : PreCause} (hk : Keeps s0 s) : Keeps s0 (s.leaveCut e c) := by
  unfold State.leaveCut
  extract_lets +onlyGivenNames _
  split
  · exact hk
  · extract_lets +onlyGivenNames _
    split
    · split
      · exact hk.modSess
      · exact hk
    · split
      · exact hk
      · extract_lets +onlyGivenNames s1
        have hs1 : Keeps s0 s1 := (Keeps.ite hk.modSess hk)
        split
        · exact hs1.faultAtBoundary
        · extract_lets +onlyGivenNames s2
          have hs2 : Keeps s0 s2 := by
            unfold s2
            split
            · split
              · exact hs1.freeHanded
              · split
                · exact hs1.withdrawOffer
                · exact hs1
            · exact hs1
          split
          · exact hs2
          · exact hs2.modSess.preempt

theorem cutStep {f : Nat} {thermal : Bool} (hk : Keeps s0 s) : Keeps s0 (s.cutStep f thermal) := by
  unfold State.cutStep
  split
  · exact hk
  · extract_lets +onlyGivenNames _ _ _ _ s0' s1 _ _ _ s3 s4 _ s5
    have hs0' : Keeps s0 s0' := (Keeps.ite hk hk.endStall)
    have hs1 : Keeps s0 s1 := by
      unfold s1
      split
      · exact hs0'.slSendAll
      · exact hs0'.slSendAll
      · exact hs0'
    have hs3 : Keeps s0 s3 := ((hs1.modFlock.foldl fun ht => ht.leaveCut).applyDeferred.foldl fun ht =>
        ht.afterTransition)
    have hs4 : Keeps s0 s4 := hs3.dropGrant.dropAttends
    have hs5 : Keeps s0 s5 := (Keeps.ite hs4.modFlock hs4)
    split
    · exact hs5.retryCommits
    · exact hs5.retryCommits.finishDestroy.settleIdle

theorem cutThermal {f : Nat} (hk : Keeps s0 s) : Keeps s0 (s.cutThermal f) := by
  unfold State.cutThermal
  exact hk.cutStep.raise.update rfl

theorem abandonStep {f : Nat} (hk : Keeps s0 s) : Keeps s0 (s.abandonStep f) := by
  unfold State.abandonStep
  split
  · exact hk
  · extract_lets +onlyGivenNames _ _ _ s3
    have hs3 : Keeps s0 s3 := hk.cutStep.slSendAll.modFlock
    split
    · exact hs3
    · exact hs3.raise

/-! ### Flocks and their steps -/

theorem startPort {p : Nat} (hk : Keeps s0 s) : Keeps s0 (s.startPort p) := by
  unfold State.startPort
  split
  · exact hk.askWake.modStepPort
  · exact hk

theorem execFlockCreate {mb : Mb} (hk : Keeps s0 s) : OfOut s0 wf (execFlockCreate mb s) := by
  unfold Machine.execFlockCreate
  refine hk.mbRun fun ht => ht.unlessBad (.ite (.now _ ht) (.now _ ?_))
  exact ht.setFlocks.foldl fun ht' => ht'.startPort

theorem execFlockDestroy {mb : Mb} (hk : Keeps s0 s) : OfOut s0 wf (execFlockDestroy mb s) := by
  unfold Machine.execFlockDestroy
  refine hk.mbRun fun ht => ?_
  extract_lets +onlyGivenNames _
  split
  · exact .now _ ht
  · extract_lets +onlyGivenNames s1
    have hs1 : Keeps s0 s1 := ht.modFlock
    exact .ite (.later hs1) (.later hs1.modFlock.finishDestroy)

theorem execFlockPlanConfig {mb : Mb} (hk : Keeps s0 s) : OfOut s0 wf (execFlockPlanConfig mb s) := by
  unfold Machine.execFlockPlanConfig
  refine hk.mbRun fun ht => ?_
  extract_lets +onlyGivenNames _ _ _
  refine ht.unlessBad ?_
  split
  · exact .now _ ht
  · exact .ite (.later ht.modFlock) (.now _ ht.applyParams)

theorem execAnchorSet {mb : Mb} (hk : Keeps s0 s) : OfOut s0 wf (execAnchorSet mb s) := by
  unfold Machine.execAnchorSet
  refine hk.mbRun fun ht => ?_
  extract_lets +onlyGivenNames _ _ _
  split
  · exact .now _ ht
  · refine ht.unlessBad ?_
    extract_lets +onlyGivenNames _
    split
    · exact .now _ ht
    · split
      · exact .now _ ht
      · split
        · exact .ite (.later ht.modFlock) (.now _ ht.anchor)
        · exact .now _ ht.anchor

theorem stageIn {f : Nat} {h : Handle} (hk : Keeps s0 s) : Keeps s0 (s.stageIn f h) := by
  unfold State.stageIn
  split
  · split
    · exact hk
    · extract_lets
      split
      · exact hk.promoteHot.modFlock
      · split
        · exact hk
        · split
          · next granted => exact hk.grantLease _ granted
          · exact hk.modFlock
  · exact hk

theorem restage {f : Nat} (hk : Keeps s0 s) : Keeps s0 (s.restage f) := by
  unfold State.restage
  split
  · exact hk
  · refine hk.modFlock.foldl fun ht => ?_
    split
    · split
      · exact ht.stageIn
      · exact ht
    · exact ht

theorem runnableSteps {h : Handle} (hk : Keeps s0 s) : Keeps s0 (s.runnableSteps h) := by
  unfold State.runnableSteps
  split
  · exact hk
  · split
    · exact hk
    · extract_lets +onlyGivenNames s1
      have hs1 : Keeps s0 s1 := hk.promoteSession
      split
      · exact hs1.stageIn
      · exact hs1

theorem execLeaseStage {pen ring : Nat} (hk : Keeps s0 s) : OfOut s0 wf (execLeaseStage pen ring s) := by
  unfold Machine.execLeaseStage
  refine hk.ringRun fun ht => ?_
  extract_lets +onlyGivenNames _ _
  split
  · exact .now _ ht
  · exact .ite (.now _ ht) (.ite (.now _ ht) (.now _ ht.stageIn))

theorem applyPending {f : Nat} (hk : Keeps s0 s) : Keeps s0 (s.applyPending f) := by
  unfold State.applyPending
  split
  · exact hk
  · extract_lets +onlyGivenNames s1 s2 _
    have hs1 : Keeps s0 s1 := (hk.foldl fun ht => ht.modFlock.mbFinish)
    have hs2 : Keeps s0 s2 := (hs1.foldl fun ht => ht.anchor.mbFinish)
    exact hs2.modFlock

theorem waitOnTiers {k : Flock} {l : Layout} {p : Plan} (hk : Keeps s0 s) : Keeps s0 (s.waitOnTiers k l p) := by
  unfold State.waitOnTiers
  refine hk.foldl fun ht => ?_
  split
  · exact ht
  · split
    · exact ht.demoteFor
    · split
      · exact ht.promoteHot
      · exact ht.promoteSession

theorem takeSnapshot {f : Nat} {table : List LayerTiming} (hk : Keeps s0 s) :
    ∀ t, s.takeSnapshot f table = some t → Keeps s0 t := by
  intro t taken
  unfold State.takeSnapshot at taken
  extract_lets +onlyGivenNames s1 at taken
  have hs1 : Keeps s0 s1 := hk.applyPending
  clear_value s1
  split at taken
  · cases taken
  · extract_lets +onlyGivenNames built at taken
    have hbuilt : ∀ {t}, Keeps s0 t → Keeps s0 (built t) := fun ht => ht.modRun
    split at taken
    · injection taken with taken
      rw [← taken]
      exact hbuilt hs1
    · split at taken
      · cases taken
      · split at taken
        · cases taken
        · extract_lets +onlyGivenNames b s2 at taken
          have hs2 : Keeps s0 s2 := (hbuilt hs1.buildPlan_snd).waitOnTiers
          clear_value b s2
          split at taken
          · cases taken
          · split at taken
            · injection taken with taken
              rw [← taken]
              exact hs2.dropGrant
            · injection taken with taken
              rw [← taken]
              exact (hs2.modFlock.foldl fun ht => ht.askPromotion).askWakes

theorem execSnapshot {f : Nat} {table : List LayerTiming} (hw : wf → ¬8 ≤ f) (hk : Keeps s0 s) :
    OfOut s0 wf (execSnapshot f table s) := by
  unfold Machine.execSnapshot
  refine .guard hw ?_
  split
  · exact hk.stutter
  · refine .ite hk.stutter ?_
    split
    · refine .ite hk.stutter ?_
      split
      · next taken => exact .next (hk.at_.takeSnapshot _ taken)
      · exact hk.stutter
    · refine .ite ?_ hk.stutter
      split
      · next taken => exact .next (Keeps.modFlock (hk.at_.takeSnapshot _ taken)).deliverPlan
      · exact hk.stutter

theorem beginEntry {ran : List Handle} {e : PlanEntry} (hk : Keeps s0 s) : Keeps s0 (s.beginEntry ran e) := by
  unfold State.beginEntry
  split
  · exact hk
  · extract_lets +onlyGivenNames _ _ s1
    have hs1 : Keeps s0 s1 := hk.modSess
    split
    · exact hs1
    · exact hs1.bumpShep.maxPen.bumpShep

theorem execGo {f : Nat} (hw : wf → ¬8 ≤ f) (hk : Keeps s0 s) : OfOut s0 wf (execGo f s) := by
  unfold Machine.execGo
  refine .guard hw ?_
  split
  · exact hk.stutter
  · split
    · extract_lets +onlyGivenNames _ _ _ s3
      have hs3 : Keeps s0 s3 := (hk.at_.modFlock.foldl fun ht => ht.beginEntry)
      exact .next hs3.slSendAll
    · exact hk.stutter

theorem sendLeaseRows {f i ly : Nat} (hk : Keeps s0 s) : Keeps s0 (s.sendLeaseRows f i ly) := by
  unfold State.sendLeaseRows
  split
  · split
    · exact hk.foldl fun ht => ht.sendPartials
    · exact hk
  · exact hk

theorem onDue {f i ly : Nat} {l : Layout} {r : StepRun} {e : PlanEntry} {x : Session} {d : Datum} {fits : Bool}
    (hk : Keeps s0 s) : Keeps s0 (s.onDue f i ly l r e x d fits) := by
  unfold State.onDue
  split
  · exact hk.modRun
  · extract_lets +onlyGivenNames _
    split
    · extract_lets +onlyGivenNames _
      split
      · exact hk.claim.modPlanEntry.bumpShep.sendLeaseRows
      · exact hk.sitOut
    · exact hk.sitOut

theorem execDueCheck {f i ly : Nat} {d : Datum} {fits : Bool} (hw : wf → ¬8 ≤ f) (hk : Keeps s0 s) :
    OfOut s0 wf (execDueCheck f i ly d fits s) := by
  unfold Machine.execDueCheck
  refine .guard hw ?_
  split
  · split
    · extract_lets +onlyGivenNames _
      split
      · exact hk.stutter
      · exact .ite (.next hk.at_.cutThermal) (.ite hk.stutter (.ite (.next hk.at_) (.next hk.at_.onDue)))
    · exact hk.stutter
  · exact hk.stutter

theorem tryEndStall {f : Nat} (hk : Keeps s0 s) : Keeps s0 (s.tryEndStall f) := by
  unfold State.tryEndStall
  split
  · exact hk
  · split
    · exact hk
    · split
      · exact hk.countStall.deliverLayer
      · exact hk

theorem tryEndStalls (hk : Keeps s0 s) : Keeps s0 s.tryEndStalls := by
  unfold State.tryEndStalls
  exact hk.foldl fun ht => ht.tryEndStall

theorem execAnchorTimeout {f : Nat} (hw : wf → ¬8 ≤ f) (hk : Keeps s0 s) : OfOut s0 wf (execAnchorTimeout f s) := by
  unfold Machine.execAnchorTimeout
  refine .guard hw ?_
  split
  · split
    · exact hk.stutter
    · exact .next hk.at_.countStall.sitOut.deliverLayer
  · exact hk.stutter

theorem execStepAbandon {f : Nat} (hw : wf → ¬8 ≤ f) (hk : Keeps s0 s) : OfOut s0 wf (execStepAbandon f s) := by
  unfold Machine.execStepAbandon
  refine .guard hw ?_
  split
  · exact hk.stutter
  · split
    · exact hk.stutter
    · exact .ite hk.stutter (.next hk.at_.abandonStep)

theorem execPlanAckTimeout {f : Nat} (hw : wf → ¬8 ≤ f) (hk : Keeps s0 s) : OfOut s0 wf (execPlanAckTimeout f s) := by
  unfold Machine.execPlanAckTimeout
  refine .guard hw ?_
  split
  · exact hk.stutter
  · split
    · exact .next hk.at_.abandonStep
    · exact hk.stutter

theorem execMoveWriteDone {mv : Nat} {how : PassEnd} (hk : Keeps s0 s) :
    OfOut s0 wf (execMoveWriteDone mv how s) := by
  unfold Machine.execMoveWriteDone
  split
  · exact hk.stutter
  · exact .ite (.next hk.passEnd.demote.tryEndStalls) hk.stutter

theorem dropLeases {f : Nat} (hk : Keeps s0 s) : Keeps s0 (s.dropLeases f) := by
  unfold State.dropLeases
  split
  · exact hk
  · exact hk.cancelLeases

theorem commitOwed {ids : List Nat} (hk : Keeps s0 s) : Keeps s0 (s.commitOwed ids) := by
  unfold State.commitOwed
  exact hk.foldl fun ht => ht.commitReady

theorem toPhase {f : Nat} {p : RunPhase} {ids : List Nat} (hk : Keeps s0 s) : Keeps s0 (s.toPhase f p ids) := by
  unfold State.toPhase
  exact hk.modRun.commitOwed

theorem beginTokens {f : Nat} {r : StepRun} (hk : Keeps s0 s) : Keeps s0 (s.beginTokens f r) := by
  unfold State.beginTokens
  extract_lets +onlyGivenNames s1
  have hs1 : Keeps s0 s1 := (hk.foldl fun ht => ht.formTokens)
  exact hs1.toPhase

theorem beginHandover {f : Nat} {l : Layout} {r : StepRun} (hk : Keeps s0 s) : Keeps s0 (s.beginHandover f l r) := by
  unfold State.beginHandover
  exact (hk.foldl fun ht => ht.offerEntry).modRun

theorem beginChange {f : Nat} {l : Layout} {r : StepRun} (hk : Keeps s0 s) : Keeps s0 (s.beginChange f l r) := by
  unfold State.beginChange
  extract_lets +onlyGivenNames _ s1 s2
  have hs1 : Keeps s0 s1 := ((hk.foldl fun ht => ht.leaveEntry).foldl fun ht => ht.finishEntry)
  have hs2 : Keeps s0 s2 := (hs1.applyDeferred.foldl fun ht => ht.afterTransition)
  exact hs2.toPhase

theorem handoverSteps {f : Nat} (hk : Keeps s0 s) : Keeps s0 (s.handoverSteps f) := by
  unfold State.handoverSteps
  exact hk.foldl fun ht => ht.handoverStep

theorem endBoundary {f : Nat} {k : Flock} {r : StepRun} (hk : Keeps s0 s) : Keeps s0 (s.endBoundary f k r) := by
  unfold State.endBoundary
  extract_lets +onlyGivenNames _ s1 s2 _ _ s4
  have hs1 : Keeps s0 s1 := (hk.foldl fun ht => ht.sketchForked)
  have hs2 : Keeps s0 s2 := (hs1.foldl fun ht => ht.captureSession)
  have hs4 : Keeps s0 s4 := hs2.dropAttends.modFlock.retryCommits.demoteAll.correctPrice
  split
  · exact hs4.finishDestroy
  · extract_lets +onlyGivenNames _ s5 s6 _ _ _ _ _ s9
    have hs5 : Keeps s0 s5 := (Keeps.ite hs4.cancelLeases.unbindAll
        (Keeps.ite hs4.cancelLeases (hs4.foldl fun ht => ht.growLease)))
    have hs6 : Keeps s0 s6 := (Keeps.ite hs5.modFlock.rejoin hs5)
    have hs9 : Keeps s0 s9 :=
        hs6.expireStaged.cancelLeases.deliverPlan.recordPreemptions.dropLeases.restage.handoverSteps
    split
    · exact hs9
    · exact hs9.modFlock.dropGrant.settleIdle

theorem boundary {f : Nat} {l : Layout} {n : Nat} (hk : Keeps s0 s) : Keeps s0 (s.boundary f l n) := by
  induction n generalizing s with
  | zero => exact hk
  | succ n ih =>
    unfold State.boundary
    split
    · exact hk
    · split
      · exact hk
      · extract_lets +onlyGivenNames t
        have ht : Keeps s0 t := hk.commitOwed
        split
        · exact ih hk.beginTokens
        · exact .ite ht (ih ht.beginHandover)
        · exact .ite (hk.foldl fun ht => ht.offerEntry) (ih (hk.foldl fun ht => ht.offerEntry).beginChange)
        · exact .ite ht ht.endBoundary

theorem execStepBoundary {f : Nat} (hw : wf → ¬8 ≤ f) (hk : Keeps s0 s) : OfOut s0 wf (execStepBoundary f s) := by
  unfold Machine.execStepBoundary
  refine .guard hw ?_
  split
  · exact hk.stutter
  · split
    · exact hk.stutter
    · split
      · exact hk.stutter
      · exact .ite (.next hk.boundary) (.ite (.next hk.cutThermal) (.ite (.next hk.boundary) hk.stutter))

/-! ### Flits and ports -/

theorem checkHalted (hk : Keeps s0 s) : Keeps s0 s.checkHalted := by
  unfold State.checkHalted
  split
  · split
    · exact hk
    · exact hk.update rfl
  · exact hk

theorem censusChange {lost : Bool} (hk : Keeps s0 s) : Keeps s0 (s.censusChange lost) := by
  unfold State.censusChange
  extract_lets +onlyGivenNames _ _ s1 s2
  have hs1 : Keeps s0 s1 := hk.update rfl
  have hs2 : Keeps s0 s2 := (Keeps.ite hs1.bumpDev hs1)
  exact hs2.raiseAll.checkHalted

theorem modPort {k : Link} {g : Port → Port} (hk : Keeps s0 s) : Keeps s0 (s.modPort k g) := by
  unfold State.modPort
  split
  · exact hk.modStepPort
  · exact hk.update rfl

theorem bumpPort {k : Link} {c : PortCtr} (hk : Keeps s0 s) : Keeps s0 (s.bumpPort k c) := by
  unfold State.bumpPort
  exact hk.modPort

theorem pumpPort {k : Link} (hk : Keeps s0 s) : Keeps s0 (s.pumpPort k) := by
  unfold State.pumpPort
  exact hk.modPort

theorem sendAgain {k : Link} (hk : Keeps s0 s) : Keeps s0 (s.sendAgain k) := by
  unfold State.sendAgain
  extract_lets +onlyGivenNames _ s1
  have hs1 : Keeps s0 s1 := (hk.foldl fun ht => ht.emit)
  exact hs1.modPort

theorem resend {k : Link} (hk : Keeps s0 s) : Keeps s0 (s.resend k) := by
  unfold State.resend
  exact hk.sendAgain.modPort

theorem sendHello {k : Link} (hk : Keeps s0 s) : Keeps s0 (s.sendHello k) := by
  unfold State.sendHello
  split
  · exact hk.slSend
  · exact hk.emit.modPort

theorem flockLosesPort {p : Nat} {wasUp : Bool} (hk : Keeps s0 s) : Keeps s0 (s.flockLosesPort p wasUp) := by
  unfold State.flockLosesPort
  split
  · exact hk
  · extract_lets +onlyGivenNames s1 _ _
    have hs1 : Keeps s0 s1 := (Keeps.ite hk.abandonStep hk)
    exact hs1.modFlock.cancelLeases.foldl fun ht => ht.reclaimLease

theorem linkReset {k : Link} (hk : Keeps s0 s) : Keeps s0 (s.linkReset k) := by
  unfold State.linkReset
  extract_lets +onlyGivenNames _ s1 s2
  have hs1 : Keeps s0 s1 := hk.modPort
  have hs2 : Keeps s0 s2 := by
    unfold s2
    split
    · exact hs1.flockLosesPort
    · exact hs1.leaveRoute
  exact hs2.sendHello

theorem awaitHello {k : Link} (hk : Keeps s0 s) : Keeps s0 (s.awaitHello k) := by
  unfold State.awaitHello
  exact hk.modPort

theorem portFails {k : Link} (hk : Keeps s0 s) : Keeps s0 (s.portFails k) := by
  unfold State.portFails
  extract_lets +onlyGivenNames _ _ s1 s2
  have hs1 : Keeps s0 s1 := hk.modPort
  have hs2 : Keeps s0 s2 := by
    unfold s2
    split
    · exact hs1.flockLosesPort
    · exact hs1.leaveRoute
  split
  · exact hs2.censusChange
  · exact hs2

theorem protocolError {k : Link} (hk : Keeps s0 s) : Keeps s0 (s.protocolError k) := by
  unfold State.protocolError
  exact hk.bumpPort.linkReset

theorem retrain {k : Link} (hk : Keeps s0 s) : Keeps s0 (s.retrain k) := by
  unfold State.retrain
  extract_lets +onlyGivenNames s1
  have hs1 : Keeps s0 s1 := hk.modPort
  split
  · split
    · exact hs1.leaveRoute
    · exact hs1
  · exact hs1

theorem nakOnce {k : Link} (hk : Keeps s0 s) : Keeps s0 (s.nakOnce k) := by
  unfold State.nakOnce
  extract_lets +onlyGivenNames _
  split
  · exact hk
  · exact hk.emit.modPort

theorem execFlit {k : Link} {crcOk : Bool} {h : BitVec 64} {payload : List Byte} (hw : wf → ¬(!linkExists k) = true)
    (hk : Keeps s0 s) : OfOut s0 wf (execFlit k crcOk h payload s) := by
  unfold Machine.execFlit
  refine .guard hw ?_
  split
  · exact hk.stutter
  · extract_lets +onlyGivenNames s'
    have hs' : Keeps s0 s' := hk.modPort
    split
    · exact .next hs'.bumpPort.nakOnce
    · extract_lets +onlyGivenNames _ _
      split
      · exact .next hs'.protocolError
      · split
        · exact .next hs'.protocolError
        · extract_lets +onlyGivenNames s1
          have hs1 : Keeps s0 s1 := hs'.modPort
          split
          · exact .next hs1.pumpPort
          · exact .ite (.next hs1.modPort.pumpPort) (.ite (.next hs1.pumpPort) (.next hs1.nakOnce.pumpPort))

theorem afterReplay {k : Link} (hk : Keeps s0 s) : Keeps s0 (s.afterReplay k) := by
  unfold State.afterReplay
  split
  · exact hk.retrain
  · exact hk

theorem execNak {k : Link} {h : BitVec 64} (hw : wf → ¬(!linkExists k) = true) (hk : Keeps s0 s) :
    OfOut s0 wf (execNak k h s) := by
  unfold Machine.execNak
  refine .guard hw ?_
  split
  · exact hk.stutter
  · extract_lets +onlyGivenNames s'
    have hs' : Keeps s0 s' := hk.modPort
    split
    · exact .next hs'.protocolError
    · split
      · exact .next hs'.protocolError
      · extract_lets +onlyGivenNames _ s1
        have hs1 : Keeps s0 s1 := hs'.modPort
        exact .ite (.next hs1.pumpPort) (.next hs1.modPort.resend.afterReplay.pumpPort)

theorem execReplayTimer {k : Link} (hw : wf → ¬(!linkExists k) = true) (hk : Keeps s0 s) :
    OfOut s0 wf (execReplayTimer k s) := by
  unfold Machine.execReplayTimer
  refine .guard hw ?_
  split
  · exact hk.stutter
  · exact .ite hk.stutter (.next hk.at_.resend.afterReplay)

theorem execLockOrAlignmentLost {k : Link} (hw : wf → ¬(!linkExists k) = true) (hk : Keeps s0 s) :
    OfOut s0 wf (execLockOrAlignmentLost k s) := by
  unfold Machine.execLockOrAlignmentLost
  exact .guard hw (.ite (.next hk.retrain) hk.stutter)

theorem trainingFailed {k : Link} (hk : Keeps s0 s) : Keeps s0 (s.trainingFailed k) := by
  unfold State.trainingFailed
  split
  · exact hk.portFails
  · exact hk.modPort

theorem execTrainingDone {k : Link} {usable : BitVec 32} (hw : wf → ¬(!linkExists k) = true)
    (hk : Keeps s0 s) : OfOut s0 wf (execTrainingDone k usable s) := by
  unfold Machine.execTrainingDone
  refine .guard hw ?_
  split
  · exact hk.stutter
  · split
    · exact .next hk.trainingFailed
    · extract_lets +onlyGivenNames _ s1 s2
      have hs1 : Keeps s0 s1 := hk.modPort
      have hs2 : Keeps s0 s2 := Keeps.ite hs1.censusChange hs1
      exact .ite (.next hs2.modPort) (.next hs2.sendHello)

theorem execTrainingTimeout {k : Link} (hw : wf → ¬(!linkExists k) = true) (hk : Keeps s0 s) :
    OfOut s0 wf (execTrainingTimeout k s) := by
  unfold Machine.execTrainingTimeout
  exact .guard hw (.ite (.next hk.at_.trainingFailed) hk.stutter)

theorem execRetrainDone {k : Link} {usable : BitVec 32} (hw : wf → ¬(!linkExists k) = true)
    (hk : Keeps s0 s) : OfOut s0 wf (execRetrainDone k usable s) := by
  unfold Machine.execRetrainDone
  refine .guard hw ?_
  split
  · exact hk.stutter
  · split
    · exact hk.stutter
    · extract_lets +onlyGivenNames _ _ s1 s2 s3
      have hs1 : Keeps s0 s1 := hk.modPort
      have hs2 : Keeps s0 s2 := Keeps.ite hs1.bumpPort.censusChange hs1
      have hs3 : Keeps s0 s3 := hs2.sendAgain
      refine .next ?_
      split
      · exact hs3.joinRoute
      · split
        · exact hs3.modPort
        · exact hs3

theorem execRetrainTimeout {k : Link} (hw : wf → ¬(!linkExists k) = true) (hk : Keeps s0 s) :
    OfOut s0 wf (execRetrainTimeout k s) := by
  unfold Machine.execRetrainTimeout
  exact .guard hw (.ite (.next hk.at_.portFails) hk.stutter)

theorem execBringupOverrun {k : Link} (hw : wf → ¬(!linkExists k) = true) (hk : Keeps s0 s) :
    OfOut s0 wf (execBringupOverrun k s) := by
  unfold Machine.execBringupOverrun
  refine .guard hw ?_
  split
  · exact hk.stutter
  · extract_lets +onlyGivenNames s1
    have hs1 : Keeps s0 s1 := hk.at_
    exact .ite (.next hs1.portFails) (.next hs1.linkReset.modPort)

theorem execPortRetry {k : Link} (hw : wf → ¬(!linkExists k) = true) (hk : Keeps s0 s) :
    OfOut s0 wf (execPortRetry k s) := by
  unfold Machine.execPortRetry
  exact .guard hw (.ite (.next hk.at_.modPort) hk.stutter)

/-! ### Messages of an accelerator -/

theorem countMsg {f p a g : Nat} (hk : Keeps s0 s) : Keeps s0 (s.countMsg f p a g) := by
  unfold State.countMsg
  exact hk.modRun

theorem logitsOwed {f : Nat} (hk : Keeps s0 s) : Keeps s0 (s.logitsOwed f) := by
  unfold State.logitsOwed
  split
  · exact hk
  · refine hk.foldl fun ht => ?_
    split
    · exact ht
    · split
      · split
        · exact ht.sitOut
        · exact ht
      · exact ht

theorem portsDone {f : Nat} (hk : Keeps s0 s) : Keeps s0 (s.portsDone f) := by
  unfold State.portsDone
  split
  · split
    · exact hk.logitsOwed
    · exact hk
  · exact hk

theorem discardMsg {p cls : Nat} {m : SlMsg} (hk : Keeps s0 s) : Keeps s0 (s.discardMsg p cls m) := by
  unfold State.discardMsg
  extract_lets +onlyGivenNames s1
  have hs1 : Keeps s0 s1 := hk.bumpPort
  split
  · split
    · split
      · exact hs1.countMsg.portsDone
      · exact hs1
    · exact hs1
  · exact hs1

theorem countRsvd {p : Nat} {set : Bool} (hk : Keeps s0 s) : Keeps s0 (s.countRsvd p set) := by
  unfold State.countRsvd
  split
  · exact hk.bumpPort
  · exact hk

theorem slReceive {p : Nat} {m : SlMsg} {cls op : Nat} {body : State → Out} (hk : Keeps s0 s) (hw : wf → ¬8 ≤ p)
    (hb : ∀ {t}, Keeps s0 t → OfOut s0 wf (body t)) : OfOut s0 wf (slReceive s p m cls op body) := by
  unfold Machine.slReceive
  refine .guard hw (.ite hk.stutter (.ite (.ite hk.stutter ?_) (.ite ?_ ?_)))
  · exact .next hk.countRsvd.bumpPort
  · exact .next hk.countRsvd.discardMsg
  · exact hb hk.countRsvd

theorem stepMessage {p : Nat} {m : SlMsg} {body : State → Nat → Flock → StepRun → State} (hk : Keeps s0 s)
    (hb : ∀ {t f k r}, Keeps s0 t → Keeps s0 (body t f k r)) : OfOut s0 wf (stepMessage s p m body) := by
  unfold Machine.stepMessage
  split
  · exact .next hk.bumpPort
  · split
    · exact .ite (.next (hb hk)) (.ite (.next hk) (.next hk.bumpPort))
    · exact .ite (.next hk) (.next hk.bumpPort)

theorem execPlanAck {p : Nat} {m : SlMsg} (hw : wf → ¬8 ≤ p) (hk : Keeps s0 s) : OfOut s0 wf (execPlanAck p m s) := by
  unfold Machine.execPlanAck
  refine hk.slReceive hw fun ht => ?_
  split
  · exact .next ht
  · split
    · exact .ite (.next ht.modFlock) (.next ht)
    · exact .next ht

theorem execLeaseAck {p : Nat} {m : SlMsg} (hw : wf → ¬8 ≤ p) (hk : Keeps s0 s) :
    OfOut s0 wf (execLeaseAck p m s) := by
  unfold Machine.execLeaseAck
  refine hk.slReceive hw fun ht => ?_
  split
  · exact .next ht.bumpPort
  · exact .ite (.next ht.modLease) (.ite (.next ht.modLease) (.next ht))

theorem execReclaimed {p : Nat} {m : SlMsg} (hw : wf → ¬8 ≤ p) (hk : Keeps s0 s) :
    OfOut s0 wf (execReclaimed p m s) := by
  unfold Machine.execReclaimed
  refine hk.slReceive hw fun ht => ?_
  split
  · exact .next ht.bumpPort
  · exact .ite (.next ht.reclaimLease) (.next ht)

theorem execReclaimTimeout {p id : Nat} (hw : wf → ¬8 ≤ p) (hk : Keeps s0 s) :
    OfOut s0 wf (execReclaimTimeout p id s) := by
  unfold Machine.execReclaimTimeout
  refine .guard hw ?_
  split
  · exact hk.stutter
  · split
    · exact hk.stutter
    · exact .ite hk.stutter (.next hk.at_.modLease.raise)

theorem execLanded {p : Nat} {m : SlMsg} (hw : wf → ¬8 ≤ p) (hk : Keeps s0 s) : OfOut s0 wf (execLanded p m s) := by
  unfold Machine.execLanded
  refine hk.slReceive hw fun ht => ?_
  extract_lets +onlyGivenNames s1
  have hs1 : Keeps s0 s1 := ht.modStepPort
  split
  · exact .next hs1.tryEndStall
  · exact .next hs1

theorem slip {f ly : Nat} (hk : Keeps s0 s) : Keeps s0 (s.slip f ly) := by
  unfold State.slip
  split
  · exact hk
  · split
    · exact hk
    · extract_lets +onlyGivenNames _
      split
      · exact hk
      · exact hk.modRun.modFlock

theorem layerQueried {f i ly : Nat} (hk : Keeps s0 s) : Keeps s0 (s.layerQueried f i ly) := by
  unfold State.layerQueried
  split
  · split
    · extract_lets +onlyGivenNames _ _ s2 _ _ t0 t1 t2 s3 _
      have hs2 : Keeps s0 s2 := (hk.slip.foldl fun ht => ht.request.bumpPen)
      have ht0 : Keeps s0 t0 := (hs2.foldl fun ht => ht.askPromotion)
      have ht1 : Keeps s0 t1 := ht0.bumpPen.bumpPen
      have ht2 : Keeps s0 t2 := (Keeps.ite ht1.bumpPen ht1)
      have hs3 : Keeps s0 s3 := (Keeps.ite (Keeps.ite ht2.bumpPen ht2) hs2)
      split
      · split
        · exact hs3
        · refine hs3.foldl fun ht => ?_
          split
          · exact ht.stream
          · exact ht
      · exact hs3
    · exact hk
  · exact hk

theorem execQuery {p : Nat} {m : SlMsg} (hw : wf → ¬8 ≤ p) (hk : Keeps s0 s) : OfOut s0 wf (execQuery p m s) := by
  unfold Machine.execQuery
  refine hk.slReceive hw fun ht => ?_
  refine ht.stepMessage fun ht' => ?_
  split
  · exact ht'
  · extract_lets +onlyGivenNames _
    split
    · exact ht'.bumpPort
    · split
      · exact ht'
      · split
        · exact ht'.bumpPort
        · extract_lets +onlyGivenNames _ s1
          have hs1 : Keeps s0 s1 := ht'.modPlanEntry
          split
          · exact hs1
          · exact (Keeps.ite hs1.layerQueried hs1).deliver

theorem recordPass {f i ly tile c : Nat} {scoring : Bool} {ox step p rows n : Nat} (hk : Keeps s0 s) :
    Keeps s0 (s.recordPass f i ly tile c scoring ox step p rows n) := by
  unfold State.recordPass
  exact hk.modPlanEntry.setRecovery.bumpPen.bumpPen

theorem passTagFail {p : Nat} {g : Sheaf} (hk : Keeps s0 s) : Keeps s0 (s.passTagFail p g) := by
  unfold State.passTagFail
  exact hk.bumpPen.bumpDev.faultSheaf

theorem trySelect {f i ly : Nat} {r : StepRun} {x : Session} {l : Layout} (hk : Keeps s0 s) :
    Keeps s0 (s.trySelect f i ly r x l) := by
  unfold State.trySelect
  split
  · exact hk
  · extract_lets +onlyGivenNames _ _
    split
    · exact hk
    · split
      · extract_lets +onlyGivenNames _ s1
        have hs1 : Keeps s0 s1 := hk.modPlanEntry
        exact (Keeps.ite hs1 hs1.bumpPen).deliver
      · exact hk

theorem rescore {f i ly : Nat} {e : PlanEntry} (hk : Keeps s0 s) : Keeps s0 (s.rescore f i ly e) := by
  unfold State.rescore
  exact hk.modPlanEntry.bumpPen

theorem execOxPassDone {f i ly tile : Nat} {failed : Option Nat} (hw : wf → ¬8 ≤ f) (hk : Keeps s0 s) :
    OfOut s0 wf (execOxPassDone f i ly tile failed s) := by
  unfold Machine.execOxPassDone
  refine .guard hw ?_
  split
  · split
    · split
      · exact hk.stutter
      · split
        · exact hk.stutter
        · extract_lets +onlyGivenNames _
          split
          · exact .next hk.rescore
          · split
            · exact hk.stutter
            · extract_lets +onlyGivenNames _
              split
              · split
                · exact .next hk.passTagFail
                · exact hk.stutter
              · extract_lets +onlyGivenNames s1
                have hs1 : Keeps s0 s1 := hk.recordPass
                exact .ite (.next hs1) (.ite (.next hs1.trySelect.tryEndStall) (.next hs1.deliver.tryEndStall))
    · exact hk.stutter
  · exact hk.stutter

theorem execAppendData {p : Nat} {m : SlMsg} (hw : wf → ¬8 ≤ p) (hk : Keeps s0 s) :
    OfOut s0 wf (execAppendData p m s) := by
  unfold Machine.execAppendData
  refine hk.slReceive hw fun ht => ?_
  refine ht.stepMessage fun ht' => ?_
  extract_lets +onlyGivenNames s1
  have hs1 : Keeps s0 s1 := ht'.countMsg
  refine .portsDone ?_
  split
  · split
    · exact hs1
    · split
      · exact hs1.bumpPort
      · exact hs1.modPlanEntry
  · exact hs1.bumpPort

theorem weave {f i : Nat} {ports : List Nat} {step : Nat} {l : Layout} {x : Session} {e : PlanEntry} {m : SlMsg}
    (hk : Keeps s0 s) : Keeps s0 (s.weave f i ports step l x e m) := by
  unfold State.weave
  extract_lets +onlyGivenNames _ _ _ _ _ _ s2 s3
  have hs2 : Keeps s0 s2 := hk.modPlanEntry.bumpPen.bumpPen.bumpPen
  have hs3 : Keeps s0 s3 := (Keeps.ite hs2 (Keeps.ite hs2.bumpPen hs2.bumpPen))
  exact hs3.slSendAll

theorem execRows {p : Nat} {m : SlMsg} (hw : wf → ¬8 ≤ p) (hk : Keeps s0 s) : OfOut s0 wf (execRows p m s) := by
  unfold Machine.execRows
  refine hk.slReceive hw fun ht => ?_
  refine ht.stepMessage fun ht' => ?_
  extract_lets +onlyGivenNames s1 _
  have hs1 : Keeps s0 s1 := ht'.countMsg
  refine .portsDone ?_
  split
  · split
    · exact hs1
    · split
      · exact hs1
      · split
        · exact hs1.bumpPen
        · exact hs1.weave
  · exact hs1.bumpPen

theorem execStepDone {p : Nat} {m : SlMsg} (hw : wf → ¬8 ≤ p) (hk : Keeps s0 s) :
    OfOut s0 wf (execStepDone p m s) := by
  unfold Machine.execStepDone
  exact hk.slReceive hw fun ht => ht.stepMessage fun ht' => ht'.modRun.portsDone

theorem execStepLinkHello {p : Nat} {m : SlMsg} {grants : List Nat} (hw : wf → ¬8 ≤ p) (hk : Keeps s0 s) :
    OfOut s0 wf (execStepLinkHello p m grants s) := by
  unfold Machine.execStepLinkHello
  exact hk.slReceive hw fun ht => .ite (.next ht.linkReset)
      (.ite (.next ht.bumpPort.awaitHello.raise) (.ite (.next ht.bumpPort.awaitHello.raise)
        (.ite (.next ht.awaitHello.raise) (.next ht.modStepPort.pumpPort))))

theorem execSlotTable {p : Nat} {m : SlMsg} (hw : wf → ¬8 ≤ p) (hk : Keeps s0 s) :
    OfOut s0 wf (execSlotTable p m s) := by
  unfold Machine.execSlotTable
  refine hk.slReceive hw fun ht => ?_
  split
  · exact .next ht
  · extract_lets +onlyGivenNames s1
    have hs1 : Keeps s0 s1 := ht.modStepPort
    split
    · exact .next hs1.tryJoin
    · exact .next hs1

theorem tryResume {f : Nat} (hk : Keeps s0 s) : Keeps s0 (s.tryResume f) := by
  unfold State.tryResume
  split
  · exact hk
  · split
    · exact hk.clearLeases.modFlock.raise
    · exact hk

theorem execReady {p : Nat} {m : SlMsg} (hw : wf → ¬8 ≤ p) (hk : Keeps s0 s) : OfOut s0 wf (execReady p m s) := by
  unfold Machine.execReady
  refine hk.slReceive hw fun ht => ?_
  split
  · exact .next ht
  · extract_lets +onlyGivenNames s1
    have hs1 : Keeps s0 s1 := ht.modStepPort
    split
    · exact .next hs1.tryResume.deliverPlan
    · exact .next hs1

theorem execResyncDone {p : Nat} {m : SlMsg} (hw : wf → ¬8 ≤ p) (hk : Keeps s0 s) :
    OfOut s0 wf (execResyncDone p m s) := by
  unfold Machine.execResyncDone
  refine hk.slReceive hw fun ht => ?_
  split
  · exact .next ht
  · exact .next ht.modFlock.tryResume

theorem execResyncTimeout {p : Nat} (hw : wf → ¬8 ≤ p) (hk : Keeps s0 s) : OfOut s0 wf (execResyncTimeout p s) := by
  unfold Machine.execResyncTimeout
  refine .guard hw ?_
  split
  · exact hk.stutter
  · exact .next hk.at_.linkReset

theorem execStepLinkError {p : Nat} {m : SlMsg} (hw : wf → ¬8 ≤ p) (hk : Keeps s0 s) :
    OfOut s0 wf (execStepLinkError p m s) := by
  unfold Machine.execStepLinkError
  exact hk.slReceive hw fun ht => .next ht.bumpPort.raise

/-! ### The registry and handoff -/

theorem startHandoff {h : Handle} {d : Nat} (hk : Keeps s0 s) : Keeps s0 (s.startHandoff h d) := by
  unfold State.startHandoff
  split
  · exact hk
  · split
    · exact hk
    · exact hk.modSess.request

theorem stopHandoff {h : Handle} (hk : Keeps s0 s) : Keeps s0 (s.stopHandoff h) := by
  unfold State.stopHandoff
  exact hk.offerWithdrawn

theorem sendSession {h : Handle} (hk : Keeps s0 s) : Keeps s0 (s.sendSession h) := by
  unfold State.sendSession
  split
  · exact hk
  · exact hk.modSess.sendHandoff.handoverStep

theorem homeLeft {h : Handle} {dest version : Nat} (hk : Keeps s0 s) : Keeps s0 (s.homeLeft h dest version) := by
  unfold State.homeLeft
  split
  · exact hk
  · split
    · exact hk.modSess
    · exact hk.freeHanded

theorem handBack {h : Handle} (hk : Keeps s0 s) : Keeps s0 (s.handBack h) := by
  unfold State.handBack
  split
  · exact hk
  · split
    · exact hk
    · split
      · exact hk.startHandoff
      · exact hk

theorem handBackAll (hk : Keeps s0 s) : Keeps s0 s.handBackAll := by
  unfold State.handBackAll
  exact hk.foldl fun ht => ht.handBack

theorem modIncoming {h : Handle} {g : Incoming → Incoming} (hk : Keeps s0 s) : Keeps s0 (s.modIncoming h g) := by
  unfold State.modIncoming
  exact hk.update rfl

theorem closeStaging {counter : Nat} (hk : Keeps s0 s) : Keeps s0 (s.closeStaging counter) := by
  unfold State.closeStaging
  exact hk.update rfl

theorem dropIncoming {h : Handle} (hk : Keeps s0 s) : Keeps s0 (s.dropIncoming h) := by
  unfold State.dropIncoming
  split
  · exact hk
  · exact .closeStaging (hk.update rfl)

theorem reserveIncoming {src : Nat} {h : Handle} {bytes : Nat} (hk : Keeps s0 s) :
    ∀ r, s.reserveIncoming src h bytes = .ok r → Keeps s0 r.1 := by
  intro r reserved
  unfold State.reserveIncoming at reserved
  extract_lets +onlyGivenNames _ s1 _ loc at reserved
  have hs1 : Keeps s0 s1 := hk.dropIncoming
  clear_value loc s1
  split at reserved
  · cases reserved
  · split at reserved
    · cases reserved
    · extract_lets at reserved
      injection reserved with reserved
      rw [← reserved]
      exact hs1.update rfl

theorem learnHome {h : Handle} {n : BitVec 13} {version : Nat} (hk : Keeps s0 s) :
    Keeps s0 (s.learnHome h n version) := by
  unfold State.learnHome
  extract_lets +onlyGivenNames _
  split
  · exact hk.update rfl
  · exact hk

theorem learnOwners {x : Session} (hk : Keeps s0 s) : Keeps s0 (s.learnOwners x) := by
  unfold State.learnOwners
  exact hk.foldl fun ht => ht.regAway

theorem landIncoming {h : Handle} {version : Nat} (hk : Keeps s0 s) : Keeps s0 (s.landIncoming h version) := by
  unfold State.landIncoming
  split
  · exact hk
  · split
    · exact hk.dropIncoming
    · extract_lets +onlyGivenNames _ _ _ _ _ s1 s2 s3
      have hs1 : Keeps s0 s1 := hk.dropIncoming.placeSession_snd
      have hs2 : Keeps s0 s2 := .bumpDev (hs1.update rfl)
      have hs3 : Keeps s0 s3 := .ite hs2.modEntry.mirrorEntry hs2
      exact hs3.learnOwners.runnableSteps.handBack

theorem sendBatches {d : Nat} {items : List (List Byte)} {use : ReqUse} (hk : Keeps s0 s) :
    Keeps s0 (s.sendBatches d items use) := by
  unfold State.sendBatches
  exact hk.foldl fun ht => .request (ht.update rfl)

theorem lifeAnswered {h : Handle} {life : Life} {status result : Nat} {entry : Option RegEntry}
    (hk : Keeps s0 s) : Keeps s0 (s.lifeAnswered h life status result entry) := by
  unfold State.lifeAnswered
  extract_lets +onlyGivenNames done
  have hdone : ∀ {t}, Keeps s0 t → Keeps s0 (done t) := by
    intro t ht
    unfold done
    split
    · exact .ite ht.finishRegrowth ht
    · exact ht
  split
  · exact .ite (hdone hk.modSess) hk
  · split
    · split
      · split
        · exact hk.homeLeft
        · exact .ite (hdone hk.modSess) (.ite hk.modSess.regLife_fst hk.modSess)
      · exact hk
    · exact hk

theorem settleReg {use : ReqUse} {op status result : Nat} {entry : Option RegEntry} (hk : Keeps s0 s) :
    Keeps s0 (s.settleReg use op status result entry) := by
  unfold State.settleReg
  extract_lets follow s1
  have hs1 : Keeps s0 s1 := .ite hk.bumpDev hk
  have hfollow : ∀ h, Keeps s0 (follow s1 h) := by
    intro h
    unfold follow
    split
    · exact .ite hs1.offerWithdrawn hs1.homeLeft
    · exact hs1
  split
  · exact hs1.lifeAnswered
  · split
    · exact hs1.learnHome
    · exact hs1
  · exact .ite (.ite hs1.stopHandoff (.ite hs1.sendSession hs1.withdrawOffer))
      (.ite hs1.offerWithdrawn (.ite (hfollow _) hs1))
  · refine .ite hs1.landIncoming (.ite ?_ hs1)
    split
    · exact .ite hs1.landIncoming hs1.dropIncoming
    · exact hs1.dropIncoming
  · split
    · split
      · exact .ite hs1.landIncoming (.ite hs1 hs1.dropIncoming)
      · exact hs1.dropIncoming
    · split
      · exact .ite (.ite (.ite hs1.withdrawOffer hs1.offerWithdrawn) hs1.homeLeft) hs1
      · exact hs1
  · exact hs1

theorem answerReg {o : RegOrigin} {op status result : Nat} {entry : Option RegEntry} (hk : Keeps s0 s) :
    Keeps s0 (s.answerReg o op status result entry) := by
  unfold State.answerReg
  split
  · exact hk.respond
  · exact hk.settleReg

theorem applyReg {o : RegOrigin} {op : Nat} {old e : RegEntry} {result : Nat} (hk : Keeps s0 s) :
    Keeps s0 (s.applyReg o op old e result) := by
  unfold State.applyReg
  extract_lets +onlyGivenNames _ s1 s2
  have hs1 : Keeps s0 s1 := hk.modEntry
  have hs2 : Keeps s0 s2 := (Keeps.ite (Keeps.ite hs1.homeLeft hs1.request) (Keeps.ite hs1.freeIndex hs1))
  exact hs2.answerReg

theorem tryReg {q : RegPending} (hk : Keeps s0 s) : Keeps s0 (s.tryReg q) := by
  unfold State.tryReg
  split
  · exact hk.answerReg
  · extract_lets +onlyGivenNames _
    split
    · exact hk.answerReg
    · split
      · exact hk.applyReg.oweEntry
      · exact .request (hk.update rfl)

theorem submitReg {h : Handle} {op : Nat} {body : List Byte} {o : RegOrigin} (hk : Keeps s0 s) :
    Keeps s0 (s.submitReg h op body o) := by
  unfold State.submitReg
  extract_lets +onlyGivenNames _ _ s1
  have hs1 : Keeps s0 s1 := hk.update rfl
  split
  · exact hs1.update rfl
  · exact hs1.tryReg

theorem regMirrored {id : Nat} (hk : Keeps s0 s) : Keeps s0 (s.regMirrored id) := by
  unfold State.regMirrored
  split
  · exact hk
  · extract_lets +onlyGivenNames _ _ s1 s2
    have hs1 : Keeps s0 s1 := hk.update rfl
    have hs2 : Keeps s0 s2 := by
      unfold s2
      split
      · exact hs1.applyReg.oweEntry
      · exact hs1
    split
    · exact hs2
    · exact .tryReg (hs2.update rfl)

theorem regCall {h : Handle} {op : Nat} {body : List Byte} {use : ReqUse} (hk : Keeps s0 s) :
    Keeps s0 (s.regCall h op body use) := by
  unfold State.regCall
  split
  · split
    · exact hk.settleReg
    · exact hk.submitReg
  · exact hk.regAway

theorem commitHandoff {h : Handle} (hk : Keeps s0 s) : Keeps s0 (s.commitHandoff h) := by
  unfold State.commitHandoff
  split
  · exact hk.dropIncoming
  · exact hk.regCall

theorem commitIncoming {i : Incoming} (hk : Keeps s0 s) : Keeps s0 (s.commitIncoming i) := by
  unfold State.commitIncoming
  extract_lets +onlyGivenNames s1
  have hs1 : Keeps s0 s1 := hk.modIncoming
  split
  · exact hs1.dropIncoming
  · split
    · exact hs1.sendBatches
    · exact hs1.commitHandoff

theorem counted {counter : Nat} {data : List Byte} (hk : Keeps s0 s) : Keeps s0 (s.counted counter data) := by
  unfold State.counted
  extract_lets +onlyGivenNames _ _ s1
  have hs1 : Keeps s0 s1 := hk.update rfl
  split
  · exact hs1
  · split
    · exact hs1.commitIncoming
    · exact hs1

/-! ### Receiving on the Commons -/

theorem refuseHello {p : Nat} (hk : Keeps s0 s) : Keeps s0 (s.refuseHello p) := by
  unfold State.refuseHello
  exact hk.bumpPort.awaitHello.raise

theorem execCommonsHello {p : Nat} {m : SlMsg} (hw : wf → ¬18 ≤ p) (hk : Keeps s0 s) :
    OfOut s0 wf (execCommonsHello p m s) := by
  unfold Machine.execCommonsHello
  refine .guard hw ?_
  extract_lets +onlyGivenNames _ _
  split
  · exact hk.stutter
  · split
    · exact .next (Keeps.ite hk.bumpPort hk).bumpPort
    · extract_lets +onlyGivenNames s' _ _
      have hs' : Keeps s0 s' := Keeps.ite hk.bumpPort hk
      split
      · exact .next hs'.linkReset
      · split
        · exact .next hs'.refuseHello
        · exact .ite (.next hs'.refuseHello.raise) (.next (Keeps.ite hs'.raise hs').modPort.pumpPort.joinRoute)

theorem modStream {n : Nat} {g : InStream → InStream} (hk : Keeps s0 s) : Keeps s0 (s.modStream n g) := by
  unfold State.modStream
  exact hk.update rfl

theorem tagFailed {src : Nat} (hk : Keeps s0 s) : Keeps s0 (s.tagFailed src) := by
  unfold State.tagFailed
  extract_lets +onlyGivenNames _ s1
  have hs1 : Keeps s0 s1 := hk.bumpDev.modStream
  split
  · exact hs1.raise
  · exact hs1

theorem sendRegrow {src : Nat} (hk : Keeps s0 s) : Keeps s0 (s.sendRegrow src) := by
  unfold State.sendRegrow
  extract_lets +onlyGivenNames _ _
  split
  · exact hk
  · exact hk.request

theorem newIncarnation {src inc : Nat} (hk : Keeps s0 s) : Keeps s0 (s.newIncarnation src inc) := by
  unfold State.newIncarnation
  extract_lets +onlyGivenNames _ s1 _ s2
  have hs1 : Keeps s0 s1 := hk.modStream
  have hs2 : Keeps s0 s2 := (Keeps.ite (hs1.update rfl) hs1)
  split
  · exact hs2.sendRegrow
  · exact hs2

theorem pktReceive {p : Pkt} {mine : Bool} {body : State → Out} (hk : Keeps s0 s) (hw : wf → ¬18 ≤ p.port)
    (hb : ∀ {t}, Keeps s0 t → OfOut s0 wf (body t)) : OfOut s0 wf (pktReceive s p mine body) := by
  unfold Machine.pktReceive
  refine .guard hw ?_
  extract_lets +onlyGivenNames _ op _ t inc cur s1 s2
  have ht : Keeps s0 t := .ite hk.bumpPort hk
  have hs1 : Keeps s0 s1 := .ite ht.newIncarnation ht
  have hs2 : Keeps s0 s2 := hs1.bumpDev.modStream
  refine .ite hk.stutter (.ite (.next ?_) (.ite hk.stutter (.ite (.next ht.bumpDev) (.ite (.next ht.tagFailed) ?_))))
  · exact (Keeps.ite hk.bumpPort hk).bumpDev
  · exact .ite (.next ht.bumpDev) (.ite (.next hs2.respond) (hb hs2))

theorem serviceReceive {p : Pkt} {mine : Bool} {body : State → Out} (hk : Keeps s0 s) (hw : wf → ¬18 ≤ p.port)
    (hb : ∀ {t}, Keeps s0 t → OfOut s0 wf (body t)) : OfOut s0 wf (serviceReceive s p mine body) :=
  hk.pktReceive hw fun ht => .ite (.next ht.respond) (hb ht)

theorem setGrant {g : Grant} (hk : Keeps s0 s) : Keeps s0 (s.setGrant g) := by
  unfold State.setGrant
  exact hk.update rfl

theorem mappedWrite {h : BitVec 512} {off : Nat} {data : List Byte} (hk : Keeps s0 s) :
    Keeps s0 (s.mappedWrite h off data) := by
  unfold State.mappedWrite
  split
  · exact hk.update rfl
  · split
    · exact hk.setGrant
    · exact hk

theorem memWrite_snd {h : BitVec 512} {body : List Byte} (hk : Keeps s0 s) : Keeps s0 (s.memWrite h body).2 := by
  unfold State.memWrite
  extract_lets +onlyGivenNames _ _ _
  split
  · exact hk
  · split
    · exact hk
    · extract_lets +onlyGivenNames s1
      have hs1 : Keeps s0 s1 := hk.mappedWrite
      split
      · exact hs1
      · exact hs1.counted

theorem memCopy_snd {h : BitVec 512} {body : List Byte} {ok : Bool} (hk : Keeps s0 s) :
    Keeps s0 (s.memCopy h body ok).2 := by
  unfold State.memCopy
  extract_lets
  split
  · exact hk
  · split
    · exact hk
    · split
      · exact hk
      · dsimp only
        exact hk.request

theorem memAlloc_snd_snd {h : BitVec 512} {n : Nat} {ident : List Byte} (hk : Keeps s0 s) :
    Keeps s0 (s.memAlloc h n ident).2.2 := by
  unfold State.memAlloc
  extract_lets +onlyGivenNames _ _
  split
  · exact hk
  · split
    · exact hk
    · extract_lets +onlyGivenNames _
      split
      · exact hk
      · split
        · exact hk.setGrant
        · exact hk

theorem memFree_snd {h : BitVec 512} {off : Nat} (hk : Keeps s0 s) : Keeps s0 (s.memFree h off).2 := by
  unfold State.memFree
  split
  · exact hk
  · split
    · exact hk
    · exact hk.setGrant

theorem memAtomic_snd_snd {h : BitVec 512} {body : List Byte} (hk : Keeps s0 s) :
    Keeps s0 (s.memAtomic h body).2.2 := by
  unfold State.memAtomic
  extract_lets
  split
  · exact hk
  · split
    · split
      · exact hk
      · exact hk.memAlloc_snd_snd
    · split
      · split
        · exact hk
        · exact hk.memFree_snd
      · split
        · exact hk
        · split
          · exact hk
          · exact hk.mappedWrite

theorem run_snd {h : BitVec 512} {body : List Byte} {src id : Nat} {cache : List (Nat × Nat × Nat × Nat)} {low : Nat}
    (hk : Keeps s0 s) : Keeps s0 (State.cachedAtomic.run h body s src id cache low).2 := by
  unfold State.cachedAtomic.run
  extract_lets r s1
  have hr : Keeps s0 r.2.2 := by
    unfold r
    split
    · exact hk
    · exact hk.memAtomic_snd_snd
  have hs1 : Keeps s0 s1 := hr.modStream
  exact hs1.respond

theorem cachedAtomic_snd {h : BitVec 512} {body : List Byte} (hk : Keeps s0 s) :
    Keeps s0 (s.cachedAtomic h body).2 := by
  unfold State.cachedAtomic
  extract_lets +onlyGivenNames _ _ _
  split
  · exact hk.bumpDev.respond
  · split
    · exact hk.respond
    · extract_lets +onlyGivenNames full oldest
      clear_value full oldest
      split
      · split
        · exact hk.respond
        · exact hk.run_snd
      · exact hk.run_snd

theorem applyMemory_snd {h : BitVec 512} {body : List Byte} {ok : Bool} (hk : Keeps s0 s) :
    Keeps s0 (s.applyMemory h body ok).2 := by
  unfold State.applyMemory
  extract_lets +onlyGivenNames op _ on
  have hon : ∀ {t}, Keeps s0 t → Keeps s0 (on t) := fun ht => ht.modStream
  clear_value op on
  split
  · exact hk.respond
  · split
    · exact hk.cachedAtomic_snd
    · split
      · exact (hon hk).respond
      · split
        · exact (hon hk.memWrite_snd).respond
        · exact (hon hk).respond
        · split
          · next answer => exact (hon (hk.memCopy_snd.of_snd answer)).respond
          · next answer => exact hon (hk.memCopy_snd.of_snd answer)

theorem drainHeld {src n : Nat} (hk : Keeps s0 s) : Keeps s0 (s.drainHeld src n) := by
  induction n generalizing s with
  | zero => exact hk
  | succ n ih =>
    unfold State.drainHeld
    extract_lets
    split
    · exact hk
    · exact .ite (ih hk.modStream.applyMemory_snd) hk.modStream.applyMemory_snd

theorem answerAgain {h : BitVec 512} {body : List Byte} {ok : Bool} (hk : Keeps s0 s) :
    Keeps s0 (s.answerAgain h body ok) := by
  unfold State.answerAgain
  split
  · exact hk.respond
  · split
    · exact hk.respond
    · exact hk.respond
  · exact hk.cachedAtomic_snd
  · split
    · exact hk
    · exact hk.respond

theorem memoryArrives {h : BitVec 512} {body : List Byte} {ok : Bool} (hk : Keeps s0 s) :
    Keeps s0 (s.memoryArrives h body ok) := by
  unfold State.memoryArrives
  extract_lets
  split
  · exact hk.answerAgain
  · split
    · exact .ite hk.applyMemory_snd.drainHeld hk.applyMemory_snd
    · exact .ite hk (.ite hk hk.modStream)

theorem execWrite {p : Pkt} (hw : wf → ¬18 ≤ p.port) (hk : Keeps s0 s) : OfOut s0 wf (execWrite p s) := by
  unfold Machine.execWrite
  exact hk.pktReceive hw fun ht => .next ht.memoryArrives

theorem execRead {p : Pkt} {dataOk : Bool} (hw : wf → ¬18 ≤ p.port) (hk : Keeps s0 s) :
    OfOut s0 wf (execRead p dataOk s) := by
  unfold Machine.execRead
  exact hk.pktReceive hw fun ht => .next ht.memoryArrives

theorem execAtomic {p : Pkt} (hw : wf → ¬18 ≤ p.port) (hk : Keeps s0 s) : OfOut s0 wf (execAtomic p s) := by
  unfold Machine.execAtomic
  exact hk.pktReceive hw fun ht => .next ht.memoryArrives

theorem execCopy {p : Pkt} {dataOk : Bool} (hw : wf → ¬18 ≤ p.port) (hk : Keeps s0 s) :
    OfOut s0 wf (execCopy p dataOk s) := by
  unfold Machine.execCopy
  exact hk.pktReceive hw fun ht => .next ht.memoryArrives

theorem answerAttend {h : BitVec 512} {body : List Byte} {status tiles bad : Nat} {groups : List Byte}
    (hk : Keeps s0 s) : Keeps s0 (s.answerAttend h body status tiles bad groups) := by
  unfold State.answerAttend
  exact hk.respond

theorem promoteExtent {node pen : Nat} {wanted : Extent → Bool} (hk : Keeps s0 s) :
    Keeps s0 (s.promoteExtent node pen wanted) := by
  unfold State.promoteExtent
  split
  · exact hk
  · refine hk.foldl fun ht => ?_
    split
    · exact ht
    · split
      · exact ht.setGrant
      · exact ht.demoteFor

theorem promoteAttend {h : BitVec 512} {body : List Byte} (hk : Keeps s0 s) : Keeps s0 (s.promoteAttend h body) := by
  unfold State.promoteAttend
  exact hk.promoteExtent.foldl fun ht => ht.askPromotion

theorem serveAttend {h : BitVec 512} {body : List Byte} {failed : Option Nat} (hk : Keeps s0 s) :
    Keeps s0 (s.serveAttend h body failed) := by
  unfold State.serveAttend
  extract_lets +onlyGivenNames _
  split
  · exact hk.answerAttend
  · exact hk.answerAttend

theorem execAttendReq {p : Pkt} {failed : Option Nat} (hw : wf → ¬18 ≤ p.port) (hk : Keeps s0 s) :
    OfOut s0 wf (execAttendReq p failed s) := by
  unfold Machine.execAttendReq
  refine hk.serviceReceive hw fun ht => ?_
  extract_lets +onlyGivenNames _ _
  refine .ite (.next ht.answerAttend) (.ite (.next ht.answerAttend) ?_)
  extract_lets +onlyGivenNames _ lost
  cases lost with
  | some o => exact .next ht.answerAttend
  | none => exact .next (.promoteAttend (ht.update rfl))

theorem execSearchReq {p : Pkt} (hw : wf → ¬18 ≤ p.port) (hk : Keeps s0 s) : OfOut s0 wf (execSearchReq p s) := by
  unfold Machine.execSearchReq
  refine hk.serviceReceive hw fun ht => ?_
  extract_lets +onlyGivenNames _
  split
  · exact .next ht.respond
  · split
    · exact .next ht.respond
    · extract_lets +onlyGivenNames _ _
      split
      · exact .next ht.respond
      · exact .ite (.next ht.respond) (.ite (.next ht.bumpPen.respond) (.next ht.modIndex))

/-! ### The partner mirror -/

theorem nowRunnable {before : Option SessState} {h : Handle} (hk : Keeps s0 s) :
    Keeps s0 (s.nowRunnable before h) := by
  unfold State.nowRunnable
  split
  · exact hk
  · split
    · exact hk.runnableSteps.handBack
    · exact hk

theorem execLedgerCommit {h : Handle} (hk : Keeps s0 s) : OfOut s0 wf (execLedgerCommit h s) := by
  unfold Machine.execLedgerCommit
  exact .ite (.next hk.settleGroup.nowRunnable) hk.stutter

theorem execLedgerWriteBehind (hk : Keeps s0 s) : OfOut s0 wf (execLedgerWriteBehind s) := by
  unfold Machine.execLedgerWriteBehind
  extract_lets +onlyGivenNames s1
  have hs1 : Keeps s0 s1 := (hk.foldl fun ht => ht.flashSession)
  exact .next (hs1.update rfl)

theorem sendOwed {d : Nat} {items : List (List Byte)} (hk : Keeps s0 s) : Keeps s0 (s.sendOwed d items) := by
  unfold State.sendOwed
  extract_lets +onlyGivenNames _ _ s0' s1
  have hs0' : Keeps s0 s0' := (Keeps.ite (hk.update rfl) hk)
  have hs1 : Keeps s0 s1 := (hs0'.foldl fun ht => .request (ht.update rfl))
  split
  · exact hs1.update rfl
  · exact hs1

theorem dropAll {d : Nat} (hk : Keeps s0 s) : Keeps s0 (s.dropAll d) := by
  unfold State.dropAll
  exact hk.request

theorem partnerReady {n : BitVec 13} (hk : Keeps s0 s) : Keeps s0 (s.partnerReady n) := by
  unfold State.partnerReady
  extract_lets +onlyGivenNames _ _ s2
  have hs2 : Keeps s0 s2 := .raise (hk.update rfl)
  split
  · split
    · exact hs2
    · exact hs2.dropAll
  · exact hs2

theorem partnerRestored {n : BitVec 13} (hk : Keeps s0 s) : Keeps s0 (s.partnerRestored n) := by
  unfold State.partnerRestored
  exact .raise (hk.update rfl)

theorem syncStep (hk : Keeps s0 s) : Keeps s0 s.syncStep := by
  unfold State.syncStep
  split
  · exact hk
  · refine .ite hk ?_
    extract_lets +onlyGivenNames _
    refine .ite hk.sendOwed.setPartner (.ite ?_ (.ite hk.partnerReady hk.partnerRestored))
    exact hk.setPartner.foldl fun ht => ht.request

theorem dropRequests {d : Nat} {p : ReqUse → Bool} (hk : Keeps s0 s) : Keeps s0 (s.dropRequests d p) := by
  unfold State.dropRequests
  exact hk.update rfl

theorem applyUnmirrored (hk : Keeps s0 s) : Keeps s0 s.applyUnmirrored := by
  unfold State.applyUnmirrored
  exact hk.foldl fun ht => ht.regMirrored

theorem enterFallback (hk : Keeps s0 s) : Keeps s0 s.enterFallback := by
  unfold State.enterFallback
  split
  · exact hk
  · split
    · exact hk
    · exact hk.dropRequests.setPartner.raise.applyUnmirrored.foldl fun ht => ht.commitHandoff

theorem execPartnerRetry (hk : Keeps s0 s) : OfOut s0 wf (execPartnerRetry s) := by
  unfold Machine.execPartnerRetry
  extract_lets +onlyGivenNames _ _ _ s2 _
  have hs2 : Keeps s0 s2 := hk.at_.setClock
  split
  · exact .next hs2
  · split
    · exact .next (.syncStep (hs2.update rfl))
    · exact .ite (.next hs2.request) (.next hs2)
    · exact .next hs2

theorem recordsAcked {d seq : Nat} (hk : Keeps s0 s) : Keeps s0 (s.recordsAcked d seq) := by
  unfold State.recordsAcked
  split
  · exact hk.syncStep
  · split
    · extract_lets +onlyGivenNames _ s1
      have hs1 : Keeps s0 s1 := hk.update rfl
      split
      · split
        · exact hs1.syncStep
        · exact .syncStep (hs1.update rfl)
      · exact hs1.update rfl
    · exact hk

theorem mirrorFailed {d : Nat} (hk : Keeps s0 s) : Keeps s0 (s.mirrorFailed d) := by
  unfold State.mirrorFailed
  split
  · exact hk.dropRequests.setPartner
  · split
    · exact hk.enterFallback
    · exact hk

theorem answerRead {h : Handle} {hdr : BitVec 512} (hk : Keeps s0 s) : Keeps s0 (s.answerRead h hdr) := by
  unfold State.answerRead
  split
  · exact hk.respond
  · exact hk.respond

theorem registryFree (hk : Keeps s0 s) : Keeps s0 s.registryFree := by
  unfold State.registryFree
  extract_lets _ _ _ s1
  have hs1 : Keeps s0 s1 := hk.update rfl
  refine hs1.foldl fun ht => ?_
  split
  · exact ht.answerRead
  · exact ht.submitReg

theorem partnerSolo (hk : Keeps s0 s) : Keeps s0 s.partnerSolo := by
  unfold State.partnerSolo
  extract_lets +onlyGivenNames drop _ _ _ s1 _ _ s2 s3
  have hdrop : ∀ {t n}, Keeps s0 t → Keeps s0 (drop t n) := by
    intro t n ht
    unfold drop
    split
    · exact ht.dropAll
    · exact ht
  have hs1 : Keeps s0 s1 := hk.foldl fun ht => ht.dropRequests
  have hs2 : Keeps s0 s2 := hs1.update rfl
  have hs3 : Keeps s0 s3 := (hs2.applyUnmirrored.foldl fun ht => ht.commitHandoff).registryFree
  exact hdrop (hdrop hs3)

theorem partnerNew {n : BitVec 13} (hk : Keeps s0 s) : Keeps s0 (s.partnerNew n) := by
  unfold State.partnerNew
  extract_lets +onlyGivenNames _ s1
  have hs1 : Keeps s0 s1 := by
    unfold s1
    split
    · exact hk.dropRequests.dropAll
    · exact hk
  exact .registryFree (.syncStep (hs1.update rfl))

theorem execLedgerPartnerSet {mb : Mb} (hk : Keeps s0 s) : OfOut s0 wf (execLedgerPartnerSet mb s) := by
  unfold Machine.execLedgerPartnerSet
  exact hk.mbRun fun ht => .ite (.now _ ht.partnerSolo) (.ite (.now _ ht) (.ite (.now _ ht) (.now _ ht.partnerNew)))

theorem standIn (hk : Keeps s0 s) : Keeps s0 s.standIn := by
  unfold State.standIn
  exact hk.update rfl

theorem execNodeDown {mb : Mb} (hk : Keeps s0 s) : OfOut s0 wf (execNodeDown mb s) := by
  unfold Machine.execNodeDown
  exact hk.mbRun fun ht => .ite (.now _ ht.standIn) (.now _ ht)

/-! ### Operations of other nodes -/

theorem finishFetch {h : Handle} {more : List Rec} {header : Option (List Byte)} (hk : Keeps s0 s) :
    Keeps s0 (s.finishFetch h more header) := by
  unfold State.finishFetch
  split
  · exact hk
  · exact hk.modSess.recover

theorem regrowAs {h : Handle} {x : Session} (hk : Keeps s0 s) : Keeps s0 (s.regrowAs h x) := by
  unfold State.regrowAs
  extract_lets +onlyGivenNames _ s1
  have hs1 : Keeps s0 s1 := .regLife_fst (.raise (.bumpPen (.bumpPen (hk.update rfl))))
  split
  · exact hs1.request
  · exact hs1.finishFetch

theorem regrowHome {h : Handle} (hk : Keeps s0 s) : Keeps s0 (s.regrowHome h) := by
  unfold State.regrowHome
  split
  · exact hk
  · exact hk.regrowAs

theorem registryReceive {p : Pkt} {op n : Nat} {body : State → Handle → State}
    (hk : Keeps s0 s) (hw : wf → ¬18 ≤ p.port)
    (hb : ∀ {t h}, Keeps s0 t → Keeps s0 (body t h)) : OfOut s0 wf (registryReceive s p op n body) :=
  hk.serviceReceive hw fun ht =>
    .ite (.next ht.respond) (.ite (.next ht.respond) (.ite (.next ht.respond) (.next (hb ht))))

theorem holdReg {h : Handle} {op : Nat} {p : Pkt} (hk : Keeps s0 s) : Keeps s0 (s.holdReg h op p) := by
  unfold State.holdReg
  extract_lets +onlyGivenNames _ _
  split
  · exact hk
  · exact hk.update rfl

theorem takeReg {h : Handle} {op : Nat} {p : Pkt} (hk : Keeps s0 s) : Keeps s0 (s.takeReg h op p) := by
  unfold State.takeReg
  split
  · exact hk.holdReg
  · split
    · exact hk
    · exact hk.submitReg

theorem execRegRead {p : Pkt} (hw : wf → ¬18 ≤ p.port) (hk : Keeps s0 s) : OfOut s0 wf (execRegRead p s) := by
  unfold Machine.execRegRead
  exact hk.registryReceive hw fun ht => Keeps.ite ht.holdReg ht.answerRead

theorem execRegOffer {p : Pkt} (hw : wf → ¬18 ≤ p.port) (hk : Keeps s0 s) : OfOut s0 wf (execRegOffer p s) := by
  unfold Machine.execRegOffer
  exact hk.registryReceive hw fun ht => ht.takeReg

theorem execRegCommit {p : Pkt} (hw : wf → ¬18 ≤ p.port) (hk : Keeps s0 s) : OfOut s0 wf (execRegCommit p s) := by
  unfold Machine.execRegCommit
  exact hk.registryReceive hw fun ht => ht.takeReg

theorem execRegWithdraw {p : Pkt} (hw : wf → ¬18 ≤ p.port) (hk : Keeps s0 s) : OfOut s0 wf (execRegWithdraw p s) := by
  unfold Machine.execRegWithdraw
  exact hk.registryReceive hw fun ht => ht.takeReg

theorem execRegLife {p : Pkt} (hw : wf → ¬18 ≤ p.port) (hk : Keeps s0 s) : OfOut s0 wf (execRegLife p s) := by
  unfold Machine.execRegLife
  exact hk.registryReceive hw fun ht => ht.takeReg

theorem execRegRetire {p : Pkt} (hw : wf → ¬18 ≤ p.port) (hk : Keeps s0 s) : OfOut s0 wf (execRegRetire p s) := by
  unfold Machine.execRegRetire
  exact hk.registryReceive hw fun ht => ht.takeReg

theorem execRegRegrow {p : Pkt} (hw : wf → ¬18 ≤ p.port) (hk : Keeps s0 s) : OfOut s0 wf (execRegRegrow p s) := by
  unfold Machine.execRegRegrow
  exact hk.serviceReceive hw fun ht => .ite (.next ht.respond) (.next (ht.foldl fun ht' => ht'.regrowHome).respond)

theorem storeMirror {src : Nat} {e : RegEntry} (hk : Keeps s0 s) : Keeps s0 (s.storeMirror src e) := by
  unfold State.storeMirror
  extract_lets +onlyGivenNames _
  split
  · exact hk.update rfl
  · split
    · exact hk.update rfl
    · exact hk.update rfl

theorem execRegMirror {p : Pkt} (hw : wf → ¬18 ≤ p.port) (hk : Keeps s0 s) : OfOut s0 wf (execRegMirror p s) := by
  unfold Machine.execRegMirror
  exact hk.serviceReceive hw fun ht => .ite (.next ht.respond)
      (.ite (.next ht.respond) (.ite (.next ht.respond) (.next ht.storeMirror.respond)))

theorem applyBatch {h : BitVec 512} {body : List Byte} (hk : Keeps s0 s) : Keeps s0 (s.applyBatch h body) := by
  unfold State.applyBatch
  exact .respond (hk.update rfl)

theorem drainBatches {n : Nat} (hk : Keeps s0 s) : Keeps s0 (State.drainBatches n s) := by
  induction n generalizing s with
  | zero => exact hk
  | succ n ih =>
    unfold State.drainBatches
    split
    · exact hk
    · extract_lets _ s1
      have hs1 : Keeps s0 s1 := hk.update rfl
      exact ih hs1.applyBatch

theorem mirrorReceive {p : Pkt} {mine : Nat → Bool} {body : State → State} (hk : Keeps s0 s) (hw : wf → ¬18 ≤ p.port)
    (hb : ∀ {t}, Keeps s0 t → Keeps s0 (body t)) : OfOut s0 wf (mirrorReceive s p mine body) :=
  hk.serviceReceive hw fun ht => .ite (.next ht.respond) (.ite (.next ht.respond) (.next (hb ht)))

theorem execRecords {p : Pkt} (hw : wf → ¬18 ≤ p.port) (hk : Keeps s0 s) : OfOut s0 wf (execRecords p s) := by
  unfold Machine.execRecords
  exact hk.mirrorReceive hw fun ht => Keeps.ite ht.respond
      (Keeps.ite ht.respond (Keeps.ite ht.applyBatch.drainBatches (Keeps.ite ht (ht.update rfl))))

theorem execFetchRecords {p : Pkt} (hw : wf → ¬18 ≤ p.port) (hk : Keeps s0 s) :
    OfOut s0 wf (execFetchRecords p s) := by
  unfold Machine.execFetchRecords
  exact hk.mirrorReceive hw fun ht => Keeps.ite ht.respond ht.respond

theorem dropMirror {all : Bool} {hs : List Handle} (hk : Keeps s0 s) : Keeps s0 (s.dropMirror all hs) := by
  unfold State.dropMirror
  exact hk.update rfl

theorem execDrop {p : Pkt} (hw : wf → ¬18 ≤ p.port) (hk : Keeps s0 s) : OfOut s0 wf (execDrop p s) := by
  unfold Machine.execDrop
  exact hk.mirrorReceive hw fun ht => Keeps.ite ht.respond ht.dropMirror.respond

theorem noticeReceive {p : Pkt} {k : Nat} {body : State → Handle → State} (hk : Keeps s0 s) (hw : wf → ¬18 ≤ p.port)
    (hb : ∀ {t h}, Keeps s0 t → Keeps s0 (body t h)) : OfOut s0 wf (noticeReceive s p k body) :=
  hk.serviceReceive hw fun ht => .ite (.next ht.respond) (.next (hb ht))

theorem answerAsk {hdr : BitVec 512} {i : Incoming} (hk : Keeps s0 s) : Keeps s0 (s.answerAsk hdr i) := by
  unfold State.answerAsk
  exact hk.respond

theorem execHandoffAsk {p : Pkt} (hw : wf → ¬18 ≤ p.port) (hk : Keeps s0 s) : OfOut s0 wf (execHandoffAsk p s) := by
  unfold Machine.execHandoffAsk
  refine hk.noticeReceive hw fun ht => ?_
  extract_lets _ _ same
  refine .ite ht.respond ?_
  cases same with
  | some i => exact ht.answerAsk
  | none =>
    dsimp only
    split
    · exact ht.respond
    · next answer => exact Keeps.answerAsk (ht.reserveIncoming _ answer)

theorem execHomeChanged {p : Pkt} (hw : wf → ¬18 ≤ p.port) (hk : Keeps s0 s) : OfOut s0 wf (execHomeChanged p s) := by
  unfold Machine.execHomeChanged
  refine hk.noticeReceive hw fun ht => ?_
  extract_lets +onlyGivenNames _ s1
  have hs1 : Keeps s0 s1 := by
    unfold s1
    split
    · exact ht
    · split
      · exact ht
      · split
        · exact ht.homeLeft
        · exact ht.regCall
  exact hs1.respond

theorem giveBack {d : Nat} {hdr : BitVec 512} (hk : Keeps s0 s) : Keeps s0 (s.giveBack d hdr) := by
  unfold State.giveBack
  extract_lets +onlyGivenNames _ _ s1
  have hs1 : Keeps s0 s1 := hk.update rfl
  split
  · exact hs1.respond
  · exact hs1.foldl fun ht => ht.request

theorem execRestarted {p : Pkt} (hw : wf → ¬18 ≤ p.port) (hk : Keeps s0 s) : OfOut s0 wf (execRestarted p s) := by
  unfold Machine.execRestarted
  exact hk.noticeReceive hw fun ht => Keeps.ite ht.respond (Keeps.ite ht ht.giveBack)

theorem sendRestarted {d : Nat} (hk : Keeps s0 s) : Keeps s0 (s.sendRestarted d) := by
  unfold State.sendRestarted
  exact hk.request

theorem execOfferExpiry {h : Handle} (hk : Keeps s0 s) : OfOut s0 wf (execOfferExpiry h s) := by
  unfold Machine.execOfferExpiry
  split
  · exact hk.stutter
  · exact .ite (.next hk.at_.modEntry.mirrorEntry) hk.stutter

theorem execHandoffCheck {h : Handle} (hk : Keeps s0 s) : OfOut s0 wf (execHandoffCheck h s) := by
  unfold Machine.execHandoffCheck
  split
  · exact hk.stutter
  · exact .ite (.next hk.at_.regCall) hk.stutter

theorem dropGrants (hk : Keeps s0 s) : Keeps s0 s.dropGrants := by
  unfold State.dropGrants
  exact hk.setCommons.foldl fun ht => (Keeps.ite ht ht.raise)

theorem execDrainFenceEnd (hk : Keeps s0 s) : OfOut s0 wf (execDrainFenceEnd s) := by
  unfold Machine.execDrainFenceEnd
  split
  · exact hk.stutter
  · exact .ite hk.stutter (.next hk.at_.setCommons.dropGrants)

theorem routePort {p : Nat} (hk : Keeps s0 s) : Keeps s0 (s.routePort p) := by
  unfold State.routePort
  split
  · split
    · exact hk.askWake.modPort
    · exact hk
  · exact hk

theorem execRouteSet {mb : Mb} (hk : Keeps s0 s) : OfOut s0 wf (execRouteSet mb s) := by
  unfold Machine.execRouteSet
  refine hk.mbRun fun ht => ht.unlessBad (.ite (.now _ ht.setCommons) (.now _ (.joinRoute ?_)))
  exact (Keeps.ite ht.setCommons ht.setCommons.sendRestarted).foldl fun ht' => ht'.routePort

theorem losePools {old : List MapRec} (hk : Keeps s0 s) : Keeps s0 (s.losePools old) := by
  unfold State.losePools
  extract_lets +onlyGivenNames _ _ s1 _
  have hs1 : Keeps s0 s1 := (hk.foldl fun ht => ht.abandonMove)
  exact hs1.foldl fun ht => ht.faultSession

theorem leavePools (hk : Keeps s0 s) : Keeps s0 s.leavePools := by
  unfold State.leavePools
  extract_lets +onlyGivenNames _ s1
  have hs1 : Keeps s0 s1 := (hk.foldl fun ht => (ht.foldl fun ht' => ht'.queueMove))
  exact hs1.foldl fun ht => ht.checkDrained

theorem installMap {epoch : Nat} {m : List MapRec} (hk : Keeps s0 s) : Keeps s0 (s.installMap epoch m) := by
  unfold State.installMap
  exact .handBackAll (.leavePools (.losePools (hk.update rfl)))

theorem execCompositionSet {mb : Mb} {map : List Byte} (hk : Keeps s0 s) :
    OfOut s0 wf (execCompositionSet mb map s) := by
  unfold Machine.execCompositionSet
  exact hk.mbRun fun ht => ht.unlessBad (.now _ ht.installMap)

/-! ### Checkpoint and restore -/

theorem storePut {gw op : Nat} {key data : List Byte} (hk : Keeps s0 s) : Keeps s0 (s.storePut gw op key data) := by
  unfold State.storePut
  exact hk.foldl fun ht => ht.request

theorem readContent {h : Handle} {x : Session} (hk : Keeps s0 s) : Keeps s0 (s.readContent h x) := by
  unfold State.readContent
  split
  · exact hk
  · exact hk.foldl fun ht => (Keeps.ite ht ht.request)

theorem writeContent {gw pen : Nat} {name plain : List Byte} (hk : Keeps s0 s) :
    Keeps s0 (s.writeContent gw pen name plain) := by
  unfold State.writeContent
  extract_lets +onlyGivenNames _
  split
  · exact hk.bumpPen
  · exact hk.storePut.bumpPen

theorem writeSession {c : Checkpoint} {h : Handle} {x : Session} (hk : Keeps s0 s) :
    Keeps s0 (s.writeSession c h x) := by
  unfold State.writeSession
  extract_lets _ _ s1 _ d obj s2
  have hs1 : Keeps s0 s1 := hk.foldl fun ht => ht.writeContent
  have hd : Keeps s0 d.2 := hs1.draw_snd
  have hs2 : Keeps s0 s2 := hd.storePut.bumpPen
  exact hs2.setHarvest

theorem writeIndexes {c : Checkpoint} (hk : Keeps s0 s) : Keeps s0 (s.writeIndexes c) := by
  unfold State.writeIndexes
  extract_lets +onlyGivenNames _ _ _ s1
  have hs1 : Keeps s0 s1 := by
    refine hk.foldl fun ht => ?_
    extract_lets t1 _ d obj t2
    have ht1 : Keeps s0 t1 := ht.foldl fun h => h.writeContent
    have hd : Keeps s0 d.2 := ht1.draw_snd
    have ht2 : Keeps s0 t2 := hd.storePut.bumpPen
    exact ht2.setHarvest
  exact hs1.setHarvest

theorem modCheckpoint {g : Checkpoint → Checkpoint} (hk : Keeps s0 s) : Keeps s0 (s.modCheckpoint g) := by
  unfold State.modCheckpoint
  exact hk.update rfl

theorem uncapture (hk : Keeps s0 s) : Keeps s0 s.uncapture := by
  unfold State.uncapture
  exact hk.update rfl

theorem oweLeftover {gw : Nat} {keys : List (List Byte)} (hk : Keeps s0 s) : Keeps s0 (s.oweLeftover gw keys) := by
  unfold State.oweLeftover
  exact hk.update rfl

theorem endCheckpoint {outcome : Nat} (hk : Keeps s0 s) : Keeps s0 (s.endCheckpoint outcome) := by
  unfold State.endCheckpoint
  split
  · exact hk
  · extract_lets +onlyGivenNames _ _ _ _ _ s1 _ s2
    have hs1 : Keeps s0 s1 := .uncapture (hk.update rfl)
    have hs2 : Keeps s0 s2 := by
      unfold s2
      split
      · split
        · exact .storePut (hs1.update rfl)
        · exact hs1
      · split
        · exact hs1.storePut
        · exact hs1.oweLeftover
    exact hs2.raise

theorem startManifest {c : Checkpoint} (hk : Keeps s0 s) : Keeps s0 (s.startManifest c) := by
  unfold State.startManifest
  extract_lets +onlyGivenNames _ _ _ s1
  have hs1 : Keeps s0 s1 := (hk.foldl fun ht => ht.storePut)
  exact hs1.modCheckpoint

theorem checkpointStep (hk : Keeps s0 s) : Keeps s0 s.checkpointStep := by
  unfold State.checkpointStep
  split
  · exact hk
  · extract_lets +onlyGivenNames _ _
    split
    · exact hk.endCheckpoint
    · split
      · exact hk
      · split
        · extract_lets +onlyGivenNames s1 s2 s3 _
          have hs1 : Keeps s0 s1 := (hk.foldl fun ht => ht.captureSession)
          have hs2 : Keeps s0 s2 := (hs1.foldl fun ht => (Keeps.ite ht (Keeps.ite ht.writeSession ht.readContent)))
          have hs3 : Keeps s0 s3 := (Keeps.ite hs2 hs2.writeIndexes)
          split
          · split
            · exact hs3
            · exact hs3.startManifest
          · exact hs3
        · split
          · exact hk
          · exact hk.storePut.modCheckpoint
        · split
          · exact hk
          · exact hk.request.modCheckpoint
        · exact hk

theorem storeAnswered {gw : Nat} {key : List Byte} {ok : Bool} (hk : Keeps s0 s) :
    Keeps s0 (s.storeAnswered gw key ok) := by
  unfold State.storeAnswered
  extract_lets +onlyGivenNames _
  split
  · split
    · extract_lets +onlyGivenNames _ _
      split
      · exact hk
      · exact hk.update rfl
    · exact hk
  · split
    · exact hk
    · exact hk.endCheckpoint

theorem keepLeftover {gw : Nat} {body : List Byte} (hk : Keeps s0 s) : Keeps s0 (s.keepLeftover gw body) := by
  unfold State.keepLeftover
  exact hk.oweLeftover

theorem commitAnswered {status : Nat} (hk : Keeps s0 s) : Keeps s0 (s.commitAnswered status) := by
  unfold State.commitAnswered
  split
  · exact hk
  · split
    · exact .endCheckpoint (hk.update rfl)
    · exact hk.endCheckpoint

theorem harvestGot {h : Handle} {ly o : Nat} {data : Option (List Byte)} (hk : Keeps s0 s) :
    Keeps s0 (s.harvestGot h ly o data) := by
  unfold State.harvestGot
  split
  · exact hk.update rfl
  · exact hk.update rfl

theorem execCheckpoint {mb : Mb} {name : List Byte} (hk : Keeps s0 s) : OfOut s0 wf (execCheckpoint mb name s) := by
  unfold Machine.execCheckpoint
  exact hk.mbRun fun ht => ht.unlessBad (.ite (.now _ ht.retryLater_fst) (.now _ (.uncapture (ht.update rfl))))

theorem endRestore {outcome : Nat} (hk : Keeps s0 s) : Keeps s0 (s.endRestore outcome) := by
  unfold State.endRestore
  exact .raise (hk.update rfl)

theorem execRestore {mb : Mb} {name part0 : List Byte} {certOk : Bool} (hk : Keeps s0 s) :
    OfOut s0 wf (execRestore mb name part0 certOk s) := by
  unfold Machine.execRestore
  refine hk.mbRun fun ht => ht.unlessBad (.ite (.now _ ht.retryLater_fst)
    (.ite (.now _ ht) (.ite (.now _ ht) (.ite (.now _ ht) (.now _ ?_)))))
  exact ht.setHarvest.foldl fun ht' => ht'.request

theorem installManifest {p : Part0} {bs : List Byte}
    (hk : Keeps s0 s) : ∀ r, s.installManifest p bs = some r → Keeps s0 r.1 := by
  intro r found
  unfold State.installManifest at found
  extract_lets +onlyGivenNames _ _ _ _ _ _ _ _ _ _ _ s1 s2 s3 put at found
  have hs1 : Keeps s0 s1 := by
    refine hk.foldl fun ht => .ite ht (ht.newPen ?_)
    rfl
  have hs2 : Keeps s0 s2 := hs1.foldl fun ht => ht.update rfl
  have hs3 : Keeps s0 s3 := by
    refine hs2.foldl fun ht => ?_
    split
    · exact ht.modPen fun _ w => w
    · exact ht
  have hput : ∀ {t e}, Keeps s0 t → Keeps s0 (put t e) := by
    intro t e ht
    exact .ite (ht.update rfl) (ht.update rfl)
  clear_value s3
  split at found
  · cases found
  · injection found with found
    rw [← found]
    refine .foldl ?_ fun ht => (hput ht).mirrorEntry
    exact .ite (hs3.update rfl) hs3

theorem tryEndRestore (hk : Keeps s0 s) : Keeps s0 s.tryEndRestore := by
  unfold State.tryEndRestore
  split
  · exact hk
  · extract_lets +onlyGivenNames _
    split
    · exact hk.endRestore
    · exact hk

theorem restoreSession {h : Handle} (hk : Keeps s0 s) : Keeps s0 (s.restoreSession h) := by
  unfold State.restoreSession
  extract_lets +onlyGivenNames _ _ _ s1
  have hs1 : Keeps s0 s1 := .regLife_fst (.raise (.bumpPen (.bumpPen (hk.update rfl))))
  split
  · exact hs1.request
  · exact hs1.recover

theorem applyManifest {r : Restore} (hk : Keeps s0 s) : Keeps s0 (s.applyManifest r) := by
  unfold State.applyManifest
  extract_lets
  split
  · exact hk.endRestore
  · next found =>
    have installed := hk.installManifest _ found
    extract_lets _ t1 _
    have ht1 : Keeps s0 t1 := installed.setHarvest
    exact (ht1.foldl fun ht => ht.restoreSession).tryEndRestore

theorem partGot {k : Nat} (hk : Keeps s0 s) : Keeps s0 (s.partGot k) := by
  unfold State.partGot
  split
  · exact hk
  · extract_lets +onlyGivenNames _ _
    split
    · exact hk.endRestore
    · split
      · exact hk
      · exact hk.applyManifest

theorem sessionGot {h : Handle} {bs : List Byte} (hk : Keeps s0 s) : Keeps s0 (s.sessionGot h bs) := by
  unfold State.sessionGot
  split
  · split
    · exact hk.recoverFromLedger
    · extract_lets +onlyGivenNames _ _ _ _ _ _ _
      split
      · exact hk.recoverFromLedger
      · extract_lets +onlyGivenNames _ _ s1 _ _
        have hs1 : Keeps s0 s1 := hk.modSess.bumpPen
        split
        · exact hk.recoverFromLedger
        · split
          · exact hs1.planRegrowth
          · exact hs1.foldl fun ht => ht.request
  · exact hk

theorem sheafGot {h : Handle} {ly o : Nat} {name : List Byte} {plain : Option (List Byte)}
    (hk : Keeps s0 s) : Keeps s0 (s.sheafGot h ly o name plain) := by
  unfold State.sheafGot
  extract_lets _ s1
  have hs1 : Keeps s0 s1 := by
    unfold s1
    split
    · split
      · extract_lets
        split
        · split
          · exact hk
          · next found =>
            split at found
            · exact (hk.newRun _ found).modSess
            · cases found
              exact hk.modSess
        · exact hk
      · exact hk
    · exact hk
  exact .ite hs1 hs1.planRegrowth

theorem getAnswered {gw : Nat} {what : GetUse} {body : List Byte} {data : Option (List Byte)}
    (hk : Keeps s0 s) : Keeps s0 (s.getAnswered gw what body data) := by
  unfold State.getAnswered
  extract_lets +onlyGivenNames _ _
  split
  · extract_lets +onlyGivenNames _ _ _
    split
    · exact .request (hk.update rfl)
    · split
      · exact .partGot (hk.update rfl)
      · refine .tryEndRestore ?_
        split
        · exact .sessionGot (hk.update rfl)
        · exact .recoverFromLedger (hk.update rfl)
      · exact .tryEndRestore (.sheafGot (hk.update rfl))
  · extract_lets +onlyGivenNames _ _
    split
    · split
      · exact hk.endRestore
      · exact hk.partGot
    · exact .tryEndRestore (.recoverFromLedger (hk.update rfl))
    · exact .tryEndRestore (.sheafGot (hk.update rfl))

/-! ### What answers settle -/

theorem forgetRequest {id : Nat} (hk : Keeps s0 s) : Keeps s0 (s.forgetRequest id) := by
  unfold State.forgetRequest
  exact hk.update rfl

theorem modRequest {id : Nat} {g : Request → Request} (hk : Keeps s0 s) : Keeps s0 (s.modRequest id g) := by
  unfold State.modRequest
  exact hk.update rfl

theorem askElsewhere {r : Request} (hk : Keeps s0 s) : Keeps s0 (s.askElsewhere r) := by
  unfold State.askElsewhere
  extract_lets +onlyGivenNames _ _ _
  split
  · exact hk.modRequest
  · split
    · exact hk.forgetRequest.regCall
    · split
      · exact hk.modRequest
      · exact hk.forgetRequest.request

theorem depose {d : Nat} (hk : Keeps s0 s) : Keeps s0 (s.depose d) := by
  unfold State.depose
  split
  · exact hk
  · extract_lets _ _ _ _ s1
    have hs1 : Keeps s0 s1 := hk.update rfl
    refine hs1.foldl fun ht => ?_
    split
    · exact ht.respond
    · exact ht.request

theorem loseAt {p d : Nat} (hk : Keeps s0 s) : Keeps s0 (s.loseAt p d) := by
  unfold State.loseAt
  exact hk.foldl fun ht => ht.faultSession

theorem loseSheaf {h : Handle} {ly o : Nat} (hk : Keeps s0 s) : Keeps s0 (s.loseSheaf h ly o) := by
  unfold State.loseSheaf
  exact hk.foldl fun ht => ht.faultSession

theorem poolAllocated {m : Move} {off : Nat} (hk : Keeps s0 s) : Keeps s0 (s.poolAllocated m off) := by
  unfold State.poolAllocated
  split
  · exact hk.modMove.foldl fun ht => ht.request
  · exact hk.abandonMove

theorem poolRefused {m : Move} (hk : Keeps s0 s) : Keeps s0 (s.poolRefused m) := by
  unfold State.poolRefused
  extract_lets +onlyGivenNames s1 _
  have hs1 : Keeps s0 s1 := hk.bumpPen
  split
  · exact hs1.askAgain
  · exact hs1.abandonMove

theorem poolAnswered {m : Move} {status off : Nat} {data : List Byte} (hk : Keeps s0 s) :
    Keeps s0 (s.poolAnswered m status off data) := by
  unfold State.poolAnswered
  split
  · exact hk.modMove
  · extract_lets +onlyGivenNames s1
    have hs1 : Keeps s0 s1 := hk.abandonMove
    split
    · exact hs1
    · exact hs1
    · split
      · exact hs1.faultSheaf
      · split
        · exact hs1.loseAt
        · split
          · exact hs1.loseSheaf
          · exact hs1

theorem attendAnswered {f i ly node : Nat} {body : List Byte} {status : Nat} {payload : List Byte}
    (hk : Keeps s0 s) : Keeps s0 (s.attendAnswered f i ly node body status payload) := by
  unfold State.attendAnswered
  split
  · exact hk
  · split
    · exact hk
    · extract_lets +onlyGivenNames _ _
      split
      · exact hk.modPlanEntry.deliver.tryEndStalls
      · extract_lets +onlyGivenNames s1
        have hs1 : Keeps s0 s1 := hk.bumpPen
        split
        · exact hs1.faultSheaf
        · split
          · exact hs1.regAway
          · exact hs1

theorem askAnswered {h : Handle} {status result : Nat} (hk : Keeps s0 s) :
    Keeps s0 (s.askAnswered h status result) := by
  unfold State.askAnswered
  split
  · exact hk
  · split
    · exact hk.modSess.regCall
    · exact hk.stopHandoff

theorem incomingAnswered {h : Handle} (hk : Keeps s0 s) : Keeps s0 (s.incomingAnswered h) := by
  unfold State.incomingAnswered
  split
  · exact hk
  · exact hk.commitHandoff

theorem givenBack {hdr : BitVec 512} (hk : Keeps s0 s) : Keeps s0 (s.givenBack hdr) := by
  unfold State.givenBack
  split
  · exact hk
  · exact hk.respond

theorem settle {r : Request} {status result : Nat} {payload : List Byte} (hk : Keeps s0 s) :
    Keeps s0 (s.settle r status result payload) := by
  unfold State.settle
  extract_lets +onlyGivenNames _ _ s1 _ move
  have hs1 : Keeps s0 s1 := hk.forgetRequest
  have hmove : ∀ {i} {g : Move → State}, (∀ m, Keeps s0 (g m)) → Keeps s0 (move i g) := by
    intro i g hg
    unfold move
    split
    · exact hg _
    · exact hs1
  split
  · exact hs1.settleReg
  · exact hs1.settleReg
  · exact hs1.settleReg
  · exact hs1.settleReg
  · exact hs1.settleReg
  · exact hs1.askAnswered
  · exact .ite hs1.syncStep (.ite hs1.depose hs1.mirrorFailed)
  · exact .ite hs1.regMirrored (.ite hs1.depose hs1.mirrorFailed)
  · exact .ite hs1.recordsAcked hs1.mirrorFailed
  · exact .ite hs1.incomingAnswered hk.mirrorFailed.forgetRequest
  · exact (Keeps.ite hs1.finishFetch hs1.finishFetch).tryEndRestore
  · exact .ite hs1.registryFree hs1
  · exact hs1.givenBack
  · exact hmove fun m => .ite hs1.poolAllocated hs1.poolRefused
  · exact hmove fun m => .ite hs1 hs1.abandonMove
  · exact hmove fun m => hs1.poolAnswered
  · exact hs1.checkDrained
  · exact hs1.attendAnswered
  · exact hs1.respond
  · extract_lets +onlyGivenNames _ s2 s3
    have hs2 : Keeps s0 s2 := .ite hs1.dropRequests hs1
    have hs3 : Keeps s0 s3 := hs2.storeAnswered
    exact .ite hs3.keepLeftover hs3
  · exact hs1.commitAnswered
  · exact hs1.getAnswered
  · exact hs1.harvestGot
  all_goals exact hs1

theorem failRequest {r : Request} (hk : Keeps s0 s) : Keeps s0 (s.failRequest r) := by
  unfold State.failRequest
  extract_lets _ s1 move
  have hs1 : Keeps s0 s1 := hk.forgetRequest
  have hmove : ∀ {t i}, Keeps s0 t → Keeps s0 (move t i) := by
    intro t i ht
    unfold move
    split
    · exact ht.abandonMove
    · exact ht
  split
  · exact hk.askElsewhere
  · split
    · exact hs1.stopHandoff
    · exact hs1.mirrorFailed
    · exact hs1.mirrorFailed
    · exact hs1.mirrorFailed
    · exact hk.mirrorFailed.forgetRequest
    · exact hs1.finishFetch.tryEndRestore
    · exact .ite hs1.sendRestarted hs1
    · exact hs1.update rfl
    · exact hmove hs1.bumpDev
    · exact hmove hs1
    · exact hmove hs1
    · exact hs1.bumpDev.checkDrained
    · exact .ite hs1.storeAnswered.keepLeftover hs1.storeAnswered
    · exact hs1.commitAnswered
    · exact hs1.getAnswered
    · exact hs1.harvestGot
    all_goals exact hs1

theorem staleAnswer {r : Request} {inc : Nat} (hk : Keeps s0 s) : Keeps s0 (s.staleAnswer r inc) := by
  unfold State.staleAnswer
  extract_lets +onlyGivenNames _ _ _ s1 s2
  have hs1 : Keeps s0 s1 := (Keeps.ite hk (hk.update rfl))
  have hs2 : Keeps s0 s2 := (hs1.foldl fun ht => ht.failRequest)
  split
  · exact hs2
  · split
    · exact hs2.failRequest
    · exact hs2.reissue

theorem answered {r : Request} {status hint result : Nat} {payload : List Byte} (hk : Keeps s0 s) :
    Keeps s0 (s.answered r status hint result payload) := by
  unfold State.answered
  extract_lets +onlyGivenNames s'
  have hs' : Keeps s0 s' := (Keeps.ite hk.bumpDev hk)
  split
  · exact hs'.modRequest
  · split
    · exact hs'.staleAnswer
    · split
      · exact hs'.reissue
      · split
        · exact hs'.askElsewhere
        · exact hs'.settle

theorem execCommonsResponse {p : Pkt} (hw : wf → ¬18 ≤ p.port) (hk : Keeps s0 s) :
    OfOut s0 wf (execCommonsResponse p s) := by
  unfold Machine.execCommonsResponse
  refine hk.pktReceive hw fun ht => ?_
  extract_lets +onlyGivenNames _
  split
  · exact .next ht.bumpDev
  · extract_lets +onlyGivenNames _
    split
    · exact .next ht.learn
    · exact .ite (.next ht.learn) (.next ht.answered.learn)

theorem execRequestRetransmit {pktId : Nat} (hk : Keeps s0 s) : OfOut s0 wf (execRequestRetransmit pktId s) := by
  unfold Machine.execRequestRetransmit
  split
  · exact hk.stutter
  · split
    · exact hk.stutter
    · split
      · exact .next hk.at_.modRequest.resendRequest
      · extract_lets +onlyGivenNames s1
        have hs1 : Keeps s0 s1 := hk.at_
        exact .ite (.next hs1.modRequest.resendRequest) (.next hs1.failRequest)

theorem execRouteWaitExpiry {pktId : Nat} (hk : Keeps s0 s) : OfOut s0 wf (execRouteWaitExpiry pktId s) := by
  unfold Machine.execRouteWaitExpiry
  split
  · exact hk.stutter
  · split
    · exact hk.stutter
    · extract_lets +onlyGivenNames s1 _ s2
      have hs1 : Keeps s0 s1 := hk.at_
      have hs2 : Keeps s0 s2 := Keeps.ite hs1 hs1.bumpDev.raise
      exact .next hs2.failRequest

/-! ### The service plan -/

theorem serveEntry {a : ServiceEntry} (hk : Keeps s0 s) : Keeps s0 (s.serveEntry a) := by
  unfold State.serveEntry
  split
  · exact .serveAttend (hk.update rfl)
  · exact hk.searchStep
  · exact hk.modMove

theorem readyEntry {e : ServiceEntry} (hk : Keeps s0 s) : Keeps s0 (s.readyEntry e) := by
  unfold State.readyEntry
  extract_lets +onlyGivenNames s1
  have hs1 : Keeps s0 s1 := hk.askWakes
  split
  · exact hs1.promoteAttend
  · exact hs1

theorem serveEntries {es : List ServiceEntry} {left : Nat} (hk : Keeps s0 s) :
    Keeps s0 (State.serveEntries es left s) := by
  induction es generalizing left s with
  | nil => exact hk
  | cons e es ih =>
    unfold State.serveEntries
    extract_lets
    split
    · exact ih hk
    · split
      · exact ih hk.serveEntry
      · exact ih hk.readyEntry

theorem applyPenConfigs (hk : Keeps s0 s) : Keeps s0 s.applyPenConfigs := by
  unfold State.applyPenConfigs
  exact hk.foldl fun ht => (ht.foldl fun ht' => .mbFinish (ht'.modPen fun _ w => w))

theorem applySessionConfigs (hk : Keeps s0 s) : Keeps s0 s.applySessionConfigs := by
  unfold State.applySessionConfigs
  exact hk.foldl fun ht => ht.applyConfigs

theorem expireIncoming (hk : Keeps s0 s) : Keeps s0 s.expireIncoming := by
  unfold State.expireIncoming
  exact hk.foldl fun ht => ht.dropIncoming

theorem serviceUpkeep (hk : Keeps s0 s) : Keeps s0 s.serviceUpkeep := by
  unfold State.serviceUpkeep
  extract_lets +onlyGivenNames _ s2 s3 s4
  have hs2 : Keeps s0 s2 :=
      hk.applyPenConfigs.applySessionConfigs.ageCommits.retryCommits.demoteAll.expireIncoming.handBackAll
  have hs3 : Keeps s0 s3 := (hs2.foldl fun ht => ht.cancelLeases)
  have hs4 : Keeps s0 s4 := (hs3.foldl fun ht => ht.handoverStep)
  exact hs4.foldl fun ht => ht.restage

theorem channelGone {c : Nat} (hk : Keeps s0 s) : Keeps s0 (s.channelGone c) := by
  unfold State.channelGone
  extract_lets +onlyGivenNames _ _ _ _ _ _ s1
  have hs1 : Keeps s0 s1 := hk.setRecovery.setT2
  refine .ite hs1 ?_
  extract_lets
  exact hs1.setT2.foldl fun ht => ht.faultSession

theorem requeue {p : Move → Bool} (hk : Keeps s0 s) : Keeps s0 (s.requeue p) := by
  unfold State.requeue
  exact hk.foldl fun ht => ht.askAgain

theorem channelLeaves {c : Nat} (hk : Keeps s0 s) : Keeps s0 (s.channelLeaves c) := by
  unfold State.channelLeaves
  exact hk.requeue.channelGone.censusChange

theorem retireBlocks (hk : Keeps s0 s) : Keeps s0 s.retireBlocks := by
  unfold State.retireBlocks
  exact hk.draw_snd.foldl fun ht => .bumpDev (ht.update rfl)

theorem dropWorn (hk : Keeps s0 s) : Keeps s0 s.dropWorn := by
  unfold State.dropWorn
  exact hk.foldl fun ht => ht.channelLeaves

theorem serviceWork {left : Nat} (hk : Keeps s0 s) : Keeps s0 (s.serviceWork left) := by
  unfold State.serviceWork
  extract_lets _ s1 s2 s3 s4 s5
  have hs1 : Keeps s0 s1 := hk.update rfl
  have hs2 : Keeps s0 s2 := hs1.serveEntries
  have hs3 : Keeps s0 s3 := hs2.manageFlash.retireBlocks.dropWorn
  have hs4 : Keeps s0 s4 := hs3.foldl fun ht => ht.compact.tryDestroyIndex
  have hs5 : Keeps s0 s5 := hs4.foldl fun ht => ht.sketchForked
  exact hs5.checkpointStep

theorem execServicePlanStep (hk : Keeps s0 s) : OfOut s0 wf (execServicePlanStep s) := by
  unfold Machine.execServicePlanStep
  extract_lets +onlyGivenNames _ _ _ s2 _ _ _ _ g
  have hs2 : Keeps s0 s2 := hk.at_.setClock.serviceUpkeep
  have hg : Keeps s0 g.2 := hs2.grant_snd
  exact .ite (.next hg.tryEndStalls) (.next hg.serviceWork.tryEndStalls)

/-! ### The recovery ladder -/

theorem forgetCmds {p : Nat} (hk : Keeps s0 s) : Keeps s0 (s.forgetCmds p) := by
  unfold State.forgetCmds
  extract_lets +onlyGivenNames _ s1 s2
  have hs1 : Keeps s0 s1 := hk.update rfl
  have hs2 : Keeps s0 s2 := hs1.modPen fun _ w => w
  split
  · exact hs2
  · exact hs2.foldl fun ht => ht.freeGenerations.tryDestroyIndex

theorem undoOpen {h : Handle} {x : Session} (hk : Keeps s0 s) : Keeps s0 (s.undoOpen h x) := by
  unfold State.undoOpen
  extract_lets +onlyGivenNames s1 _ s3 s4
  have hs1 : Keeps s0 s1 := (hk.foldl fun ht => ht.dropRef)
  have hs3 : Keeps s0 s3 := hs1.modSess.retire.update rfl
  have hs4 : Keeps s0 s4 := by
    unfold s4
    split
    · exact hs3.request
    · exact hs3
  exact hs4.modSess.reap

theorem rewind {h : Handle} (hk : Keeps s0 s) : Keeps s0 (s.rewind h) := by
  unfold State.rewind
  split
  · exact hk
  · extract_lets +onlyGivenNames _
    split
    · exact hk.undoOpen
    · exact hk.modSess

theorem startReinit {p : Nat} {ladder : Bool} (hk : Keeps s0 s) : Keeps s0 (s.startReinit p ladder) := by
  unfold State.startReinit
  extract_lets +onlyGivenNames _ s1
  have hs1 : Keeps s0 s1 := hk.modPen fun _ w => w
  exact hs1.foldl fun ht => ht.complete

theorem execPenReinit {mb : Mb} (hk : Keeps s0 s) : OfOut s0 wf (execPenReinit mb s) := by
  unfold Machine.execPenReinit
  exact hk.mbRun fun ht => ht.withPen fun _ _ => .ite (.now _ ht.retryLater_fst) (.now _ ht.startReinit)

theorem clearMailbox {p : Nat} (hk : Keeps s0 s) : Keeps s0 (s.clearMailbox p) := by
  unfold State.clearMailbox
  refine .modMb ?_ fun _ _ => rfl
  split
  · exact .ite hk.mbWrite hk
  · exact hk

theorem execPenReinitRestart {p : Nat} (hk : Keeps s0 s) : OfOut s0 wf (execPenReinitRestart p s) := by
  unfold Machine.execPenReinitRestart
  split
  · exact hk.stutter
  · extract_lets +onlyGivenNames _ s1 _ s2 _ s4 _ s5
    have hs1 : Keeps s0 s1 := (hk.foldl fun ht => ht.complete).clearMailbox
    have hs2 : Keeps s0 s2 := (hs1.foldl fun ht => ht.rewind.sitOutSession).forgetCmds
    have hs4 : Keeps s0 s4 := .bumpDev (.bumpPen (hs2.modPen fun _ w => w))
    have hs5 : Keeps s0 s5 := Keeps.ite hs4.setLadder hs4
    exact .next hs5.raise

theorem rungTaken {rung cause : Nat} (hk : Keeps s0 s) : Keeps s0 (s.rungTaken rung cause) := by
  unfold State.rungTaken
  exact hk.update rfl

theorem driveLow (hk : Keeps s0 s) : Keeps s0 s.driveLow := by
  unfold State.driveLow
  exact hk.emit.setBoard

theorem powerLoss (hk : Keeps s0 s) : Keeps s0 s.powerLoss := by
  unfold State.powerLoss
  exact hk.updatePens (g := Pen.powerOn) (fun _ _ => rfl) rfl (Nat.le_refl _) (fun _ => rfl) (fun _ => rfl)
      (fun _ => rfl) rfl

theorem powerCycle {cause : Nat} (hk : Keeps s0 s) : Keeps s0 (s.powerCycle cause) := by
  unfold State.powerCycle
  exact hk.rungTaken.driveLow.powerLoss

theorem triggerWarm {cause : Nat} (hk : Keeps s0 s) : Keeps s0 (s.triggerWarm cause) := by
  unfold State.triggerWarm
  split
  · exact hk
  · extract_lets +onlyGivenNames _
    split
    · exact hk.powerCycle
    · exact hk.rungTaken.setRecovery

theorem execPenReinitOverrun {p : Nat} (hk : Keeps s0 s) : OfOut s0 wf (execPenReinitOverrun p s) := by
  unfold Machine.execPenReinitOverrun
  split
  · exact hk.stutter
  · exact .next hk.at_.triggerWarm

theorem execReeveWatchdog (hk : Keeps s0 s) : OfOut s0 wf (execReeveWatchdog s) := by
  unfold Machine.execReeveWatchdog
  exact .ite hk.stutter (.next hk.at_.triggerWarm)

theorem abortAll (hk : Keeps s0 s) : Keeps s0 s.abortAll := by
  unfold State.abortAll
  extract_lets +onlyGivenNames _ _ s1
  have hs1 : Keeps s0 s1 := hk.update rfl
  exact hs1.foldl fun ht => ht.forgetCmds

theorem endHarvest (hk : Keeps s0 s) : Keeps s0 s.endHarvest := by
  unfold State.endHarvest
  extract_lets +onlyGivenNames _ s1
  have hs1 : Keeps s0 s1 := by
    unfold s1
    split
    · exact .raise (.uncapture (hk.update rfl))
    · exact hk
  split
  · exact hs1.endRestore
  · exact hs1

theorem quiesce (hk : Keeps s0 s) : Keeps s0 s.quiesce := by
  unfold State.quiesce
  extract_lets +onlyGivenNames s1 s2 s3
  have hs1 : Keeps s0 s1 := (hk.foldl fun ht => ht.cutStep.clearLeases)
  have hs2 : Keeps s0 s2 := (hs1.foldl fun ht => ht.rewind)
  have hs3 : Keeps s0 s3 := (hs2.foldl fun ht => ht.abandonMove)
  exact hs3.update rfl

theorem cutUpdate (hk : Keeps s0 s) : Keeps s0 s.cutUpdate := by
  unfold State.cutUpdate
  split
  · exact hk.update rfl
  · exact hk

theorem riseIncarnation (hk : Keeps s0 s) : Keeps s0 s.riseIncarnation := by
  unfold State.riseIncarnation
  exact hk.update rfl

theorem climb (hk : Keeps s0 s) : Keeps s0 s.climb := by
  unfold State.climb
  exact hk.update rfl

theorem resetMain (hk : Keeps s0 s) : Keeps s0 s.resetMain := by
  unfold State.resetMain
  refine .climb ?_
  exact hk.riseIncarnation.updatePens (g := Pen.warmReset) (fun _ w => w) rfl (Nat.le_refl _) id id id rfl

theorem execWarmReset {leavesSelfRefresh : Bool} (hk : Keeps s0 s) :
    OfOut s0 wf (execWarmReset leavesSelfRefresh s) := by
  unfold Machine.execWarmReset
  split
  · extract_lets +onlyGivenNames _ _ s2
    have hs2 : Keeps s0 s2 := .resetMain (.cutUpdate (.quiesce (.endHarvest (.abortAll (hk.update rfl)))))
    exact .ite (.next (hs2.update rfl)) (.next hs2.powerCycle)
  · exact hk.stutter

theorem unitGone {u : ResetUnit} (hk : Keeps s0 s) : Keeps s0 (s.unitGone u) := by
  unfold State.unitGone
  split
  · exact hk.channelGone
  · exact hk.update rfl

theorem announce (hk : Keeps s0 s) : Keeps s0 s.announce := by
  unfold State.announce
  exact hk.foldl fun ht => ht.sendRestarted

theorem deviceRestarted {rung : Nat} (hk : Keeps s0 s) : Keeps s0 (s.deviceRestarted rung) := by
  unfold State.deviceRestarted
  exact hk.foldl fun ht => ht.raise.bumpPen

theorem ringLost {p k : Nat} (hk : Keeps s0 s) : Keeps s0 (s.ringLost p k) := by
  unfold State.ringLost
  exact .raiseTo (.modRing (hk.update rfl))

theorem homeLost {h : Handle} (hk : Keeps s0 s) : Keeps s0 (s.homeLost h) := by
  unfold State.homeLost
  split
  · exact hk
  · split
    · exact hk.modSess
    · exact hk.regrowAs

theorem freeSources (hk : Keeps s0 s) : Keeps s0 s.freeSources := by
  unfold State.freeSources
  exact hk.foldl fun ht => ht.freeSource

theorem serve (hk : Keeps s0 s) : Keeps s0 s.serve := by
  unfold State.serve
  split
  · exact hk.update rfl
  · extract_lets +onlyGivenNames _ s1
    have hs1 : Keeps s0 s1 := .checkHalted (hk.update rfl)
    split
    · exact hs1.update rfl
    · exact hs1

theorem execWarmResetRejoin {lostUnits : List ResetUnit} {badRings : List (Nat × Nat)} {badSessions : List Handle}
    (hk : Keeps s0 s) : OfOut s0 wf (execWarmResetRejoin lostUnits badRings badSessions s) := by
  unfold Machine.execWarmResetRejoin
  split
  · extract_lets +onlyGivenNames _ _ s2 s3 _ s4 s5 _ s6 s7 _ s8 s9
    have hs2 : Keeps s0 s2 := (hk.setRecovery.foldl fun ht => ht.ringLost)
    have hs3 : Keeps s0 s3 := (hs2.foldl fun ht => ht.homeLost).announce
    have hs4 : Keeps s0 s4 := (hs3.setRecovery.foldl fun ht => ht.complete)
    have hs5 : Keeps s0 s5 := hs4.freeSources.serve.deviceRestarted
    have hs6 : Keeps s0 s6 := Keeps.ite (.raiseAll (hs5.update rfl)) hs5
    have hs7 : Keeps s0 s7 := Keeps.ite hs6.raise hs6
    have hs8 : Keeps s0 s8 := hs7.update rfl
    have hs9 : Keeps s0 s9 := (hs8.foldl fun ht => ht.unitGone)
    exact .ite (.next hs8) (.next hs9.censusChange)
  · exact hk.stutter

theorem execWarmResetTimeout (hk : Keeps s0 s) : OfOut s0 wf (execWarmResetTimeout s) := by
  unfold Machine.execWarmResetTimeout
  split
  · exact hk.stutter
  · exact .ite (.next hk.at_.powerCycle) hk.stutter

theorem riseAgain (hk : Keeps s0 s) : Keeps s0 s.riseAgain := by
  unfold State.riseAgain
  exact hk.emit.setBoard

theorem execPwrCycleRelease (hk : Keeps s0 s) : OfOut s0 wf (execPwrCycleRelease s) := by
  unfold Machine.execPwrCycleRelease
  exact .ite (.next hk.at_.riseAgain) hk.stutter

theorem execPowerCycleTimeout (hk : Keeps s0 s) : OfOut s0 wf (execPowerCycleTimeout s) := by
  unfold Machine.execPowerCycleTimeout
  split
  · exact hk.stutter
  · exact .ite hk.stutter (.ite (.next (hk.at_.driveLow.powerLoss.update rfl)) (.next (hk.at_.powerCycle.update rfl)))

theorem execFlashChannelSilent {channel : Nat} (hw : wf → ¬128 ≤ channel) (hk : Keeps s0 s) :
    OfOut s0 wf (execFlashChannelSilent channel s) := by
  unfold Machine.execFlashChannelSilent
  exact .guard hw (.ite (.next hk.channelLeaves) hk.stutter)

theorem execHbmStackFail {stack : Nat} {lost : List Handle} (hw : wf → ¬12 ≤ stack) (hk : Keeps s0 s) :
    OfOut s0 wf (execHbmStackFail stack lost s) := by
  unfold Machine.execHbmStackFail
  refine .guard hw (.ite hk.stutter (.next ?_))
  exact hk.setRecovery.requeue.censusChange.foldl fun ht => ht.faultSession

theorem retryDispatched {p : RingCmd → Bool} (hk : Keeps s0 s) : Keeps s0 (s.retryDispatched p) := by
  unfold State.retryDispatched
  exact hk.foldl fun ht => ht.ringTake.complete

theorem retryMailboxes {core : Nat} (hk : Keeps s0 s) : Keeps s0 (s.retryMailboxes core) := by
  unfold State.retryMailboxes
  refine hk.foldl fun ht => ?_
  split
  · split
    · exact ht.mbTake.mbFinish
    · exact ht
  · exact ht

theorem loseLogits {lane : Nat} (hk : Keeps s0 s) : Keeps s0 (s.loseLogits lane) := by
  unfold State.loseLogits
  refine hk.draw_snd.foldl fun ht => ?_
  split
  · exact ht
  · refine ht.foldl fun ht' => ?_
    split
    · split
      · exact ht'.sitOut
      · exact ht'
    · exact ht'

theorem passOf_snd (hk : Keeps s0 s) : Keeps s0 s.passOf.2 := by
  unfold State.passOf
  exact hk.draw_snd

theorem rerunPass (hk : Keeps s0 s) : Keeps s0 s.rerunPass := by
  have drawn : Keeps s0 s.draw.2 := hk.draw_snd
  unfold State.rerunPass
  dsimp only
  split
  · exact drawn
  · split
    · exact drawn.modPlanEntry.claim.bumpPen
    · exact drawn

theorem clearLoft {i : Nat} (hk : Keeps s0 s) : Keeps s0 (s.clearLoft i) := by
  unfold State.clearLoft
  exact hk.update rfl

theorem unitLoses {u : ResetUnit} (hk : Keeps s0 s) : Keeps s0 (s.unitLoses u) := by
  unfold State.unitLoses
  split
  · exact hk.clearLoft.rerunPass
  · extract_lets s1
    have hs1 : Keeps s0 s1 := hk.requeue
    split
    · next answer =>
      have passed := hs1.passOf_snd.of_snd answer
      split
      · exact passed.sitOut
      · exact passed
    · next answer => exact hs1.passOf_snd.of_snd answer
  · exact hk
  · exact hk
  · exact hk.retryDispatched.loseLogits
  · exact hk.foldl fun ht => ht.abandonStep
  · exact hk.requeue.rerunPass
  · exact hk.retryDispatched.retryMailboxes
  · exact (hk.foldl fun ht => ht.resendRequest).endCheckpoint
  · exact hk

theorem oldReplies (hk : Keeps s0 s) : Keeps s0 s.oldReplies := by
  unfold State.oldReplies
  exact hk.draw_snd.bumpDev

theorem unitWork {u : ResetUnit} (hk : Keeps s0 s) : Keeps s0 (s.unitWork u) := by
  unfold State.unitWork
  exact hk.unitLoses.oldReplies

theorem unitFails {u : ResetUnit} (hk : Keeps s0 s) : Keeps s0 (s.unitFails u) := by
  unfold State.unitFails
  split
  · exact hk.channelLeaves
  · split
    · exact .censusChange (hk.update rfl)
    · exact hk.triggerWarm

theorem execUnitReset {unit : ResetUnit} {selfTestOk : Bool} (hw : wf → ¬(!unitExists unit) = true)
    (hk : Keeps s0 s) : OfOut s0 wf (execUnitReset unit selfTestOk s) := by
  unfold Machine.execUnitReset
  refine .guard hw ?_
  split
  · exact hk.stutter
  · split
    · exact .next hk.triggerWarm
    · extract_lets +onlyGivenNames _ _ _ _ _ s2
      have hs2 : Keeps s0 s2 := .unitWork (.bumpDev (hk.update rfl))
      exact .ite (.next hs2) (.next hs2.unitFails)

/-! ### The Hearth's tick -/

theorem truncateFlock {f : Nat} (hk : Keeps s0 s) : Keeps s0 (s.truncateFlock f) := by
  unfold State.truncateFlock
  split
  · exact hk
  · split
    · split
      · exact hk.modRun
      · exact hk.cutThermal
    · split
      · exact hk.cutThermal
      · exact hk

theorem truncate {hot : Nat} (hk : Keeps s0 s) : Keeps s0 (s.truncate hot) := by
  unfold State.truncate
  extract_lets +onlyGivenNames _ s1
  have hs1 : Keeps s0 s1 := (Keeps.ite hk (.raise (hk.update rfl)))
  exact hs1.foldl fun ht => ht.truncateFlock

theorem thermalTick (hk : Keeps s0 s) : Keeps s0 s.thermalTick := by
  unfold State.thermalTick
  split
  · exact hk.truncate
  · split
    · exact .raise (hk.update rfl)
    · exact hk

theorem thermalShutdown (hk : Keeps s0 s) : Keeps s0 s.thermalShutdown := by
  unfold State.thermalShutdown
  exact hk.driveLow.powerLoss.update rfl

theorem execHearthTick {samples : List (Option Int)} {energy : Nat} (hk : Keeps s0 s) :
    OfOut s0 wf (execHearthTick samples energy s) := by
  unfold Machine.execHearthTick
  extract_lets +onlyGivenNames _ _ _ _ _ _ s3
  have hs3 : Keeps s0 s3 := hk.at_.setClockHearth.sampleSensors.setDerate.thermalTick
  exact .ite (.next hs3.thermalShutdown) (.next hs3)

/-! ### Dispatch -/

theorem execDispatch {unit : CmdUnit} {pen ring : Nat} (hk : Keeps s0 s) :
    OfOut s0 wf (execDispatch unit pen ring s) := by
  unfold Machine.execDispatch
  split
  · exact hk.stutter
  · split
    · exact hk.stutter
    · split
      · exact .next hk.askWake
      · split
        · exact hk.stutter
        · exact .next (hk.modRing.update rfl)

/-! ### Firmware -/

theorem stage {i : Image} (hk : Keeps s0 s) : Keeps s0 (s.stage i) := by
  unfold State.stage
  have sameFuses : (s.stage i).security.rollback = s.security.rollback := by
    unfold State.stage
    dsimp only
    split
    · rfl
    · rfl
  exact ⟨hk.pending, Nat.le_trans hk.fuses (Nat.le_of_eq sameFuses.symm), hk.penZero, hk.memories⟩

theorem execFwStage {mb : Mb} {image : List Byte} {readsBack : Bool} (hk : Keeps s0 s) :
    OfOut s0 wf (execFwStage mb image readsBack s) := by
  unfold Machine.execFwStage
  refine .ite hk.stutter (hk.mbRun fun ht => .ite (.now _ ht.retryLater_fst) ?_)
  split
  · exact .now _ ht
  · exact .now _ ht.stage

theorem activate {i : Image} (hk : Keeps s0 s) : Keeps s0 (s.activate i) := by
  unfold State.activate
  extract_lets +onlyGivenNames _ _
  split
  · exact hk.update rfl
  · exact hk.update rfl

theorem execFwActivate {mb : Mb} (hk : Keeps s0 s) : OfOut s0 wf (execFwActivate mb s) := by
  unfold Machine.execFwActivate
  refine hk.mbRun fun ht => .ite (.now _ ht.retryLater_fst) ?_
  split
  · exact .now _ ht
  · exact .ite (.now _ ht) (.now _ ht.activate)

theorem endUpdate (hk : Keeps s0 s) : Keeps s0 s.endUpdate := by
  unfold State.endUpdate
  extract_lets +onlyGivenNames _ _ s1
  have hs1 : Keeps s0 s1 := .reeveResumes (hk.update rfl)
  split
  · exact hs1
  · extract_lets +onlyGivenNames _ s2
    have hs2 : Keeps s0 s2 := hs1.update rfl
    split
    · exact hs2.startReinit
    · exact hs2.update rfl

theorem execLiveUpdateDone {blown : Nat} (hk : Keeps s0 s) : OfOut s0 wf (execLiveUpdateDone blown s) := by
  unfold Machine.execLiveUpdateDone
  split
  · next i _ _ =>
    have blows : Keeps s0 { s with security := (s.security.runNew i).blow i.svn blown } :=
      ⟨hk.pending, Nat.le_trans hk.fuses (rollback_le_blow (s.security.runNew i) ..), hk.penZero, hk.memories⟩
    exact .ite hk.stutter (.next blows.endUpdate.raiseAll)
  · exact hk.stutter

theorem ringDrop {c : RingCmd} (hk : Keeps s0 s) : Keeps s0 (s.ringDrop c) := by
  unfold State.ringDrop
  exact hk.ringTake.modRing

theorem execLiveUpdateAbandon (hk : Keeps s0 s) : OfOut s0 wf (execLiveUpdateAbandon s) := by
  unfold Machine.execLiveUpdateAbandon
  split
  · exact hk.stutter
  · extract_lets +onlyGivenNames _ s2
    have hs2 : Keeps s0 s2 := (hk.at_.foldl fun ht => ht.ringDrop.retryLater_fst.complete)
    exact .next hs2.endUpdate.raiseAll

theorem execWatchmanImageWritten {readsBack : Bool} (hk : Keeps s0 s) :
    OfOut s0 wf (execWatchmanImageWritten readsBack s) := by
  unfold Machine.execWatchmanImageWritten
  split
  · exact hk.stutter
  · extract_lets +onlyGivenNames _ s1
    have hs1 : Keeps s0 s1 := hk.update rfl
    exact .ite (.next (.raiseAll (hs1.update rfl))) (.next hs1.raiseAll)

/-! ### The Crier -/

theorem modCrier {p : Nat} {f : Crier → Crier} (hk : Keeps s0 s) : Keeps s0 (s.modCrier p f) := by
  unfold State.modCrier
  exact hk.modPen fun _ w => w

theorem writeEventMask {p : Nat} {v : BitVec 64} (hk : Keeps s0 s) : Keeps s0 (s.writeEventMask p v) := by
  unfold State.writeEventMask
  exact hk.modCrier

theorem signalEach {p bits : Nat} (hk : Keeps s0 s) : Keeps s0 (s.signalEach p bits) := by
  unfold State.signalEach
  exact hk.foldl fun ht => (Keeps.ite ht.attnSignal ht)

theorem writeAttnPending {p : Nat} {v : BitVec 64} (hk : Keeps s0 s) : Keeps s0 (s.writeAttnPending p v) := by
  unfold State.writeAttnPending
  exact hk.modCrier.signalEach

theorem writeAttnMask {p : Nat} {v : BitVec 64} (hk : Keeps s0 s) : Keeps s0 (s.writeAttnMask p v) := by
  unfold State.writeAttnMask
  exact hk.modCrier.signalEach

theorem writeClassRoute {p : Nat} {v : BitVec 64} (hk : Keeps s0 s) : Keeps s0 (s.writeClassRoute p v) := by
  unfold State.writeClassRoute
  exact hk.modCrier

theorem writeEvCtrl {p r : Nat} {v : BitVec 64} (hk : Keeps s0 s) : Keeps s0 (s.writeEvCtrl p r v) := by
  unfold State.writeEvCtrl
  extract_lets +onlyGivenNames _ s1 _
  have hs1 : Keeps s0 s1 := hk.modEvRing
  split
  · exact hs1.modCrier.raise.bumpPen
  · exact hs1

theorem writeModeration {p r : Nat} {v : BitVec 64} (hk : Keeps s0 s) : Keeps s0 (s.writeModeration p r v) := by
  unfold State.writeModeration
  exact hk.modEvRing

theorem writeConsumer {p r : Nat} {v : BitVec 64} (hk : Keeps s0 s) : Keeps s0 (s.writeConsumer p r v) := by
  unfold State.writeConsumer
  split
  · extract_lets +onlyGivenNames s1
    have hs1 : Keeps s0 s1 := hk.modEvRing
    exact (Keeps.ite hs1.evFire hs1).evReportLost
  · exact hk.modEvRing.evReportLost

theorem writeEvStatus {p r : Nat} {v : BitVec 64} (hk : Keeps s0 s) : Keeps s0 (s.writeEvStatus p r v) := by
  unfold State.writeEvStatus
  exact hk.modEvRing

theorem execModerationTimer {p r : Nat} (hw : wf → ¬16 ≤ r) (hk : Keeps s0 s) :
    OfOut s0 wf (execModerationTimer p r s) := by
  unfold Machine.execModerationTimer
  extract_lets +onlyGivenNames _
  split
  · exact .guard hw (.ite (.next hk.at_.evFire) hk.stutter)
  · exact .guard hw hk.stutter

/-! ### SPDM -/

theorem spdmReply {t : Transport} {code : Nat} {body : List Byte} (hk : Keeps s0 s) :
    Keeps s0 (s.spdmReply t code body) := by
  unfold State.spdmReply
  exact hk.emit

theorem spdmError {t : Transport} {error : Nat} (hk : Keeps s0 s) : Keeps s0 (s.spdmError t error) := by
  unfold State.spdmError
  exact hk.spdmReply

theorem spdmWhen {t : Transport} {body : Out} (hk : Keeps s0 s) (hb : OfOut s0 wf body) :
    OfOut s0 wf (spdmWhen s t body) :=
  .ite hb hk.stutter

theorem setConn {t : Transport} {c : SpdmConn} (hk : Keeps s0 s) : Keeps s0 (s.setConn t c) := by
  unfold State.setConn
  exact hk.update rfl

theorem execGetVersion {t : Transport} (hk : Keeps s0 s) : OfOut s0 wf (execGetVersion t s) := by
  unfold Machine.execGetVersion
  exact hk.spdmWhen (.next hk.setConn.spdmReply)

theorem execGetCapabilities {t : Transport} (hk : Keeps s0 s) : OfOut s0 wf (execGetCapabilities t s) := by
  unfold Machine.execGetCapabilities
  exact hk.spdmWhen (.next (Keeps.ite hk.setConn.spdmReply hk.spdmError))

theorem execNegotiateAlgorithms {t : Transport} {matchesTable : Bool} (hk : Keeps s0 s) :
    OfOut s0 wf (execNegotiateAlgorithms t matchesTable s) := by
  unfold Machine.execNegotiateAlgorithms
  exact hk.spdmWhen (.next (Keeps.ite hk.spdmError (Keeps.ite hk.setConn.spdmReply hk.setConn.spdmError)))

theorem spdmAfter {t : Transport} {body : State} (hk : Keeps s0 s) (hb : Keeps s0 body) :
    OfOut s0 wf (spdmAfter s t body) :=
  hk.spdmWhen (.next (.ite hb hk.spdmError))

theorem execGetDigests {t : Transport} (hk : Keeps s0 s) : OfOut s0 wf (execGetDigests t s) := by
  unfold Machine.execGetDigests
  exact hk.spdmAfter hk.spdmReply

theorem execGetCertificate {t : Transport} {slot : BitVec 8} {offset length : BitVec 16} (hk : Keeps s0 s) :
    OfOut s0 wf (execGetCertificate t slot offset length s) := by
  unfold Machine.execGetCertificate
  exact hk.spdmAfter (Keeps.ite hk.spdmError hk.spdmReply)

theorem fresh_snd (hk : Keeps s0 s) : Keeps s0 s.fresh.2 := by
  unfold State.fresh
  exact hk.draw_snd

theorem answerChallenge {t : Transport} {nonce : BitVec 256} (hk : Keeps s0 s) :
    Keeps s0 (s.answerChallenge t nonce) := by
  unfold State.answerChallenge
  exact hk.fresh_snd.spdmReply

theorem answerMeasurements {t : Transport} {index : BitVec 8} {nonce : BitVec 256} (hk : Keeps s0 s) :
    Keeps s0 (s.answerMeasurements t index nonce) := by
  unfold State.answerMeasurements
  exact hk.fresh_snd.spdmReply

theorem answerKeyExchange (hk : Keeps s0 s) : Keeps s0 s.answerKeyExchange := by
  have drawn : Keeps s0 s.fresh.2 := hk.fresh_snd
  unfold State.answerKeyExchange
  dsimp only
  refine .spdmReply ?_
  exact drawn.setHandshaking

theorem holdFresh {o : FreshOp} (hk : Keeps s0 s) : Keeps s0 (s.holdFresh o) := by
  unfold State.holdFresh
  exact hk.update rfl

theorem execChallenge {t : Transport} {slot : BitVec 8} {nonce : BitVec 256} (hk : Keeps s0 s) :
    OfOut s0 wf (execChallenge t slot nonce s) := by
  unfold Machine.execChallenge
  exact hk.spdmAfter (Keeps.ite hk.spdmError (Keeps.ite hk.spdmError (Keeps.ite hk.answerChallenge hk.holdFresh)))

theorem execGetMeasurements {t : Transport} {index : BitVec 8} {signed : Bool} {nonce : BitVec 256}
    (hk : Keeps s0 s) : OfOut s0 wf (execGetMeasurements t index signed nonce s) := by
  unfold Machine.execGetMeasurements
  exact hk.spdmAfter (Keeps.ite hk.spdmError (Keeps.ite hk.spdmReply
      (Keeps.ite hk.spdmReply (Keeps.ite hk.spdmError (Keeps.ite hk.answerMeasurements hk.holdFresh)))))

theorem sessionOnly {t : Transport} {body : State} (hk : Keeps s0 s) (hb : Keeps s0 body) :
    OfOut s0 wf (sessionOnly s t body) := by
  refine hk.spdmWhen (.next ?_)
  cases t with
  | sideBand => exact hk.spdmError
  | hostPort => exact hb

theorem execKeyExchange {t : Transport} (hk : Keeps s0 s) : OfOut s0 wf (execKeyExchange t s) := by
  unfold Machine.execKeyExchange
  exact hk.sessionOnly (Keeps.ite hk.spdmError (Keeps.ite hk.spdmError
      (Keeps.ite hk.spdmError (Keeps.ite hk.answerKeyExchange hk.holdFresh))))

theorem releaseHeld (hk : Keeps s0 s) : Keeps s0 s.releaseHeld := by
  unfold State.releaseHeld
  have released : Keeps s0 { s with security := { s.security with held := [] } } := hk.update rfl
  exact released.foldl fun ht => ht.emit

theorem openSpdm (hk : Keeps s0 s) : Keeps s0 s.openSpdm := by
  unfold State.openSpdm
  exact .releaseHeld (.spdmReply (hk.update rfl))

theorem execFinish {t : Transport} {verifies : Bool} (hk : Keeps s0 s) : OfOut s0 wf (execFinish t verifies s) := by
  unfold Machine.execFinish
  exact hk.sessionOnly (Keeps.ite hk.spdmError (Keeps.ite hk.openSpdm (.spdmError (hk.update rfl))))

theorem closeSpdm (hk : Keeps s0 s) : Keeps s0 s.closeSpdm := by
  unfold State.closeSpdm
  exact hk.update rfl

theorem sessionMessage (hk : Keeps s0 s) : Keeps s0 s.sessionMessage := by
  unfold State.sessionMessage
  exact hk.update rfl

theorem inSession {t : Transport} {body : State → State}
    (hk : Keeps s0 s) (hb : ∀ {t}, Keeps s0 t → Keeps s0 (body t)) :
    OfOut s0 wf (inSession s t body) :=
  hk.sessionOnly (.ite (hb hk.sessionMessage) hk.spdmError)

theorem execEndSession {t : Transport} (hk : Keeps s0 s) : OfOut s0 wf (execEndSession t s) := by
  unfold Machine.execEndSession
  exact hk.inSession fun ht => ht.spdmReply.closeSpdm

theorem execHeartbeat {t : Transport} (hk : Keeps s0 s) : OfOut s0 wf (execHeartbeat t s) := by
  unfold Machine.execHeartbeat
  exact hk.inSession fun ht => ht.spdmReply

theorem execKeyUpdate {t : Transport} (hk : Keeps s0 s) : OfOut s0 wf (execKeyUpdate t s) := by
  unfold Machine.execKeyUpdate
  exact hk.inSession fun ht => ht.spdmReply

theorem execSpdmHeartbeatTimeout (hk : Keeps s0 s) : OfOut s0 wf (execSpdmHeartbeatTimeout s) := by
  unfold Machine.execSpdmHeartbeatTimeout
  exact .ite (.next hk.at_.closeSpdm) hk.stutter

theorem execUnsupportedRequest {t : Transport} {_code : BitVec 8} (hk : Keeps s0 s) :
    OfOut s0 wf (execUnsupportedRequest t _code s) := by
  unfold Machine.execUnsupportedRequest
  exact hk.spdmWhen (.next hk.spdmError)

theorem hostError {c : HostErr} {ctx off : Nat} (hk : Keeps s0 s) : Keeps s0 (s.hostError c ctx off) := by
  unfold State.hostError
  extract_lets +onlyGivenNames _ s1
  have hs1 : Keeps s0 s1 := hk.update rfl
  split
  · exact hs1
  · exact hs1.raise

theorem execSecuredMessageTagFail (hk : Keeps s0 s) : OfOut s0 wf (execSecuredMessageTagFail s) := by
  unfold Machine.execSecuredMessageTagFail
  refine .ite hk.stutter ?_
  split
  next answer =>
    extract_lets +onlyGivenNames _ s2 _ s3
    have hs2 : Keeps s0 s2 := (hk.draw_snd.of_snd answer).hostError
    have hs3 : Keeps s0 s3 := hs2.update rfl
    exact .next (.ite hs3.closeSpdm hs3)

theorem execOperatorKey {q : Req} {slot : Nat} {enrol : Bool} {key : BitVec 512} {signer : Option Nat}
    {signature : BitVec 512} (hk : Keeps s0 s) : OfOut s0 wf (execOperatorKey q slot enrol key signer signature s) :=
      by
  unfold Machine.execOperatorKey
  exact hk.spdmWhen (.next (Keeps.ite hk.spdmError (Keeps.ite (.spdmReply (hk.sessionMessage.update rfl))
      hk.sessionMessage.spdmError)))

/-! ### The debug port -/

theorem modDebug {f : Debug → Debug} (hk : Keeps s0 s) : Keeps s0 (s.modDebug f) := by
  unfold State.modDebug
  exact hk.update rfl

theorem shiftOut {code width value : Nat} (hk : Keeps s0 s) : Keeps s0 (s.shiftOut code width value) := by
  unfold State.shiftOut
  exact hk.modDebug.emit

theorem tapWhen {t : State} (hk : Keeps s0 s) (ht : Keeps s0 t) : OfOut s0 wf (tapWhen s t) := hk.onlyIf ht

theorem giveNonce (hk : Keeps s0 s) : Keeps s0 s.giveNonce := by
  unfold State.giveNonce
  exact hk.draw_snd.modDebug.shiftOut

theorem execDbgNonce (hk : Keeps s0 s) : OfOut s0 wf (execDbgNonce s) := by
  unfold Machine.execDbgNonce
  exact hk.tapWhen (Keeps.ite hk.giveNonce hk.holdFresh)

theorem runFresh {a : FreshOp} (hk : Keeps s0 s) : Keeps s0 (s.runFresh a) := by
  unfold State.runFresh
  split
  · exact hk.answerChallenge
  · exact hk.answerMeasurements
  · exact hk.answerKeyExchange
  · exact hk.giveNonce

theorem execDrbgReseed {ok : Bool} (hk : Keeps s0 s) : OfOut s0 wf (execDrbgReseed ok s) := by
  unfold Machine.execDrbgReseed
  extract_lets +onlyGivenNames _ s1
  have hs1 : Keeps s0 s1 := hk.update rfl
  have fresh : Keeps s0 { s1 with security := { s1.security with heldFresh := [] } } := hs1.update rfl
  exact .ite (.next (fresh.foldl fun ht => ht.runFresh)) (.next hs1)

theorem scrub (hk : Keeps s0 s) : Keeps s0 s.scrub := by
  unfold State.scrub
  exact hk.trans ⟨rfl, Nat.le_refl _, id, fun ⟨a, b, _, d⟩ => ⟨a, b, rfl, d⟩⟩

theorem enterLevel2 (hk : Keeps s0 s) : Keeps s0 s.enterLevel2 := by
  unfold State.enterLevel2
  exact .modDebug (hk.abortAll.endHarvest.quiesce.cutUpdate.scrub.update rfl)

theorem acceptToken {level : Nat} (hk : Keeps s0 s) : Keeps s0 (s.acceptToken level) := by
  unfold State.acceptToken
  extract_lets +onlyGivenNames _ s1
  have hs1 : Keeps s0 s1 := (Keeps.ite hk.enterLevel2 hk)
  exact hs1.modDebug.askWake

theorem refuseToken (hk : Keeps s0 s) : Keeps s0 s.refuseToken := by
  unfold State.refuseToken
  exact hk.modDebug

theorem execDbgToken {token : BitVec 896} (hk : Keeps s0 s) : OfOut s0 wf (execDbgToken token s) := by
  unfold Machine.execDbgToken
  exact hk.tapWhen (Keeps.ite hk.modDebug.modDebug (Keeps.ite hk.modDebug.acceptToken hk.modDebug.refuseToken))

theorem execDbgStatus (hk : Keeps s0 s) : OfOut s0 wf (execDbgStatus s) := by
  unfold Machine.execDbgStatus
  exact hk.tapWhen hk.shiftOut.modDebug

theorem execDbgRelock {bit : Bool} (hk : Keeps s0 s) : OfOut s0 wf (execDbgRelock bit s) := by
  unfold Machine.execDbgRelock
  exact hk.tapWhen hk.modDebug

theorem execIdcode (hk : Keeps s0 s) : OfOut s0 wf (execIdcode s) := by
  unfold Machine.execIdcode
  exact .next hk.shiftOut

theorem execBypass (hk : Keeps s0 s) : OfOut s0 wf (execBypass s) := by
  unfold Machine.execBypass
  exact .next hk.shiftOut

theorem execTestLogicReset (hk : Keeps s0 s) : OfOut s0 wf (execTestLogicReset s) := by
  unfold Machine.execTestLogicReset
  exact .next hk.modDebug

theorem bscanOnly {body : State} (hk : Keeps s0 s) (hb : Keeps s0 body) : OfOut s0 wf (bscanOnly s body) :=
  hk.tapWhen (.ite hb hk.modDebug.shiftOut)

theorem execExtest (hk : Keeps s0 s) : OfOut s0 wf (execExtest s) := by
  unfold Machine.execExtest
  exact hk.bscanOnly hk.shiftOut

theorem execClamp (hk : Keeps s0 s) : OfOut s0 wf (execClamp s) := by
  unfold Machine.execClamp
  exact hk.bscanOnly hk.shiftOut

theorem execHighz (hk : Keeps s0 s) : OfOut s0 wf (execHighz s) := by
  unfold Machine.execHighz
  exact hk.bscanOnly hk.shiftOut

theorem execSamplePreload (hk : Keeps s0 s) : OfOut s0 wf (execSamplePreload s) := by
  unfold Machine.execSamplePreload
  exact .next hk.draw_snd.modDebug.shiftOut

theorem modHart {i : Nat} {f : Hart → Hart} (hk : Keeps s0 s) : Keeps s0 (s.modHart i f) := by
  unfold State.modHart
  exact hk.modDebug

theorem resumeHart {i : Nat} (hk : Keeps s0 s) : Keeps s0 (s.resumeHart i) := by
  unfold State.resumeHart
  extract_lets +onlyGivenNames _ s1
  have hs1 : Keeps s0 s1 := hk.modHart.reeveResumes
  split
  · exact hs1.update rfl
  · exact hs1.update rfl

theorem writeDmcontrol {v : Nat} (hk : Keeps s0 s) : Keeps s0 (s.writeDmcontrol v) := by
  unfold State.writeDmcontrol
  extract_lets +onlyGivenNames _ s1
  have hs1 : Keeps s0 s1 := hk.modDebug
  split
  · exact hs1.modDebug
  · split
    · exact hs1
    · extract_lets +onlyGivenNames s2 s3
      have hs2 : Keeps s0 s2 := (Keeps.ite hs1.modHart hs1)
      have hs3 : Keeps s0 s3 := (Keeps.ite hs2.modHart (Keeps.ite hs2.modHart hs2))
      split
      · exact hs3.modHart
      · split
        · exact hs3.resumeHart
        · exact hs3

theorem execDtmcs {value : BitVec 32} (hk : Keeps s0 s) : OfOut s0 wf (execDtmcs value s) := by
  unfold Machine.execDtmcs
  exact hk.tapWhen hk.shiftOut.modDebug

theorem execDmi {addr : BitVec 7} {data : BitVec 32} {op : BitVec 2} (hk : Keeps s0 s) :
    OfOut s0 wf (execDmi addr data op s) := by
  unfold Machine.execDmi
  exact hk.tapWhen (Keeps.ite hk.shiftOut.modDebug (Keeps.ite hk.shiftOut.askWake
      (Keeps.ite hk.shiftOut.modDebug (Keeps.ite (Keeps.ite hk.shiftOut.writeDmcontrol hk.shiftOut.modDebug).modDebug
        hk.shiftOut))))

/-! ### Mailboxes -/

theorem submit {mb : Mb} {seq : Nat} (hk : Keeps s0 s) : Keeps s0 (s.submit mb seq) := by
  unfold State.submit
  split
  · exact hk
  · extract_lets +onlyGivenNames _ s1 s2
    have hs1 : Keeps s0 s1 := hk.update rfl
    have hs2 : Keeps s0 s2 := hs1.modMb fun _ w => w
    split
    · exact hs2.mbReply
    · split
      · exact .reeveNext (hs2.update rfl)
      · exact hs2.getD hs2.refuse

theorem writeMbSubmit {mb : Mb} {v : BitVec 64} (hk : Keeps s0 s) : Keeps s0 (s.writeMbSubmit mb v) := by
  unfold State.writeMbSubmit
  split
  · exact hk
  · split
    · exact hk.modMb fun _ w => w
    · exact hk.submit

theorem writeMbStatus {mb : Mb} {v : BitVec 64} (hk : Keeps s0 s) : Keeps s0 (s.writeMbStatus mb v) := by
  unfold State.writeMbStatus
  exact hk.modMb fun _ w => w

theorem writeMbDesc {mb : Mb} {off : Nat} {bs : List Byte} (hk : Keeps s0 s) :
    Keeps s0 (s.writeMbDesc mb off bs) := by
  unfold State.writeMbDesc
  refine hk.modMb fun m w => ?_
  split
  · exact w
  · exact w

theorem writeMbPayload {mb : Mb} {off : Nat} {bs : List Byte} (hk : Keeps s0 s) :
    Keeps s0 (s.writeMbPayload mb off bs) := by
  unfold State.writeMbPayload
  refine hk.modMb fun m w => ?_
  split
  · exact w
  · exact memWriteBytes_wf _ _ _ w

theorem execMailboxTimeout {mb : Mb} (hk : Keeps s0 s) : OfOut s0 wf (execMailboxTimeout mb s) := by
  unfold Machine.execMailboxTimeout
  split
  · exact hk.stutter
  · exact .ite (.next (.mbWrite (hk.at_.modMb fun _ w => w))) hk.stutter

theorem execMbLate {mb : Mb} (hk : Keeps s0 s) : OfOut s0 wf (execMbLate mb s) := by
  unfold Machine.execMbLate
  split
  · exact hk.stutter
  · split
    · exact hk.stutter
    · exact .next hk.mbTake.mbFinish

/-! ### The side band -/

theorem sbWhen {inRecovery : Bool} {t : State} (hk : Keeps s0 s) (ht : Keeps s0 t) :
    OfOut s0 wf (sbWhen s inRecovery t) :=
  .ite (.next ht) hk.stutter

theorem sbReply {command status : Nat} {rest : List Byte} (hk : Keeps s0 s) :
    Keeps s0 (s.sbReply command status rest) := by
  unfold State.sbReply
  exact hk.emit

theorem execSbMailbox {length : Nat} {desc : Desc} {payload : List Byte} (hk : Keeps s0 s) :
    OfOut s0 wf (execSbMailbox length desc payload s) := by
  unfold Machine.execSbMailbox
  have stored : Keeps s0 (s.modMb .sideBand fun m =>
      { m with desc := desc, payload := memWriteBytes m.payload 0 payload, done := false }) :=
    hk.modMb fun m => memWriteBytes_wf m.payload 0 payload
  exact hk.sbWhen (.ite hk.sbReply (.ite hk.sbReply (.ite hk.sbReply stored.submit)))

theorem execStatusRead {offset count : Nat} (hk : Keeps s0 s) : OfOut s0 wf (execStatusRead offset count s) := by
  unfold Machine.execStatusRead
  exact hk.sbWhen (Keeps.ite hk.sbReply hk.sbReply)

theorem ladderReinit {p : Nat} (hk : Keeps s0 s) : Keeps s0 (s.ladderReinit p) := by
  unfold State.ladderReinit
  split
  · exact hk.update rfl
  · split
    · exact hk.update rfl
    · extract_lets +onlyGivenNames s1
      have hs1 : Keeps s0 s1 := hk.update rfl
      split
      · exact hs1.update rfl
      · split
        · exact hs1.modPen fun _ w => w
        · exact hs1.startReinit

theorem ladderWarm {p cause : Nat} (hk : Keeps s0 s) : Keeps s0 (s.ladderWarm p cause) := by
  unfold State.ladderWarm
  split
  · exact hk.update rfl
  · extract_lets +onlyGivenNames s1
    have hs1 : Keeps s0 s1 := .triggerWarm (hk.update rfl)
    split
    · exact hs1
    · exact hs1.update rfl

theorem sbLadder {inRecovery : Bool} {confirm : BitVec 16} {body : State} (hk : Keeps s0 s) (hb : Keeps s0 body) :
    OfOut s0 wf (sbLadder s inRecovery confirm body) :=
  hk.sbWhen (.ite hb hk.sbReply)

theorem execSbPenReinit {pen : Nat} {confirm : BitVec 16} (hk : Keeps s0 s) :
    OfOut s0 wf (execSbPenReinit pen confirm s) := by
  unfold Machine.execSbPenReinit
  exact hk.sbLadder (Keeps.ite hk.sbReply hk.ladderReinit.sbReply)

theorem execSbWarmReset {confirm : BitVec 16} (hk : Keeps s0 s) : OfOut s0 wf (execSbWarmReset confirm s) := by
  unfold Machine.execSbWarmReset
  exact hk.sbLadder (Keeps.ite hk.sbReply hk.ladderWarm.sbReply)

theorem execSbPowerCycle {confirm : BitVec 16} (hk : Keeps s0 s) : OfOut s0 wf (execSbPowerCycle confirm s) := by
  unfold Machine.execSbPowerCycle
  exact hk.sbLadder (Keeps.ite hk.sbReply (.sbReply (hk.powerCycle.update rfl)))

theorem execRelease {confirm : BitVec 16} (hk : Keeps s0 s) : OfOut s0 wf (execRelease confirm s) := by
  unfold Machine.execRelease
  exact hk.sbLadder (Keeps.ite hk.sbReply hk.riseAgain.sbReply)

theorem serveRing {r : Nat} (hk : Keeps s0 s) : Keeps s0 (s.serveRing r) := by
  unfold State.serveRing
  extract_lets +onlyGivenNames _
  split
  · exact hk.sendRecord
  · extract_lets +onlyGivenNames s1
    have hs1 : Keeps s0 s1 := hk.writeConsumer
    split
    · exact hs1
    · split
      · exact hs1
      · exact .watchmanTakes (hs1.update rfl)

theorem execEventSubscribe {eid : BitVec 8} (hk : Keeps s0 s) : OfOut s0 wf (execEventSubscribe eid s) := by
  unfold Machine.execEventSubscribe
  refine hk.sbWhen ?_
  extract_lets +onlyGivenNames s1
  have hs1 : Keeps s0 s1 := hk.sbReply
  split
  · exact hs1.update rfl
  · extract_lets +onlyGivenNames _ s2
    have hs2 : Keeps s0 s2 := hs1.update rfl
    split
    · exact hs2
    · split
      · exact hs2
      · exact .watchmanTakes (hs2.update rfl)

theorem execEventRecord (hk : Keeps s0 s) : OfOut s0 wf (execEventRecord s) := by
  unfold Machine.execEventRecord
  split
  · exact hk.stutter
  · exact hk.sbWhen (Keeps.ite (hk.update rfl) (.serveRing (.writeConsumer (hk.update rfl))))

theorem execEventRecordTimeout (hk : Keeps s0 s) : OfOut s0 wf (execEventRecordTimeout s) := by
  unfold Machine.execEventRecordTimeout
  split
  · exact hk.stutter
  · exact .ite hk.stutter (.ite (.next hk.at_.sendRecord) (.next hk.at_.setWatchman))

theorem execWatchmanStatus (hk : Keeps s0 s) : OfOut s0 wf (execWatchmanStatus s) := by
  unfold Machine.execWatchmanStatus
  exact hk.sbWhen hk.sbReply

theorem execSbBadRequest {command : BitVec 8} {_operands : List Byte} (hk : Keeps s0 s) :
    OfOut s0 wf (execSbBadRequest command _operands s) := by
  unfold Machine.execSbBadRequest
  exact hk.sbWhen hk.sbReply

theorem watchmanResets (hk : Keeps s0 s) : Keeps s0 s.watchmanResets := by
  unfold State.watchmanResets
  exact .modHart (hk.update rfl)

theorem execWatchmanWatchdog (hk : Keeps s0 s) : OfOut s0 wf (execWatchmanWatchdog s) := by
  unfold Machine.execWatchmanWatchdog
  exact .ite (.next hk.at_.watchmanResets) hk.stutter

theorem mctpReply {command code : Nat} {rest : List Byte} (hk : Keeps s0 s) :
    Keeps s0 (s.mctpReply command code rest) := by
  unfold State.mctpReply
  exact hk.emit

theorem mctpWhen {dest : BitVec 8} {t : State} (hk : Keeps s0 s) (ht : Keeps s0 t) :
    OfOut s0 wf (mctpWhen s dest t) :=
  .ite (hk.sbWhen ht) hk.stutter

theorem execSetEndpointId {dest eid : BitVec 8} (hk : Keeps s0 s) : OfOut s0 wf (execSetEndpointId dest eid s) := by
  unfold Machine.execSetEndpointId
  exact hk.mctpWhen (Keeps.ite hk.mctpReply (.mctpReply (hk.update rfl)))

theorem execGetEndpointId {dest : BitVec 8} (hk : Keeps s0 s) : OfOut s0 wf (execGetEndpointId dest s) := by
  unfold Machine.execGetEndpointId
  exact hk.mctpWhen hk.mctpReply

theorem execGetEndpointUuid {dest : BitVec 8} (hk : Keeps s0 s) : OfOut s0 wf (execGetEndpointUuid dest s) := by
  unfold Machine.execGetEndpointUuid
  exact hk.mctpWhen hk.mctpReply

theorem execGetMctpVersionSupport {dest type : BitVec 8} (hk : Keeps s0 s) :
    OfOut s0 wf (execGetMctpVersionSupport dest type s) := by
  unfold Machine.execGetMctpVersionSupport
  exact hk.mctpWhen (Keeps.ite hk.mctpReply hk.mctpReply)

theorem execGetMessageTypeSupport {dest : BitVec 8} (hk : Keeps s0 s) :
    OfOut s0 wf (execGetMessageTypeSupport dest s) := by
  unfold Machine.execGetMessageTypeSupport
  exact hk.mctpWhen hk.mctpReply

theorem execGetVendorMessageSupport {dest selector : BitVec 8} (hk : Keeps s0 s) :
    OfOut s0 wf (execGetVendorMessageSupport dest selector s) := by
  unfold Machine.execGetVendorMessageSupport
  exact hk.mctpWhen (Keeps.ite hk.mctpReply hk.mctpReply)

theorem execUnsupportedMctpCmd {dest command : BitVec 8} (hk : Keeps s0 s) :
    OfOut s0 wf (execUnsupportedMctpCmd dest command s) := by
  unfold Machine.execUnsupportedMctpCmd
  exact .ite hk.stutter (hk.mctpWhen hk.mctpReply)

theorem execMctpMessageDiscard {_dest : BitVec 8} {_length : Nat} {_reassembles : Bool} (hk : Keeps s0 s) :
    OfOut s0 wf (execMctpMessageDiscard _dest _length _reassembles s) := by
  unfold Machine.execMctpMessageDiscard
  exact .next hk

theorem busAddress {a : Option (BitVec 7)} (hk : Keeps s0 s) : Keeps s0 (s.busAddress a) := by
  unfold State.busAddress
  exact hk.update rfl

theorem execEntdaa {address : BitVec 7} (hk : Keeps s0 s) : OfOut s0 wf (execEntdaa address s) := by
  unfold Machine.execEntdaa
  exact hk.onlyIf hk.busAddress

theorem execSetdasa {address : BitVec 7} (hk : Keeps s0 s) : OfOut s0 wf (execSetdasa address s) := by
  unfold Machine.execSetdasa
  exact hk.sbWhen hk.busAddress

theorem execRstdaa (hk : Keeps s0 s) : OfOut s0 wf (execRstdaa s) := by
  unfold Machine.execRstdaa
  exact hk.sbWhen hk.busAddress

/-! ### PLDM -/

theorem pldmReply {type command code : Nat} {rest : List Byte} (hk : Keeps s0 s) :
    Keeps s0 (s.pldmReply type command code rest) := by
  unfold State.pldmReply
  exact hk.emit

theorem pldmAsk {command : Nat} {rest : List Byte} (hk : Keeps s0 s) : Keeps s0 (s.pldmAsk command rest) := by
  unfold State.pldmAsk
  exact hk.emit

theorem execGettid (hk : Keeps s0 s) : OfOut s0 wf (execGettid s) := by
  unfold Machine.execGettid
  exact hk.sbWhen hk.pldmReply

theorem execGetpldmversion {type : BitVec 8} (hk : Keeps s0 s) : OfOut s0 wf (execGetpldmversion type s) := by
  unfold Machine.execGetpldmversion
  exact hk.sbWhen (Keeps.ite hk.pldmReply hk.pldmReply)

theorem execGetpldmtypes (hk : Keeps s0 s) : OfOut s0 wf (execGetpldmtypes s) := by
  unfold Machine.execGetpldmtypes
  exact hk.sbWhen hk.pldmReply

theorem execGetpldmcommands {type : BitVec 8} (hk : Keeps s0 s) : OfOut s0 wf (execGetpldmcommands type s) := by
  unfold Machine.execGetpldmcommands
  exact hk.sbWhen (Keeps.ite hk.pldmReply hk.pldmReply)

theorem execGetpdrrepositoryinfo (hk : Keeps s0 s) : OfOut s0 wf (execGetpdrrepositoryinfo s) := by
  unfold Machine.execGetpdrrepositoryinfo
  exact hk.sbWhen hk.pldmReply

theorem execGetpdr {record : BitVec 32} (hk : Keeps s0 s) : OfOut s0 wf (execGetpdr record s) := by
  unfold Machine.execGetpdr
  refine hk.sbWhen ?_
  split
  · exact hk.pldmReply
  · exact hk.pldmReply

theorem sensorReply {size op present : Nat} {reading : List Byte} (hk : Keeps s0 s) :
    Keeps s0 (s.sensorReply size op present reading) := by
  unfold State.sensorReply
  exact hk.draw_snd.pldmReply

theorem countReply {v : Nat} (hk : Keeps s0 s) : Keeps s0 (s.countReply v) := by
  unfold State.countReply
  exact hk.sensorReply

theorem thermalReply {i : Nat} (hk : Keeps s0 s) : Keeps s0 (s.thermalReply i) := by
  unfold State.thermalReply
  split
  · exact hk.sensorReply
  · exact hk.sensorReply

theorem execGetsensorreading {sensor : BitVec 16} (hk : Keeps s0 s) :
    OfOut s0 wf (execGetsensorreading sensor s) := by
  unfold Machine.execGetsensorreading
  exact hk.sbWhen (Keeps.ite hk.thermalReply (Keeps.ite hk.countReply
      (Keeps.ite hk.countReply (Keeps.ite hk.countReply
        (Keeps.ite hk.countReply (Keeps.ite hk.countReply hk.pldmReply))))))

theorem execGetstatesensorreadings {sensor : BitVec 16} (hk : Keeps s0 s) :
    OfOut s0 wf (execGetstatesensorreadings sensor s) := by
  unfold Machine.execGetstatesensorreadings
  refine hk.sbWhen ?_
  split
  · exact hk.draw_snd.pldmReply
  · exact hk.pldmReply

theorem execUnsupportedPldmCmd {type command : BitVec 8} (hk : Keeps s0 s) :
    OfOut s0 wf (execUnsupportedPldmCmd type command s) := by
  unfold Machine.execUnsupportedPldmCmd
  exact .ite hk.stutter (hk.sbWhen hk.pldmReply)

theorem askBlock {off : Nat} (hk : Keeps s0 s) : Keeps s0 (s.askBlock off) := by
  unfold State.askBlock
  exact hk.pldmAsk

theorem execRequestupdate {component : BitVec 16} {size : Nat} (hk : Keeps s0 s) :
    OfOut s0 wf (execRequestupdate component size s) := by
  unfold Machine.execRequestupdate
  exact hk.sbWhen (Keeps.ite hk.pldmReply (Keeps.ite hk.pldmReply
      (Keeps.ite hk.pldmReply (.askBlock (.pldmReply (hk.update rfl))))))

theorem verifyUpdate {u : Update} (hk : Keeps s0 s) : Keeps s0 (s.verifyUpdate u) := by
  unfold State.verifyUpdate
  extract_lets +onlyGivenNames s1
  have hs1 : Keeps s0 s1 := hk.pldmAsk
  split
  · exact hs1.pldmAsk
  · split
    · exact hs1.pldmAsk
    · exact .pldmAsk (hs1.pldmAsk.stage.update rfl)

theorem execRequestfirmwaredata {block : List Byte} {readsBack : Bool} (hk : Keeps s0 s) :
    OfOut s0 wf (execRequestfirmwaredata block readsBack s) := by
  unfold Machine.execRequestfirmwaredata
  split
  · exact hk.stutter
  · exact .ite hk.stutter (.ite hk.stutter (hk.sbWhen (Keeps.ite (.verifyUpdate (hk.update rfl))
      (.askBlock (hk.update rfl)))))

theorem bootImage {i : Image} (hk : Keeps s0 s) : Keeps s0 (s.bootImage i) := by
  unfold State.bootImage
  exact hk.update rfl

theorem execActivatefirmware (hk : Keeps s0 s) : OfOut s0 wf (execActivatefirmware s) := by
  unfold Machine.execActivatefirmware
  refine hk.sbWhen ?_
  split
  · exact hk.pldmReply
  · split
    · exact hk.pldmReply
    · split
      · exact hk.pldmReply
      · split
        · exact hk.pldmReply
        · extract_lets +onlyGivenNames _ s1 s2
          have hs1 : Keeps s0 s1 := hk.update rfl
          have hs2 : Keeps s0 s2 := Keeps.ite hs1.bootImage hs1.activate
          exact hs2.pldmReply

theorem dropUpdate {u : Update} (hk : Keeps s0 s) : Keeps s0 (s.dropUpdate u) := by
  unfold State.dropUpdate
  extract_lets +onlyGivenNames _ s1
  have hs1 : Keeps s0 s1 := hk.update rfl
  split
  · exact hs1.update rfl
  · exact hs1

theorem execCancelupdate (hk : Keeps s0 s) : OfOut s0 wf (execCancelupdate s) := by
  unfold Machine.execCancelupdate
  refine hk.sbWhen ?_
  split
  · exact hk.pldmReply
  · exact hk.dropUpdate.pldmReply

theorem execPldmUpdateIdle (hk : Keeps s0 s) : OfOut s0 wf (execPldmUpdateIdle s) := by
  unfold Machine.execPldmUpdateIdle
  split
  · exact hk.stutter
  · exact .next hk.at_.dropUpdate

/-! ### Pins, rails and boot -/

theorem rebase (hk : Keeps s0 s) : Keeps s0 s.rebase := by
  unfold State.rebase
  exact hk.updatePens (g := Pen.rebase s.clock.now) (fun _ w => w) rfl (Nat.le_refl _) id id id rfl

theorem porstReset (hk : Keeps s0 s) : Keeps s0 s.porstReset := by
  unfold State.porstReset
  extract_lets +onlyGivenNames s1 _ _
  have hs1 : Keeps s0 s1 := (Keeps.ite hk.emit hk)
  exact .rebase (.update (hs1.powerLoss.update rfl) rfl)

theorem execPorstLAssert {nanoseconds : Nat} (hk : Keeps s0 s) : OfOut s0 wf (execPorstLAssert nanoseconds s) := by
  unfold Machine.execPorstLAssert
  refine .ite hk.stutter ?_
  split
  next answer =>
    have hs1 := hk.draw_snd.of_snd answer
    exact .ite (.next (hs1.porstReset.update rfl)) hs1.stutter

theorem released (hk : Keeps s0 s) : Keeps s0 s.released := by
  unfold State.released
  split
  · exact hk
  · exact hk.update rfl

theorem execPorstLRelease {nodeSel : BitVec 13} {bscanL certOk : Bool} {watchman : SlotBoot}
    (hk : Keeps s0 s) : OfOut s0 wf (execPorstLRelease nodeSel bscanL certOk watchman s) := by
  unfold Machine.execPorstLRelease
  exact .ite hk.stutter (.next (.released (hk.update rfl)))

theorem execRailFault {rail : Nat} {outOfOrder : Bool} (hw : wf → ¬(decide (rail = 0) || decide (11 < rail)) = true)
    (hk : Keeps s0 s) : OfOut s0 wf (execRailFault rail outOfOrder s) := by
  unfold Machine.execRailFault
  exact .guard hw (.ite (.next (hk.porstReset.update rfl)) (.ite hk.stutter (.next (hk.porstReset.update rfl))))

theorem execRailRestored (hk : Keeps s0 s) : OfOut s0 wf (execRailRestored s) := by
  unfold Machine.execRailRestored
  exact .ite (.next (.released (hk.update rfl))) hk.stutter

theorem execRefclkAoLoss (hk : Keeps s0 s) : OfOut s0 wf (execRefclkAoLoss s) := by
  unfold Machine.execRefclkAoLoss
  exact .ite hk.stutter (.next (hk.porstReset.update rfl))

theorem execRefclkAoReturn (hk : Keeps s0 s) : OfOut s0 wf (execRefclkAoReturn s) := by
  unfold Machine.execRefclkAoReturn
  exact .ite (.next (.released (hk.update rfl))) hk.stutter

theorem execWarmRstL {nanoseconds : Nat} (hk : Keeps s0 s) : OfOut s0 wf (execWarmRstL nanoseconds s) := by
  unfold Machine.execWarmRstL
  exact .ite (.next hk.triggerWarm) hk.stutter

theorem bootPorts (hk : Keeps s0 s) : Keeps s0 s.bootPorts := by
  unfold State.bootPorts
  exact hk.update rfl

theorem bootSession {h : Handle} (hk : Keeps s0 s) : Keeps s0 (s.bootSession h) := by
  unfold State.bootSession
  split
  · exact hk
  · split
    · exact hk
    · split
      · exact hk.regrowAs
      · split
        · exact hk.recover
        · split
          · exact hk.faultSession
          · exact hk

theorem boot {channels hbmStacks : List Nat} {lostUnits : List ResetUnit} {i : Option Image} {blown : Nat}
    (hk : Keeps s0 s) : Keeps s0 (s.boot channels hbmStacks lostUnits i blown) := by
  unfold State.boot
  extract_lets +onlyGivenNames v _ s1
  have hv : Keeps s0 v := hk.riseIncarnation.climb
  have hs1 : Keeps s0 s1 :=
    ⟨hv.pending, Nat.le_trans hk.fuses (rollback_le_bootReeve ..), hv.penZero, hv.memories⟩
  clear_value s1
  extract_lets +onlyGivenNames _ _ _ s2 s3 s4 s5
  have hs2 : Keeps s0 s2 := .rebase (.bootPorts (hs1.update rfl))
  have hs3 : Keeps s0 s3 := (hs2.foldl fun ht => ht.bootSession).announce
  have hs4 : Keeps s0 s4 := hs3.serve
  have hs5 : Keeps s0 s5 := .ite hs4.raise hs4
  exact .ite (hs5.update rfl) hs5

theorem execBootServing {channels hbmStacks : List Nat} {lostUnits : List ResetUnit} {reeve : SlotBoot} {blown : Nat}
    (hk : Keeps s0 s) : OfOut s0 wf (execBootServing channels hbmStacks lostUnits reeve blown s) := by
  unfold Machine.execBootServing
  split
  · exact hk.stutter
  · split
    · exact .next hk.boot
    · exact .next (hk.update rfl)

/-! ### Fetch -/

theorem execFetch {p k : Nat} {d : Desc} (hk : Keeps s0 s) : OfOut s0 wf (execFetch p k d s) := by
  unfold Machine.execFetch
  split
  · split
    · exact hk.stutter
    · extract_lets +onlyGivenNames _ _ s2
      have hs2 : Keeps s0 s2 := .modRing (hk.update rfl)
      split
      · exact .next hs2.modRing.rejectCmd
      · split
        · exact .next hs2.rejectCmd
        · exact .ite (.next hs2.oversizeCmd) (.next hs2.colourCmd)
  · exact hk.stutter

/-! ### Counter reports -/

theorem clearPen {p : Nat} (hk : Keeps s0 s) : Keeps s0 (s.clearPen p) := by
  unfold State.clearPen
  exact hk.modPen fun _ w => w

theorem clearDevice (hk : Keeps s0 s) : Keeps s0 s.clearDevice := by
  unfold State.clearDevice
  exact hk.update rfl

theorem execCountersRead {mb : Mb} (hk : Keeps s0 s) : OfOut s0 wf (execCountersRead mb s) := by
  unfold Machine.execCountersRead
  exact hk.mbRun fun ht => ht.withPen fun _ _ => ht.unlessBad
      (.ite (.now _ ht) (.ite (.now _ ht) (.now _ (Keeps.ite
        (.clearPen (Keeps.ite (.clearDevice (ht.hostOut.modPen fun _ w => w)) (ht.hostOut.modPen fun _ w => w)))
          (ht.hostOut.modPen fun _ w => w)))))

/-! ### The host port -/

theorem heard {q : Req} (hk : Keeps s0 s) : Keeps s0 (s.heard q) := by
  unfold State.heard
  split
  · exact hk.sessionMessage
  · exact hk

theorem takeHeader {q : Req} {off : Nat} (hk : Keeps s0 s) : Keeps s0 (s.takeHeader q off) := by
  unfold State.takeHeader
  extract_lets +onlyGivenNames s1
  have hs1 : Keeps s0 s1 := hk.heard
  split
  · exact hs1.hostError
  · exact hs1

theorem hostWrite {q : Req} {pl : HostPlace} {off width : Nat} {effect : State → State} (hk : Keeps s0 s)
    (he : ∀ {t}, Keeps s0 t → Keeps s0 (effect t)) : OfOut s0 wf (hostWrite s q pl off width effect) := by
  unfold Machine.hostWrite
  refine .ite hk.stutter ?_
  extract_lets s1
  have hs1 : Keeps s0 s1 := hk.takeHeader
  split
  · exact .next hs1.hostError
  · exact .next (he (.ite hs1.sessionMessage hs1))

theorem writeHostControl {v : BitVec 64} (hk : Keeps s0 s) : Keeps s0 (s.writeHostControl v) := by
  unfold State.writeHostControl
  split
  · exact hk.update rfl
  · exact hk

theorem writeLadder {ctx : Nat} {v : BitVec 64} (hk : Keeps s0 s) : Keeps s0 (s.writeLadder ctx v) := by
  unfold State.writeLadder
  split
  · exact hk.hostError
  · split
    · exact hk.ladderReinit
    · split
      · exact hk.ladderWarm
      · exact hk.hostError

theorem hostModeration {ctx p r : Nat} {v : BitVec 64} (hk : Keeps s0 s) : Keeps s0 (s.hostModeration ctx p r v) := by
  unfold State.hostModeration
  split
  · exact hk.writeModeration
  · exact hk.hostError

theorem hostConsumer {ctx p r : Nat} {v : BitVec 64} (hk : Keeps s0 s) : Keeps s0 (s.hostConsumer ctx p r v) := by
  unfold State.hostConsumer
  split
  · exact hk.writeConsumer
  · exact hk.modEvRing.hostError

theorem writeCrier {ctx p o : Nat} {v : BitVec 64} (hk : Keeps s0 s) : Keeps s0 (s.writeCrier ctx p o v) := by
  unfold State.writeCrier
  split
  · split
    · exact hk.writeEventMask
    · exact hk.writeAttnMask
    · exact hk.writeAttnPending
    · exact hk.writeClassRoute
    · exact hk
  · extract_lets +onlyGivenNames _
    split
    · exact hk.modEvRing
    · exact hk.writeEvCtrl
    · exact hk.hostModeration
    · exact hk.hostConsumer
    · exact hk.writeEvStatus
    · exact hk

theorem writeMailbox {mb : Mb} {o : Nat} {data : List Byte} (hk : Keeps s0 s) :
    Keeps s0 (s.writeMailbox mb o data) := by
  unfold State.writeMailbox
  split
  · exact hk.writeMbSubmit
  · split
    · exact hk.writeMbStatus
    · extract_lets +onlyGivenNames s1 _
      have hs1 : Keeps s0 s1 := (Keeps.ite hk.writeMbDesc hk)
      split
      · exact hs1
      · exact hs1.writeMbPayload

theorem writePlace {ctx : Nat} {data : List Byte} {a : HostPlace} (hk : Keeps s0 s) :
    Keeps s0 (s.writePlace ctx data a) := by
  unfold State.writePlace
  split
  · exact hk.writeHostControl
  · exact hk.writeMailbox
  · exact hk.ringDoorbell
  · exact hk.writeCrier
  · split
    · exact hk.writeLadder
    · exact hk
  · exact hk
  · exact hk

theorem execHostRegisterWrite {q : Req} {off : Nat} {data : List Byte} (hk : Keeps s0 s) :
    OfOut s0 wf (execHostRegisterWrite q off data s) := by
  unfold Machine.execHostRegisterWrite
  exact hk.hostWrite fun ht => ht.writePlace

theorem execHostAccessError {q : Req} {off width : Nat} {isWrite : Bool} (hk : Keeps s0 s) :
    OfOut s0 wf (execHostAccessError q off width isWrite s) := by
  unfold Machine.execHostAccessError
  split
  · exact hk.stutter
  · extract_lets +onlyGivenNames s0'
    have hs0' : Keeps s0 s0' := hk.takeHeader
    split
    · exact .ite hk.stutter (.next (Keeps.ite hs0'.sessionMessage hs0').emit.setIdent)
    · extract_lets +onlyGivenNames s1
      have hs1 : Keeps s0 s1 := hs0'.hostError
      exact .next (Keeps.ite hs1 hs1.emit)

theorem execHealthRead {q : Req} (hk : Keeps s0 s) : OfOut s0 wf (execHealthRead q s) := by
  unfold Machine.execHealthRead
  split
  · exact hk.stutter
  · extract_lets +onlyGivenNames s0'
    have hs0' : Keeps s0 s0' := hk.takeHeader
    split
    · exact .next hs0'.hostError.emit
    · extract_lets +onlyGivenNames s1
      have hs1 : Keeps s0 s1 := (Keeps.ite hs0'.sessionMessage hs0').emit
      exact .next (hs1.update rfl)

theorem execHostErrorsClear {q : Req} {value : BitVec 64} (hk : Keeps s0 s) :
    OfOut s0 wf (execHostErrorsClear q value s) := by
  unfold Machine.execHostErrorsClear
  exact hk.hostWrite fun ht => ht.writeHostControl

theorem execLadderPenReinit {q : Req} {value : BitVec 64} (hk : Keeps s0 s) :
    OfOut s0 wf (execLadderPenReinit q value s) := by
  unfold Machine.execLadderPenReinit
  exact .ite hk.stutter (hk.hostWrite fun ht => ht.writeLadder)

theorem execLadderWarmReset {q : Req} {value : BitVec 64} (hk : Keeps s0 s) :
    OfOut s0 wf (execLadderWarmReset q value s) := by
  unfold Machine.execLadderWarmReset
  exact .ite hk.stutter (hk.hostWrite fun ht => ht.writeLadder)

theorem execDoorbell {q : Req} {pen ring : Nat} {value : BitVec 64}
    (hw : wf → ¬(decide (1024 ≤ pen) || decide (4096 ≤ ring)) = true) (hk : Keeps s0 s) : OfOut s0 wf
      (execDoorbell q pen ring value s) := by
  unfold Machine.execDoorbell
  exact .guard hw (hk.hostWrite fun ht => ht.ringDoorbell)

theorem execMailboxOverrun {q : Req} {mb : Mb} {off : Nat} {data : List Byte} (hk : Keeps s0 s) :
    OfOut s0 wf (execMailboxOverrun q mb off data s) := by
  unfold Machine.execMailboxOverrun
  exact .ite hk.stutter (hk.hostWrite fun ht => ht.writeMailbox)

theorem execMbSubmit {q : Req} {mb : Mb} {value : BitVec 64} (hk : Keeps s0 s) :
    OfOut s0 wf (execMbSubmit q mb value s) := by
  unfold Machine.execMbSubmit
  exact .ite hk.stutter (hk.hostWrite fun ht => ht.writeMbSubmit)

theorem crierPenWrite {q : Req} {pen o : Nat} {effect : State → State} (hk : Keeps s0 s) (hp : wf → ¬1024 ≤ pen)
    (he : ∀ {t}, Keeps s0 t → Keeps s0 (effect t)) : OfOut s0 wf (crierPenWrite s q pen o effect) :=
  .guard hp (hk.hostWrite he)

theorem crierRingWrite {q : Req} {pen ring o : Nat} {effect : State → State}
    (hk : Keeps s0 s) (hp : wf → ¬1024 ≤ pen) (hr : wf → ¬16 ≤ ring)
    (he : ∀ {t}, Keeps s0 t → Keeps s0 (effect t)) : OfOut s0 wf (crierRingWrite s q pen ring o effect) :=
  .guard hr (hk.crierPenWrite hp he)

theorem execEventMaskWrite {q : Req} {pen : Nat} {value : BitVec 64} (hp : wf → ¬1024 ≤ pen)
    (hk : Keeps s0 s) : OfOut s0 wf (execEventMaskWrite q pen value s) := by
  unfold Machine.execEventMaskWrite
  exact hk.crierPenWrite hp fun ht => ht.writeEventMask

theorem execAttnPendingWrite {q : Req} {pen : Nat} {value : BitVec 64} (hp : wf → ¬1024 ≤ pen)
    (hk : Keeps s0 s) : OfOut s0 wf (execAttnPendingWrite q pen value s) := by
  unfold Machine.execAttnPendingWrite
  exact hk.crierPenWrite hp fun ht => ht.writeAttnPending

theorem execAttnMaskWrite {q : Req} {pen : Nat} {value : BitVec 64} (hp : wf → ¬1024 ≤ pen)
    (hk : Keeps s0 s) : OfOut s0 wf (execAttnMaskWrite q pen value s) := by
  unfold Machine.execAttnMaskWrite
  exact hk.crierPenWrite hp fun ht => ht.writeAttnMask

theorem execEvBaseWrite {q : Req} {pen ring : Nat} {value : BitVec 64} (hp : wf → ¬1024 ≤ pen) (hr : wf → ¬16 ≤ ring)
    (hk : Keeps s0 s) : OfOut s0 wf (execEvBaseWrite q pen ring value s) := by
  unfold Machine.execEvBaseWrite
  exact hk.crierRingWrite hp hr fun ht => ht.modEvRing

theorem execEvCtrlWrite {q : Req} {pen ring : Nat} {value : BitVec 64} (hp : wf → ¬1024 ≤ pen) (hr : wf → ¬16 ≤ ring)
    (hk : Keeps s0 s) : OfOut s0 wf (execEvCtrlWrite q pen ring value s) := by
  unfold Machine.execEvCtrlWrite
  exact hk.crierRingWrite hp hr fun ht => ht.writeEvCtrl

theorem execModerationWrite {q : Req} {pen ring : Nat} {value : BitVec 64} (hp : wf → ¬1024 ≤ pen)
    (hr : wf → ¬16 ≤ ring) (hk : Keeps s0 s) : OfOut s0 wf (execModerationWrite q pen ring value s) := by
  unfold Machine.execModerationWrite
  exact hk.crierRingWrite hp hr fun ht => ht.hostModeration

theorem execConsumerWrite {q : Req} {pen ring : Nat} {value : BitVec 64} (hp : wf → ¬1024 ≤ pen)
    (hr : wf → ¬16 ≤ ring) (hk : Keeps s0 s) : OfOut s0 wf (execConsumerWrite q pen ring value s) := by
  unfold Machine.execConsumerWrite
  exact hk.crierRingWrite hp hr fun ht => ht.hostConsumer

end
end Keeps

/-! ### The dispatch -/

theorem both {a b : Bool} (h : (a && b) = true) : a = true ∧ b = true := by simpa using h

theorem not_le_of_lt {x n : Nat} (h : decide (x < n) = true) : ¬n ≤ x := Nat.not_le.2 (of_decide_eq_true h)

theorem pen_inRange {a : Bool} {pen : Nat} (h : (a && decide (pen < 1024)) = true) : ¬1024 ≤ pen := not_le_of_lt
    (both h).2

theorem evPen_inRange {a : Bool} {pen ring : Nat} (h : (a && evRingWf pen ring) = true) : ¬1024 ≤ pen :=
  not_le_of_lt (both (both h).2).1

theorem evRing_inRange {a : Bool} {pen ring : Nat} (h : (a && evRingWf pen ring) = true) : ¬16 ≤ ring :=
  not_le_of_lt (both (both h).2).2

theorem link_exists {k : Link} (h : k.wellFormed = true) : ¬(!linkExists k) = true := by
  cases k with
  | step p => simpa [Link.wellFormed, linkExists] using h
  | commons p => simpa [Link.wellFormed, linkExists] using h

theorem unit_exists {u : ResetUnit} (h : u.wellFormed = true) : ¬(!unitExists u) = true := by
  have same : unitExists u = u.wellFormed := by
    cases u <;> rfl
  rw [same, h]
  exact Bool.false_ne_true

theorem doorbell_inRange {q : Req} {pen ring : Nat} (h : (q.wellFormed && ringWf pen ring) = true) :
    ¬(decide (1024 ≤ pen) || decide (4096 ≤ ring)) = true := by
  have inRange := (both h).2
  simp only [ringWf, Bool.and_eq_true, decide_eq_true_eq, Bool.or_eq_true] at inRange ⊢
  omega

theorem rail_inRange {rail : Nat} (h : (decide (1 ≤ rail) && decide (rail ≤ 11)) = true) :
    ¬(decide (rail = 0) || decide (11 < rail)) = true := by
  simp only [Bool.and_eq_true, decide_eq_true_eq, Bool.or_eq_true] at h ⊢
  omega

/-- No command touches the queue, blows a fuse back, removes pen 0x000 or breaks a memory's form, and a well-formed
  one is
no fault. -/
theorem exec_keeps (c : Instr) (s : State) : Keeps.OfOut s (c.wellFormed = true) (exec c s) := by
  have hk := Keeps.refl s
  cases c with
  | hostRegisterWrite => exact hk.execHostRegisterWrite
  | hostAccessError => exact hk.execHostAccessError
  | healthRead => exact hk.execHealthRead
  | hostErrorsClear => exact hk.execHostErrorsClear
  | ladderPenReinit => exact hk.execLadderPenReinit
  | ladderWarmReset => exact hk.execLadderWarmReset
  | doorbell => exact hk.execDoorbell doorbell_inRange
  | mailboxOverrun => exact hk.execMailboxOverrun
  | mailboxTimeout => exact hk.execMailboxTimeout
  | mbLate => exact hk.execMbLate
  | nirvexCaps => exact hk.execNirvexCaps
  | penCreate => exact hk.execPenCreate
  | penDestroy => exact hk.execPenDestroy
  | penConfig => exact hk.execPenConfig
  | penReinit => exact hk.execPenReinit
  | penReinitRestart => exact hk.execPenReinitRestart
  | penReinitOverrun => exact hk.execPenReinitOverrun
  | ringCreate => exact hk.execRingCreate
  | ringDestroy => exact hk.execRingDestroy
  | ringConfig => exact hk.execRingConfig
  | layoutLoad => exact hk.execLayoutLoad
  | layoutUnload => exact hk.execLayoutUnload
  | constraintLoad => exact hk.execConstraintLoad
  | constraintUnload => exact hk.execConstraintUnload
  | flockCreate => exact hk.execFlockCreate
  | flockDestroy => exact hk.execFlockDestroy
  | flockPlanConfig => exact hk.execFlockPlanConfig
  | anchorSet => exact hk.execAnchorSet
  | routeSet => exact hk.execRouteSet
  | compositionSet => exact hk.execCompositionSet
  | ledgerPartnerSet => exact hk.execLedgerPartnerSet
  | nodeDown => exact hk.execNodeDown
  | checkpoint => exact hk.execCheckpoint
  | restore => exact hk.execRestore
  | fwStage => exact hk.execFwStage
  | fwActivate => exact hk.execFwActivate
  | liveUpdateDone => exact hk.execLiveUpdateDone
  | liveUpdateAbandon => exact hk.execLiveUpdateAbandon
  | watchmanImageWritten => exact hk.execWatchmanImageWritten
  | powerLimitSet => exact hk.execPowerLimitSet
  | countersRead => exact hk.execCountersRead
  | indexCreate => exact hk.execIndexCreate
  | indexDestroy => exact hk.execIndexDestroy
  | fetch => exact hk.execFetch
  | tollgateTick => exact hk.execTollgateTick
  | dispatch => exact hk.execDispatch
  | tollgateSample => exact hk.execTollgateSample
  | heartbeatWindow => exact hk.execHeartbeatWindow
  | reeveHeartbeatTick => exact hk.execReeveHeartbeatTick
  | sessionOpen => exact hk.execSessionOpen
  | sessionFork => exact hk.execSessionFork
  | sessionClose => exact hk.execSessionClose
  | sessionPark => exact hk.execSessionPark
  | sessionResume => exact hk.execSessionResume
  | sessionQuery => exact hk.execSessionQuery
  | sessionConfig => exact hk.execSessionConfig
  | leaseStage => exact hk.execLeaseStage
  | appendText => exact hk.execAppendText
  | appendTokens => exact hk.execAppendTokens
  | outputPost => exact hk.execOutputPost
  | indexInsert => exact hk.execIndexInsert
  | indexDelete => exact hk.execIndexDelete
  | indexCommit => exact hk.execIndexCommit
  | search => exact hk.execSearch
  | compactionTimer => exact hk.execCompactionTimer
  | snapshot => exact hk.execSnapshot not_le_of_lt
  | go => exact hk.execGo not_le_of_lt
  | dueCheck => exact hk.execDueCheck not_le_of_lt
  | stepAbandon => exact hk.execStepAbandon not_le_of_lt
  | stepBoundary => exact hk.execStepBoundary not_le_of_lt
  | servicePlanStep => exact hk.execServicePlanStep
  | moveStart => exact hk.execMoveStart not_le_of_lt
  | moveWriteDone => exact hk.execMoveWriteDone
  | moveFree => exact hk.execMoveFree
  | parkedDemote => exact hk.execParkedDemote
  | oxPassDone => exact hk.execOxPassDone not_le_of_lt
  | planAck => exact hk.execPlanAck not_le_of_lt
  | leaseAck => exact hk.execLeaseAck not_le_of_lt
  | reclaimed => exact hk.execReclaimed not_le_of_lt
  | reclaimTimeout => exact hk.execReclaimTimeout not_le_of_lt
  | landed => exact hk.execLanded not_le_of_lt
  | query => exact hk.execQuery not_le_of_lt
  | appendData => exact hk.execAppendData not_le_of_lt
  | rows => exact hk.execRows not_le_of_lt
  | stepDone => exact hk.execStepDone not_le_of_lt
  | stepLinkHello => exact hk.execStepLinkHello not_le_of_lt
  | slotTable => exact hk.execSlotTable not_le_of_lt
  | ready => exact hk.execReady not_le_of_lt
  | resyncDone => exact hk.execResyncDone not_le_of_lt
  | resyncTimeout => exact hk.execResyncTimeout not_le_of_lt
  | stepLinkError => exact hk.execStepLinkError not_le_of_lt
  | flit => exact hk.execFlit link_exists
  | nak => exact hk.execNak link_exists
  | replayTimer => exact hk.execReplayTimer link_exists
  | retrainDone => exact hk.execRetrainDone link_exists
  | retrainTimeout => exact hk.execRetrainTimeout link_exists
  | trainingDone => exact hk.execTrainingDone link_exists
  | trainingTimeout => exact hk.execTrainingTimeout link_exists
  | bringupOverrun => exact hk.execBringupOverrun link_exists
  | portRetry => exact hk.execPortRetry link_exists
  | flashChannelSilent => exact hk.execFlashChannelSilent not_le_of_lt
  | hbmStackFail => exact hk.execHbmStackFail not_le_of_lt
  | commonsHello => exact hk.execCommonsHello not_le_of_lt
  | write => exact hk.execWrite not_le_of_lt
  | read => exact hk.execRead not_le_of_lt
  | atomic => exact hk.execAtomic not_le_of_lt
  | copy => exact hk.execCopy not_le_of_lt
  | attendReq => exact hk.execAttendReq not_le_of_lt
  | searchReq => exact hk.execSearchReq not_le_of_lt
  | regRead => exact hk.execRegRead not_le_of_lt
  | regOffer => exact hk.execRegOffer not_le_of_lt
  | regCommit => exact hk.execRegCommit not_le_of_lt
  | regWithdraw => exact hk.execRegWithdraw not_le_of_lt
  | regLife => exact hk.execRegLife not_le_of_lt
  | regRetire => exact hk.execRegRetire not_le_of_lt
  | regRegrow => exact hk.execRegRegrow not_le_of_lt
  | regMirror => exact hk.execRegMirror not_le_of_lt
  | handoffAsk => exact hk.execHandoffAsk not_le_of_lt
  | homeChanged => exact hk.execHomeChanged not_le_of_lt
  | restarted => exact hk.execRestarted not_le_of_lt
  | records => exact hk.execRecords not_le_of_lt
  | fetchRecords => exact hk.execFetchRecords not_le_of_lt
  | drop => exact hk.execDrop not_le_of_lt
  | commonsResponse => exact hk.execCommonsResponse not_le_of_lt
  | ledgerCommit => exact hk.execLedgerCommit
  | ledgerWriteBehind => exact hk.execLedgerWriteBehind
  | partnerRetry => exact hk.execPartnerRetry
  | requestRetransmit => exact hk.execRequestRetransmit
  | routeWaitExpiry => exact hk.execRouteWaitExpiry
  | offerExpiry => exact hk.execOfferExpiry
  | handoffCheck => exact hk.execHandoffCheck
  | drainFenceEnd => exact hk.execDrainFenceEnd
  | unitReset => exact hk.execUnitReset unit_exists
  | warmReset => exact hk.execWarmReset
  | warmResetRejoin => exact hk.execWarmResetRejoin
  | reeveWatchdog => exact hk.execReeveWatchdog
  | warmResetTimeout => exact hk.execWarmResetTimeout
  | pwrCycleRelease => exact hk.execPwrCycleRelease
  | powerCycleTimeout => exact hk.execPowerCycleTimeout
  | porstLAssert => exact hk.execPorstLAssert
  | porstLRelease => exact hk.execPorstLRelease
  | bootServing => exact hk.execBootServing
  | warmRstL => exact hk.execWarmRstL
  | railFault => exact hk.execRailFault rail_inRange
  | refclkAoLoss => exact hk.execRefclkAoLoss
  | hearthTick samples energy => exact hk.execHearthTick (samples := samples) (energy := energy)
  | overrunWindow => exact hk.execOverrunWindow
  | wakeIssue => exact hk.execWakeIssue
  | domainSleep => exact hk.execDomainSleep not_le_of_lt
  | domainOffTimer => exact hk.execDomainOffTimer not_le_of_lt
  | eventMaskWrite => exact hk.execEventMaskWrite pen_inRange
  | attnPendingWrite => exact hk.execAttnPendingWrite pen_inRange
  | attnMaskWrite => exact hk.execAttnMaskWrite pen_inRange
  | evBaseWrite => exact hk.execEvBaseWrite evPen_inRange evRing_inRange
  | evCtrlWrite => exact hk.execEvCtrlWrite evPen_inRange evRing_inRange
  | moderationWrite => exact hk.execModerationWrite evPen_inRange evRing_inRange
  | consumerWrite => exact hk.execConsumerWrite evPen_inRange evRing_inRange
  | moderationTimer => exact hk.execModerationTimer fun h => not_le_of_lt (both h).2
  | sbMailbox => exact hk.execSbMailbox
  | statusRead => exact hk.execStatusRead
  | sbPenReinit => exact hk.execSbPenReinit
  | sbWarmReset => exact hk.execSbWarmReset
  | sbPowerCycle => exact hk.execSbPowerCycle
  | release => exact hk.execRelease
  | eventSubscribe => exact hk.execEventSubscribe
  | eventRecord => exact hk.execEventRecord
  | eventRecordTimeout => exact hk.execEventRecordTimeout
  | watchmanStatus => exact hk.execWatchmanStatus
  | sbBadRequest _ operands => exact hk.execSbBadRequest (_operands := operands)
  | watchmanWatchdog => exact hk.execWatchmanWatchdog
  | setEndpointId => exact hk.execSetEndpointId
  | getEndpointId => exact hk.execGetEndpointId
  | getEndpointUuid => exact hk.execGetEndpointUuid
  | getMctpVersionSupport => exact hk.execGetMctpVersionSupport
  | getMessageTypeSupport => exact hk.execGetMessageTypeSupport
  | getVendorMessageSupport => exact hk.execGetVendorMessageSupport
  | entdaa => exact hk.execEntdaa
  | setdasa => exact hk.execSetdasa
  | rstdaa => exact hk.execRstdaa
  | gettid => exact hk.execGettid
  | getpldmversion => exact hk.execGetpldmversion
  | getpldmtypes => exact hk.execGetpldmtypes
  | getpldmcommands => exact hk.execGetpldmcommands
  | getpdrrepositoryinfo => exact hk.execGetpdrrepositoryinfo
  | getpdr => exact hk.execGetpdr
  | getsensorreading => exact hk.execGetsensorreading
  | getstatesensorreadings => exact hk.execGetstatesensorreadings
  | requestupdate => exact hk.execRequestupdate
  | requestfirmwaredata => exact hk.execRequestfirmwaredata
  | activatefirmware => exact hk.execActivatefirmware
  | cancelupdate => exact hk.execCancelupdate
  | pldmUpdateIdle => exact hk.execPldmUpdateIdle
  | getVersion => exact hk.execGetVersion
  | getCapabilities => exact hk.execGetCapabilities
  | negotiateAlgorithms => exact hk.execNegotiateAlgorithms
  | getDigests => exact hk.execGetDigests
  | getCertificate => exact hk.execGetCertificate
  | challenge => exact hk.execChallenge
  | getMeasurements => exact hk.execGetMeasurements
  | keyExchange => exact hk.execKeyExchange
  | finish => exact hk.execFinish
  | endSession => exact hk.execEndSession
  | heartbeat => exact hk.execHeartbeat
  | keyUpdate => exact hk.execKeyUpdate
  | spdmHeartbeatTimeout => exact hk.execSpdmHeartbeatTimeout
  | operatorKey => exact hk.execOperatorKey
  | unsupportedRequest _ code => exact hk.execUnsupportedRequest (_code := code)
  | securedMessageTagFail => exact hk.execSecuredMessageTagFail
  | idcode => exact hk.execIdcode
  | extest => exact hk.execExtest
  | samplePreload => exact hk.execSamplePreload
  | clamp => exact hk.execClamp
  | highz => exact hk.execHighz
  | dbgNonce => exact hk.execDbgNonce
  | dbgToken => exact hk.execDbgToken
  | dbgStatus => exact hk.execDbgStatus
  | dbgRelock => exact hk.execDbgRelock
  | dtmcs => exact hk.execDtmcs
  | dmi => exact hk.execDmi
  | bypass => exact hk.execBypass
  | testLogicReset => exact hk.execTestLogicReset
  | mbSubmit => exact hk.execMbSubmit
  | lockOrAlignmentLost => exact hk.execLockOrAlignmentLost link_exists
  | anchorTimeout => exact hk.execAnchorTimeout not_le_of_lt
  | planAckTimeout => exact hk.execPlanAckTimeout not_le_of_lt
  | domainWoken => exact hk.execDomainWoken not_le_of_lt
  | refclkAoReturn => exact hk.execRefclkAoReturn
  | railRestored => exact hk.execRailRestored
  | drbgReseed => exact hk.execDrbgReseed
  | unsupportedPldmCmd => exact hk.execUnsupportedPldmCmd
  | unsupportedMctpCmd => exact hk.execUnsupportedMctpCmd
  | mctpMessageDiscard dest length reassembles =>
    exact hk.execMctpMessageDiscard (_dest := dest) (_length := length) (_reassembles := reassembles)

theorem keeps_of_exec {c : Instr} {s t : State} (ran : exec c s = .next t) : Keeps s t := by
  have answer := exec_keeps c s
  rw [ran] at answer
  cases answer with
  | next ht => exact ht

theorem exec_answers {c : Instr} (s : State) (wf : c.wellFormed = true) : ∃ t, exec c s = .next t ∧ Keeps s t := by
  have answer := exec_keeps c s
  generalize exec c s = o at answer
  cases answer with
  | next ht => exact ⟨_, rfl, ht⟩
  | fault e bad => exact absurd wf bad

/-- What a step keeps: all that a command keeps but the queue, which loses its front. -/
theorem keeps_of_step {s t : State} (ran : step s = .next t) : Keeps { s with pending := s.pending.tail } t := by
  unfold step at ran
  split at ran
  · next empty =>
    injection ran with ran
    rw [← ran, empty]
    exact ⟨empty, Nat.le_refl _, id, id⟩
  · next waiting =>
    rw [waiting]
    exact keeps_of_exec ran

/-- Settles O4: no command removes pen 0x000. -/
theorem stepKeepsPenZero : Obligations.StepKeepsPenZero := by
  unfold Obligations.StepKeepsPenZero
  exact fun s t exists_ ran => (keeps_of_step ran).penZero exists_

/-- Settles O5: every write to a payload area or to the Crier's area goes through `memWriteBytes`, or clears it. -/
theorem stepKeepsMemories : Obligations.StepKeepsMemories := by
  unfold Obligations.StepKeepsMemories
  exact fun s t wf ran => (keeps_of_step ran).memories wf

/-- Settles O6: a command is a fault only where it names what the device does not have. -/
theorem stepNeverStops : Obligations.StepNeverStops := by
  unfold Obligations.StepNeverStops
  intro s wf
  unfold step
  split
  · exact ⟨_, rfl, wf⟩
  · next c rest waiting =>
    obtain ⟨t, ran, keeps⟩ := exec_answers { s with pending := rest } (wf c (by simp [waiting]))
    refine ⟨t, ran, fun d mem => wf d ?_⟩
    rw [keeps.pending] at mem
    rw [waiting]
    exact List.mem_cons_of_mem c mem

/-- Settles O7. -/
theorem execKeepsQueue : Obligations.ExecKeepsQueue := by
  unfold Obligations.ExecKeepsQueue
  exact fun c s t ran => (keeps_of_exec ran).pending

/-- Settles O8: only an image's activation and the boot write ROLLBACK_STEP, and both blow fuses. -/
theorem fusesNeverFall : Obligations.FusesNeverFall := by
  unfold Obligations.FusesNeverFall
  exact fun s t ran => (keeps_of_step ran).fuses

end Sys2Proof.Proofs
end

section
/-!
SUPPORT. One step of the queue, and the state that reset leaves.
-/
namespace Sys2Proof.Proofs
open Sys2Proof.Machine Sys2Proof.Safety Sys2Proof.Laws

/-- Settles O1: both clauses are the two branches of `step`. -/
theorem stepRunsFront : Obligations.StepRunsFront := by
  unfold Obligations.StepRunsFront
  refine ⟨fun c rest s => step_of_pending_cons rfl, fun s empty => ?_⟩
  simp only [step, empty, idle]

/-- Settles O2: each register is read from the literal state `State.reset`. -/
theorem resetState : Obligations.ResetState := by
  unfold Obligations.ResetState
  refine ⟨rfl, ?_, rfl, ?_, ?_, rfl, rfl, rfl, rfl, rfl, rfl, rfl, rfl, rfl, rfl⟩
  · decide
  · decide
  · decide

/-- Settles O3: the memories are empty, the queue is empty, and pen 0x000 is listed. -/
theorem invariantsAtReset : Obligations.InvariantsAtReset := by
  unfold Obligations.InvariantsAtReset
  obtain ⟨crier, admin, sideBand, pens⟩ := reset_memories_wf
  exact ⟨rfl, ⟨admin, sideBand, crier, List.all_eq_true.1 pens⟩, fun c waiting => absurd waiting List.not_mem_nil⟩

end Sys2Proof.Proofs
end

section
/-!
SUPPORT. The mailbox handshake (R72): what an update of a mailbox leaves in it, what the Reeve refuses, what a completion
writes, and the statement about submission and completion.
-/
namespace Sys2Proof.Proofs
open Sys2Proof.Machine Sys2Proof.Safety Sys2Proof.Laws

/-! ### The mailboxes -/

@[simp] theorem mb?_modMb (s : State) (mb : Mb) (f : Mailbox → Mailbox) : (s.modMb mb f).mb? mb = (s.mb? mb).map f := by
  cases mb with
  | admin => rfl
  | sideBand => rfl
  | pen p =>
    simp only [State.modMb, State.mb?, State.pen?, modPen_pens, assocGet_mod, Option.map_map, Function.comp_def]

theorem mb?_modMb_ne {mb mb' : Mb} (other : mb' ≠ mb) (s : State) (f : Mailbox → Mailbox) :
    (s.modMb mb f).mb? mb' = s.mb? mb' := by
  cases mb with
  | admin => cases mb' with
    | admin => exact absurd rfl other
    | sideBand => rfl
    | pen p => rfl
  | sideBand => cases mb' with
    | admin => rfl
    | sideBand => exact absurd rfl other
    | pen p => rfl
  | pen p => cases mb' with
    | admin => rfl
    | sideBand => rfl
    | pen p' =>
      have ne : p' ≠ p := fun same => other (same ▸ rfl)
      simp only [State.modMb, State.mb?, State.pen?, modPen_pens, assocGet_mod_ne ne]

@[simp] theorem modMb_reeveQueue (s : State) (mb : Mb) (f : Mailbox → Mailbox) :
    (s.modMb mb f).reeveQueue = s.reeveQueue := by
  cases mb <;> rfl

@[simp] theorem modMb_ident (s : State) (mb : Mb) (f : Mailbox → Mailbox) : (s.modMb mb f).ident = s.ident := by
  cases mb <;> rfl

@[simp] theorem modMb_debugPort (s : State) (mb : Mb) (f : Mailbox → Mailbox) :
    (s.modMb mb f).debugPort = s.debugPort := by
  cases mb <;> rfl

/-- What a completion writes into its mailbox. -/
def completed (m : Mailbox) (seq : Nat) (d : Desc) (r : Reply) : Mailbox :=
  { m with completion := BitVec.ofNat 256 (completionNat d r 0 0), seqDone := seq, busy := false, done := true, cmd := none }

theorem mb?_mbWrite (s : State) (mb : Mb) (seq : Nat) (d : Desc) (r : Reply) :
    (s.mbWrite mb seq d r).mb? mb = (s.mb? mb).map fun m => completed m seq d r := by
  unfold State.mbWrite
  rw [(raise_crierOnly _ _ _ _ _).mb, (hwMark_crierOnly _ _).mb]
  have wrote := mb?_modMb s mb fun m => completed m seq d r
  cases mb with
  | admin => exact wrote
  | sideBand => exact wrote
  | pen p =>
    rw [← wrote]
    simp only [State.mb?, State.pen?, modPen_pens, assocGet_mod, Option.map_map, Function.comp_def]
    rfl

theorem crierOnly_reeveQueue {s t : State} (h : CrierOnly s t) : t.reeveQueue = s.reeveQueue := by rw [h.rest]

theorem mbWrite_reeveQueue (s : State) (mb : Mb) (seq : Nat) (d : Desc) (r : Reply) :
    (s.mbWrite mb seq d r).reeveQueue = s.reeveQueue := by
  unfold State.mbWrite
  rw [crierOnly_reeveQueue (raise_crierOnly _ _ _ _ _)]
  cases mb with
  | admin => rfl
  | sideBand => rfl
  | pen p => rfl

/-- The Reeve's answer to a command that its mailbox still owes is written. -/
theorem mbReply_owed {s : State} {mb : Mb} {c : MbCmd} {m : Mailbox} (at_ : s.mb? mb = some m) (busy : m.busy = true)
    (owed : m.ticket = c.ticket) (r : Reply) : s.mbReply ⟨mb, c⟩ r = s.mbWrite mb c.seq c.desc r := by
  simp only [State.mbReply, at_, busy, owed, beq_self_eq_true, Bool.and_self, if_true]

/-! ### What the Reeve refuses -/

theorem refuse_none_iff {s : State} {mb : Mb} {n : Nat} : s.refuse mb n = none ↔
    ∀ c, s.mbCmd? mb n = some c → s.reeveFree n = true → mbPrecheck s mb c.desc = none := by
  unfold State.refuse
  cases s.mbCmd? mb n with
  | none => simp
  | some c => by_cases free : s.reeveFree n = true <;> simp [free]

/-- With no refused command at its head the Reeve's queue stays. -/
theorem reeveNext_of_head {s : State} (head : ∀ x, s.reeveQueue.head? = some x → s.refuse x.1 x.2 = none) :
    s.reeveNext = s := by
  unfold State.reeveNext
  cases waiting : s.reeveQueue with
  | nil => rfl
  | cons x rest =>
    have kept := head x (by rw [waiting]; rfl)
    simp only [List.length_cons, State.refuseHeads, waiting, kept]

/-! ### Submission -/

/-- The command that a submission of `seq` to the mailbox `m` makes. -/
def submission (m : Mailbox) (s : State) (seq : Nat) : MbCmd :=
  { ticket := s.nextTicket, seq := seq, desc := m.desc, payload := m.payload, at_ := s.clock.now }

/-- The mailbox `m` with command `c` submitted. -/
def submitted (m : Mailbox) (c : MbCmd) : Mailbox :=
  { m with submit := c.seq, busy := true, done := false, cmd := some c, ticket := c.ticket, since := c.at_ }

/-- The state in which the command `c` stands submitted in mailbox `mb`. -/
def withSubmitted (s : State) (mb : Mb) (c : MbCmd) : State :=
  { s with nextTicket := s.nextTicket + 1 }.modMb mb fun m => submitted m c

section
variable {s : State} {mb : Mb} {m : Mailbox} {seq : Nat} (holds : s.mb? mb = some m)
include holds

theorem mb?_withSubmitted (c : MbCmd) :
    (withSubmitted s mb c).mb? mb = some (submitted m c) := by
  unfold withSubmitted
  rw [mb?_modMb]
  have same : { s with nextTicket := s.nextTicket + 1 }.mb? mb = s.mb? mb := by cases mb <;> rfl
  rw [same, holds]
  rfl

theorem submit_eq : s.submit mb seq =
    let c := submission m s seq
    let t := withSubmitted s mb c
    match hardwareReply s with
    | some r => t.mbReply ⟨mb, c⟩ r
    | none => if mbAdmin mb then ({ t with reeveQueue := t.reeveQueue ++ [(mb, c.ticket)] }).reeveNext
      else (t.refuse mb c.ticket).getD t := by
  simp only [State.submit, holds]
  rfl

/-- Where the hardware answers, the submission completes at once. -/
theorem submit_answered {r : Reply} (answered : hardwareReply s = some r) :
    (s.submit mb seq).mb? mb = some (completed
      (submitted m (submission m s seq)) seq m.desc r)
    ∧ (s.submit mb seq).reeveQueue = s.reeveQueue := by
  have there := mb?_withSubmitted holds (submission m s seq)
  rw [submit_eq holds, answered]
  dsimp only
  rw [mbReply_owed there rfl rfl]
  refine ⟨?_, ?_⟩
  · rw [mb?_mbWrite, there]
    rfl
  · rw [mbWrite_reeveQueue]
    exact modMb_reeveQueue _ _ _

end

theorem mbPrecheck_congr {s t : State} (same : t.ident = s.ident) (mb : Mb) (d : Desc) :
    mbPrecheck t mb d = mbPrecheck s mb d := by
  have supports : t.supports = s.supports := by
    unfold State.supports
    rw [same]
  unfold mbPrecheck
  rw [supports]

theorem reeveFree_congr {s t : State} (ident : t.ident = s.ident) (debug : t.debugPort = s.debugPort) (n : Nat) :
    t.reeveFree n = s.reeveFree n := by
  simp only [State.reeveFree, State.reeveRuns, ident, debug]

/-- Which command a mailbox holds or owes does not depend on the queue. -/
theorem mbCmd?_withSubmitted {s : State} {mb : Mb} {m : Mailbox} (holds : s.mb? mb = some m) (idle : m.cmd = none)
    (c : MbCmd) (mb' : Mb) (n : Nat) : (withSubmitted s mb c).mbCmd? mb' n =
      if mb' = mb ∧ c.ticket = n then some c else s.mbCmd? mb' n := by
  unfold State.mbCmd?
  by_cases same : mb' = mb
  · subst same
    rw [mb?_withSubmitted holds, holds]
    by_cases ticket : c.ticket = n <;> simp [submitted, idle, ticket]
  · have other : (withSubmitted s mb c).mb? mb' = s.mb? mb' := by
      unfold withSubmitted
      rw [mb?_modMb_ne same]
      cases mb' <;> rfl
    simp only [other, same, false_and, if_false]

section
variable {s : State} {mb : Mb} {m : Mailbox} {c : MbCmd} (holds : s.mb? mb = some m) (idle : m.cmd = none)
  (passes : mbPrecheck s mb c.desc = none)
include holds idle passes

/-- A submission that passes is not refused, and the Reeve refuses nothing that it did not refuse before. -/
theorem refuse_withSubmitted {mb' : Mb} {n : Nat} (before : s.refuse mb' n = none ∨ mb' = mb ∧ n = c.ticket)
    (q : List (Mb × Nat)) : { withSubmitted s mb c with reeveQueue := q }.refuse mb' n = none := by
  rw [refuse_none_iff]
  intro d held free
  have ident : { withSubmitted s mb c with reeveQueue := q }.ident = s.ident := modMb_ident _ _ _
  have debug : { withSubmitted s mb c with reeveQueue := q }.debugPort = s.debugPort := modMb_debugPort _ _ _
  rw [mbPrecheck_congr ident]
  rw [reeveFree_congr ident debug] at free
  have held' : (withSubmitted s mb c).mbCmd? mb' n = some d := by cases mb' <;> exact held
  rw [mbCmd?_withSubmitted holds idle] at held'
  split at held'
  · next own =>
    injection held' with same
    rw [← same, own.1, passes]
  · next other =>
    rcases before with before | ⟨rfl, rfl⟩
    · exact refuse_none_iff.1 before d held' free
    · exact absurd ⟨rfl, rfl⟩ other

end

section
variable {s : State} {mb : Mb} {m : Mailbox} {seq : Nat} (holds : s.mb? mb = some m) (idle : m.cmd = none)
  (head : ∀ x, s.reeveQueue.head? = some x → s.refuse x.1 x.2 = none) (passes : mbPrecheck s mb m.desc = none)
include holds idle head passes

/-- A submission that passes while the device serves waits. -/
theorem submit_waits (serving : hardwareReply s = none) : s.submit mb seq =
    let t := withSubmitted s mb (submission m s seq)
    if mbAdmin mb then { t with reeveQueue := s.reeveQueue ++ [(mb, s.nextTicket)] } else t := by
  have queue : (withSubmitted s mb (submission m s seq)).reeveQueue = s.reeveQueue := modMb_reeveQueue _ _ _
  have own (q) := refuse_withSubmitted (c := submission m s seq) holds idle passes (.inr ⟨rfl, rfl⟩) q
  rw [submit_eq holds, serving]
  dsimp only
  split
  · rw [reeveNext_of_head, queue]
    · rfl
    · intro x first
      rw [queue] at first
      cases waiting : s.reeveQueue with
      | nil =>
        rw [waiting] at first
        cases first
        exact own _
      | cons y rest =>
        rw [waiting] at first
        cases first
        exact refuse_withSubmitted (c := submission m s seq) holds idle passes 
          (.inl (head _ (by rw [waiting]; rfl))) _
  · have kept : (withSubmitted s mb (submission m s seq)).refuse mb s.nextTicket = none := own _
    exact congrArg (Option.getD · _) kept

end

/-- Settles O13: a submission that passes is refused by nobody (`refuse_withSubmitted`), the hardware's answers complete at
once, and the Reeve's answer to what is owed is `State.mbWrite`. -/
theorem mailboxHandshake : Obligations.MailboxHandshake := by
  unfold Obligations.MailboxHandshake
  refine ⟨fun s mb seq m holds idle head => ⟨fun serving passes => ?_, fun r answer => ?_⟩,
    fun s mb c r m holds busy owed => ?_⟩
  · have there := mb?_withSubmitted holds (submission m s seq)
    rw [submit_waits holds idle head passes (by simp only [hardwareReply, serving])]
    split
    · refine ⟨?_, rfl⟩
      cases mb <;> exact there
    · exact ⟨there, modMb_reeveQueue _ _ _⟩
  · refine submit_answered holds ?_
    rcases answer with ⟨state | state, rfl⟩ | ⟨state, rfl⟩ | ⟨state, rfl⟩ <;> simp only [hardwareReply, state]
  · rw [mbReply_owed holds busy owed, mb?_mbWrite, holds]
    rfl

end Sys2Proof.Proofs
end

section
/-!
SUPPORT. Completion queues and full event rings: what a change leaves in the rings of a pen, the bound on the CQ that every
completion, doorbell and fetch keeps (R74), what completing a command writes, and the events that are lost (R361, R366).
-/
namespace Sys2Proof.Proofs
open Sys2Proof.Machine Sys2Proof.Safety Sys2Proof.Laws

/-! ### The rings of a pen -/

theorem pen?_modPen_ne {p n : Nat} (other : p ≠ n) (s : State) (f : Pen → Pen) : (s.modPen n f).pen? p = s.pen? p := by
  simp only [State.pen?, modPen_pens, assocGet_mod_ne other]

theorem ring?_modPen {s : State} {n p k : Nat} {f : Pen → Pen} (same : ∀ q, (f q).rings = q.rings) :
    (s.modPen n f).ring? p k = s.ring? p k := by
  unfold State.ring?
  by_cases here : p = n
  · subst here
    rw [pen?_modPen]
    cases s.pen? p with
    | none => rfl
    | some q => simp only [Option.map_some, Option.bind_some, same]
  · rw [pen?_modPen_ne here]

theorem ring?_modRing_ne {p k p' k' : Nat} (other : (p', k') ≠ (p, k)) (s : State) (f : Ring → Ring) :
    (s.modRing p k f).ring? p' k' = s.ring? p' k' := by
  unfold State.ring? State.modRing
  by_cases pen : p' = p
  · subst pen
    have ring : k' ≠ k := fun h => other (h ▸ rfl)
    rw [pen?_modPen]
    cases s.pen? p' with
    | none => rfl
    | some q => simp only [Option.map_some, Option.bind_some, assocGet_mod_ne ring]
  · rw [pen?_modPen_ne pen]

theorem ring?_bumpPen (s : State) (n : Nat) (c : PenCtr) (m p k : Nat) : (s.bumpPen n c m).ring? p k = s.ring? p k :=
  ring?_modPen fun _ => rfl

theorem ring?_hostOut (s : State) (o : Output) (p k : Nat) : (s.hostOut o).ring? p k = s.ring? p k := by
  simp only [State.ring?, State.pen?, hostOut_pens]

theorem ring?_modMb (s : State) (mb : Mb) (f : Mailbox → Mailbox) (p k : Nat) :
    (s.modMb mb f).ring? p k = s.ring? p k := by
  cases mb with
  | admin => rfl
  | sideBand => rfl
  | pen n => exact ring?_modPen (f := fun q => { q with mailbox := f q.mailbox }) fun _ => rfl

theorem ring?_mbWrite (s : State) (mb : Mb) (seq : Nat) (d : Desc) (r : Reply) (p k : Nat) :
    (s.mbWrite mb seq d r).ring? p k = s.ring? p k := by
  unfold State.mbWrite
  rw [(raise_crierOnly _ _ _ _ _).ring, (hwMark_crierOnly _ _).ring]
  cases mb with
  | admin => rfl
  | sideBand => exact (emit_crierOnly _ _).ring p k
  | pen n => exact (ring?_modPen (f := fun q => { q with mbServiced := true }) fun _ => rfl).trans (ring?_modMb s (.pen n) _ p k)

theorem ring?_mbReply (s : State) (r : MbRef) (y : Reply) (p k : Nat) : (s.mbReply r y).ring? p k = s.ring? p k := by
  unfold State.mbReply
  split
  · rfl
  · split
    · exact ring?_mbWrite _ _ _ _ _ p k
    · exact ring?_bumpPen _ _ _ _ p k

theorem ring?_mbTake (s : State) (mb : Mb) (c : MbCmd) (p k : Nat) : (s.mbTake mb c).ring? p k = s.ring? p k :=
  ring?_modMb s mb _ p k

theorem ring?_refuse {s t : State} {mb : Mb} {n : Nat} (refused : s.refuse mb n = some t) (p k : Nat) :
    t.ring? p k = s.ring? p k := by
  simp only [State.refuse, Option.bind_eq_some_iff] at refused
  obtain ⟨c, -, refused⟩ := refused
  split at refused
  · obtain ⟨r, -, rfl⟩ := Option.map_eq_some_iff.1 refused
    exact (ring?_mbReply _ _ _ p k).trans (ring?_mbTake s mb c p k)
  · cases refused

theorem ring?_refuseHeads (n : Nat) (s : State) (p k : Nat) : (s.refuseHeads n).ring? p k = s.ring? p k := by
  induction n generalizing s with
  | zero => rfl
  | succ n ih =>
    unfold State.refuseHeads
    split
    · rfl
    · split
      · rfl
      · next refused => exact (ih _).trans (ring?_refuse refused p k)

theorem ring?_mbFinish (s : State) (r : MbRef) (y : Reply) (p k : Nat) : (s.mbFinish r y).ring? p k = s.ring? p k :=
  (ring?_refuseHeads _ _ p k).trans (ring?_mbReply s r y p k)

/-! ### The bound on the CQ -/

/-- Each ring of `t` is one of `s`, and keeps within its CQ where that one does. -/
def FitsKept (s t : State) : Prop :=
  ∀ p k g', t.ring? p k = some g' → ∃ g, s.ring? p k = some g ∧ (ringFits g → ringFits g')

namespace FitsKept

theorem of_rings {s t : State} (same : ∀ p k, t.ring? p k = s.ring? p k) : FitsKept s t :=
  fun p k g' found => ⟨g', (same p k).symm.trans found, id⟩

theorem refl (s : State) : FitsKept s s := .of_rings fun _ _ => rfl

theorem trans {s t u : State} (a : FitsKept s t) (b : FitsKept t u) : FitsKept s u := by
  intro p k g' found
  obtain ⟨g, found, later⟩ := b p k g' found
  obtain ⟨g, found, sooner⟩ := a p k g found
  exact ⟨g, found, later ∘ sooner⟩

theorem crierOnly {s t : State} (h : CrierOnly s t) : FitsKept s t := .of_rings h.ring

theorem modRing {s : State} {p k : Nat} {f : Ring → Ring}
    (fits : ∀ g, s.ring? p k = some g → ringFits g → ringFits (f g)) : FitsKept s (s.modRing p k f) := by
  intro p' k' g' found
  by_cases here : (p', k') = (p, k)
  · cases here
    rw [ring?_modRing] at found
    obtain ⟨g, there, rfl⟩ := Option.map_eq_some_iff.1 found
    exact ⟨g, there, fits g there⟩
  · rw [ring?_modRing_ne here] at found
    exact ⟨g', found, id⟩

theorem after_modRing {s t : State} {p k : Nat} {f : Ring → Ring} (later : FitsKept (s.modRing p k f) t)
    (fits : ∀ g, s.ring? p k = some g → ringFits g → ringFits (f g)) : FitsKept s t :=
  (modRing fits).trans later

theorem foldl {α : Type} {f : State → α → State} (step : ∀ t x, FitsKept t (f t x)) (l : List α) (s : State) :
    FitsKept s (l.foldl f s) := by
  induction l generalizing s with
  | nil => exact .refl s
  | cons a l ih => exact (step s a).trans (ih _)

end FitsKept

/-- Deleting a ring leaves the others as they were. -/
theorem deleteRing_fitsKept (s : State) (p k : Nat) :
    FitsKept s (s.modPen p fun q => { q with rings := assocDel k q.rings }) := by
  intro p' k' g' found
  unfold State.ring? at found
  by_cases pen : p' = p
  · subst pen
    rw [pen?_modPen] at found
    obtain ⟨q', mapped, listed⟩ := Option.bind_eq_some_iff.1 found
    obtain ⟨q, there, rfl⟩ := Option.map_eq_some_iff.1 mapped
    by_cases ring : k' = k
    · subst ring
      rw [assocGet_del] at listed
      cases listed
    · rw [assocGet_del_ne ring] at listed
      exact ⟨g', Option.bind_eq_some_iff.2 ⟨q, there, listed⟩, id⟩
  · rw [pen?_modPen_ne pen] at found
    exact ⟨g', found, id⟩

theorem ringGone_fitsKept (s : State) (p k : Nat) : FitsKept s (s.ringGone p k) := by
  unfold State.ringGone
  split
  · exact .refl s
  · split
    · exact .refl s
    · split
      · refine FitsKept.trans ?_ (.foldl (fun t c => .of_rings (ring?_mbFinish t _ _)) _ _)
        exact (deleteRing_fitsKept s p k).trans (.of_rings (ring?_mbFinish _ _ _))
      · exact .refl s

theorem cqAdvanced_fitsKept (s : State) (p k r w : Nat) : FitsKept s (s.cqAdvanced p k r w) := by
  unfold State.cqAdvanced
  split
  · exact .refl s
  · split
    · exact .refl s
    · have told := (FitsKept.crierOnly (raiseTo_crierOnly s p 0x0201 k w (some r))).trans
        (.modRing (p := p) (k := k) (f := fun g => { g with loud := false }) fun _ _ fits => fits)
      dsimp only
      split
      · exact told
      · split
        · exact told
        · exact told.trans (.crierOnly (modEvRing_crierOnly _ _ _ _))

/-- A record in the CQ takes the slot that was reserved for it. -/
theorem ringFits_completed {g g' : Ring} {n : Nat} (owed : n ∈ g.inflight)
    (after : (g'.cqLog2, g'.cqHead, g'.written, g'.inflight)
      = (g.cqLog2, g.cqHead, add32 g.written 1, g.inflight.filter (· != n)))
    (fits : ringFits g) : ringFits g' := by
  simp only [Prod.mk.injEq] at after
  obtain ⟨size, head, written, inflight⟩ := after
  obtain ⟨small, room⟩ := fits
  have freed : (g.inflight.filter (· != n)).length < g.inflight.length :=
    List.length_filter_lt_length_iff_exists.2 ⟨n, owed, by simp⟩
  refine ⟨size ▸ small, ?_⟩
  rw [written, head, inflight, size]
  simp only [sub32, add32] at room ⊢
  omega

/-- What `State.complete` makes of the ring that the command came from. -/
def completedRing (c : RingCmd) (r : Reply) (g : Ring) : Ring :=
  { (if r.status = .throttled then g.bump .throttled 1 else g) with
    written := add32 g.written 1, inflight := g.inflight.filter (· != c.serial),
    loud := g.loud || !descFlag c.desc 17, serviced := true }

/-- The counters that a completion's status raises. -/
def completionCounted (s : State) (c : RingCmd) (r : Reply) : State :=
  match r.status with
  | .abortedRetryable => s.bumpPen c.pen .aborted 1
  | .retryUnitReset => s.bumpPen c.pen .unitResetRetries 1
  | .redirect => s.bumpDev .redirects 1
  | _ => s

theorem ring?_completionCounted (s : State) (c : RingCmd) (r : Reply) (p k : Nat) :
    (completionCounted s c r).ring? p k = s.ring? p k := by
  unfold completionCounted
  split
  · exact ring?_bumpPen _ _ _ _ p k
  · exact ring?_bumpPen _ _ _ _ p k
  · rfl
  · rfl

theorem completionCounted_out (s : State) (c : RingCmd) (r : Reply) : (completionCounted s c r).out = s.out := by
  unfold completionCounted
  split <;> rfl

/-- The record of a completion is written, the ring updated and the completion counted. -/
def completionWritten (s : State) (c : RingCmd) (r : Reply) (g : Ring) : State :=
  completionCounted ((s.hostOut (.hostWrite (g.cqBase + 32 * (g.written % 2 ^ g.cqLog2))
    (natToBytes 32 (completionNat c.desc r g.fetched (phaseOf g.written (2 ^ g.cqLog2)))))).modRing c.pen c.ring
      (completedRing c r)) c r

theorem complete_owed {s : State} {c : RingCmd} {g : Ring} (there : s.ring? c.pen c.ring = some g)
    (owed : c.serial ∈ g.inflight) (r : Reply) : s.complete c r =
      (match g.eventRing with
      | none => completionWritten s c r g
      | some e => if g.loud || !descFlag c.desc 17 then (completionWritten s c r g).cqAdvanced c.pen c.ring e (add32 g.written 1)
        else completionWritten s c r g).ringGone c.pen c.ring := by
  simp only [State.complete, there, List.contains_iff_mem, owed, if_true]
  rfl

theorem completionWritten_fitsKept {s : State} {c : RingCmd} {g : Ring} (there : s.ring? c.pen c.ring = some g)
    (owed : c.serial ∈ g.inflight) (r : Reply) : FitsKept s (completionWritten s c r g) := by
  unfold completionWritten
  refine FitsKept.trans (FitsKept.trans (.of_rings (ring?_hostOut s _)) (.modRing ?_))
    (.of_rings (ring?_completionCounted _ c r))
  intro g' found
  rw [ring?_hostOut, there] at found
  cases found
  exact ringFits_completed owed (by unfold completedRing; split <;> rfl)

theorem complete_fitsKept (s : State) (c : RingCmd) (r : Reply) : FitsKept s (s.complete c r) := by
  cases there : s.ring? c.pen c.ring with
  | none =>
    simp only [State.complete, there]
    exact .refl s
  | some g =>
    by_cases owed : c.serial ∈ g.inflight
    · have written := completionWritten_fitsKept there owed r
      rw [complete_owed there owed]
      refine FitsKept.trans ?_ (ringGone_fitsKept _ _ _)
      split
      · exact written
      · split
        · exact written.trans (cqAdvanced_fitsKept _ _ _ _ _)
        · exact written
    · simp only [State.complete, there, List.contains_iff_mem, owed, if_false]
      exact .refl s

/-! ### Doorbells -/

theorem ringFits_acceptDoorbell {g : Ring} {tail head now : Nat} (ok : g.doorbellOk tail head = true)
    (fits : ringFits g) : ringFits (acceptDoorbell tail head now g) := by
  obtain ⟨-, -, forward, behind⟩ := (doorbellOk_iff g tail head).1 ok
  obtain ⟨small, room⟩ := fits
  have size : 2 ^ g.cqLog2 ≤ 2 ^ 15 := Nat.pow_le_pow_right (by decide) small
  refine ⟨small, ?_⟩
  simp only [acceptDoorbell, sub32] at forward behind room ⊢
  generalize 2 ^ g.cqLog2 = cq at *
  omega

theorem ringDoorbell_fitsKept (s : State) (p k : Nat) (v : BitVec 64) : FitsKept s (s.ringDoorbell p k v) := by
  by_cases absent : ∀ g, s.ring? p k = some g → g.destroying.isSome = true
  · rw [ringDoorbell_absent absent]
    exact .of_rings fun p' k' => ring?_bumpPen s p .dbInvalid 1 p' k'
  · simp only [Classical.not_forall, Bool.not_eq_true, Option.isSome_eq_false_iff, Option.isNone_iff_eq_none] at absent
    obtain ⟨g, there, live⟩ := absent
    by_cases ok : g.doorbellOk (doorbellTail v) (doorbellHead v) = true
    · rw [ringDoorbell_accepted there live ok]
      refine .modRing fun g' found => ?_
      rw [there] at found
      cases found
      exact ringFits_acceptDoorbell ok
    · rw [ringDoorbell_discarded there live ok]
      exact .after_modRing (.crierOnly (raiseTo_crierOnly _ _ _ _ _ _)) fun _ _ fits => fits

theorem hostError_fitsKept (s : State) (e : HostErr) (ctx off : Nat) : FitsKept s (s.hostError e ctx off) :=
  FitsKept.trans (t := hostErrorCounted s e) (.of_rings fun _ _ => rfl) (.crierOnly (hostError_crierOnly s e ctx off))

theorem takeHeader_fitsKept (s : State) (q : Req) (off : Nat) : FitsKept s (s.takeHeader q off) := by
  have heard : FitsKept s (s.heard q) := by
    unfold State.heard
    split <;> exact .of_rings fun _ _ => rfl
  unfold State.takeHeader
  dsimp only
  split
  · exact heard.trans (hostError_fitsKept _ _ _ _)
  · exact heard

theorem hostTaken_fitsKept (s : State) (q : Req) (off : Nat) : FitsKept s (hostTaken s q off) := by
  have header := takeHeader_fitsKept s q off
  unfold hostTaken
  dsimp only
  split
  · exact header.trans (.of_rings fun _ _ => rfl)
  · exact header

/-- What a write at the host port comes to (R64). -/
theorem hostWrite_cases {s t : State} {q : Req} {pl : HostPlace} {off width : Nat} {effect : State → State}
    (ran : hostWrite s q pl off width effect = .next t) :
    t = s ∨ (∃ e, t = (s.takeHeader q off).hostError e q.ctx off) ∨ t = effect (hostTaken s q off) := by
  unfold hostWrite at ran
  dsimp only at ran
  split at ran
  · cases ran
    exact .inl rfl
  · split at ran
    · cases ran
      exact .inr (.inl ⟨_, rfl⟩)
    · cases ran
      exact .inr (.inr rfl)

theorem hostWrite_fitsKept {s t : State} {q : Req} {pl : HostPlace} {off width : Nat} {effect : State → State}
    (kept : ∀ u, FitsKept u (effect u)) (ran : hostWrite s q pl off width effect = .next t) : FitsKept s t := by
  obtain rfl | ⟨e, rfl⟩ | rfl := hostWrite_cases ran
  · exact .refl _
  · exact (takeHeader_fitsKept s q off).trans (hostError_fitsKept _ _ _ _)
  · exact (hostTaken_fitsKept s q off).trans (kept _)

theorem doorbell_fitsKept {q : Req} {p k : Nat} {v : BitVec 64} {s t : State}
    (ran : exec (.doorbell q p k v) s = .next t) : FitsKept s t := by
  change execDoorbell q p k v s = _ at ran
  unfold execDoorbell at ran
  split at ran
  · cases ran
  · exact hostWrite_fitsKept (fun u => ringDoorbell_fitsKept u p k v) ran

/-! ### Fetches -/

theorem rejectCmd_fitsKept (s : State) (p k : Nat) (c : RingCmd) (r : Reply) : FitsKept s (s.rejectCmd p k c r) :=
  .after_modRing (complete_fitsKept _ _ _) fun _ _ fits => fits

theorem oversizeCmd_fitsKept (s : State) (p k : Nat) (c : RingCmd) : FitsKept s (s.oversizeCmd p k c) :=
  .after_modRing (rejectCmd_fitsKept _ _ _ _ _) fun _ _ fits => fits

theorem colourCmd_fitsKept (s : State) (p k : Nat) (c : RingCmd) : FitsKept s (s.colourCmd p k c) := by
  unfold State.colourCmd
  split
  · exact .refl s
  · split
    · split
      · exact .modRing fun _ _ fits => fits
      · exact .after_modRing (complete_fitsKept _ _ _) fun _ _ fits => fits
    · exact .modRing fun _ _ fits => fits

/-- A fetch reserves a slot, and only where one is free. -/
theorem ringFits_fetched {g : Ring} {n : Nat} (fetchable : g.fetchable = true) (fits : ringFits g) :
    ringFits { g with fetched := add32 g.fetched 1, inflight := g.inflight ++ [n], serviced := true } := by
  have room : sub32 g.written g.cqHead + g.inflight.length < 2 ^ g.cqLog2 := by
    simp only [Ring.fetchable, Bool.and_eq_true, decide_eq_true_eq] at fetchable
    exact fetchable.2
  refine ⟨fits.1, ?_⟩
  simp only [List.length_append, List.length_singleton]
  omega

theorem fetch_fitsKept {p k : Nat} {d : Desc} {s t : State} (ran : exec (.fetch p k d) s = .next t) : FitsKept s t := by
  change execFetch p k d s = _ at ran
  unfold execFetch at ran
  split at ran
  · next g arb there turn =>
    split at ran
    · cases ran
      exact .refl s
    · next runs =>
      have fetchable : g.fetchable = true := by
        simp only [Bool.or_eq_true, Bool.not_eq_true', not_or, Bool.not_eq_false] at runs
        exact runs.2
      extract_lets cmd s1 s2 at ran
      have taken : FitsKept s s2 := by
        refine FitsKept.trans (t := s1) (.of_rings fun _ _ => rfl) (.modRing fun g' found => ?_)
        have same : s.ring? p k = some g' := found
        rw [there] at same
        cases same
        exact ringFits_fetched fetchable
      clear_value s2
      split at ran
      · cases ran
        exact taken.trans (.after_modRing (rejectCmd_fitsKept _ _ _ _ _) fun _ _ fits => fits)
      · split at ran
        · cases ran
          exact taken.trans (rejectCmd_fitsKept _ _ _ _ _)
        · split at ran
          · cases ran
            exact taken.trans (oversizeCmd_fitsKept _ _ _ _)
          · cases ran
            exact taken.trans (colourCmd_fitsKept _ _ _ _)
  · cases ran
    exact .refl s

/-- Settles O15: a completion gives back the slot it takes, a doorbell moves the head no further than WRITTEN, and a fetch
reserves only a free slot. -/
theorem cqNeverOverflows : Obligations.CqNeverOverflows := by
  unfold Obligations.CqNeverOverflows
  have kept {s t : State} {p k : Nat} {g g' : Ring} (h : FitsKept s t) (before : s.ring? p k = some g) (fits : ringFits g)
      (after : t.ring? p k = some g') : ringFits g' := by
    obtain ⟨x, there, step⟩ := h p k g' after
    rw [before] at there
    cases there
    exact step fits
  exact ⟨fun s c r p k g g' before fits after => kept (complete_fitsKept s c r) before fits after,
    fun q p k v s t g g' ran before fits after => kept (doorbell_fitsKept ran) before fits after,
    fun d p k s t g g' ran before fits after => kept (fetch_fitsKept ran) before fits after⟩

/-! ### A completion's record -/

theorem ringGone_live {s : State} {p k : Nat} (live : ∀ g, s.ring? p k = some g → g.destroying = none) :
    s.ringGone p k = s := by
  unfold State.ringGone
  split
  · rfl
  · next g there => simp only [live g there]

/-- Settles O14: where no event ring is told and the ring stays, a completion is its record, the ring's update and a count. -/
theorem ringCompletes : Obligations.RingCompletes := by
  unfold Obligations.RingCompletes
  intro s c r g there owed silent live
  have ring : (completionWritten s c r g).ring? c.pen c.ring = some (completedRing c r g) := by
    unfold completionWritten
    rw [ring?_completionCounted, ring?_modRing, ring?_hostOut, there]
    rfl
  have stays : (completedRing c r g).destroying = none := by
    unfold completedRing
    split <;> exact live
  have answer : s.complete c r = completionWritten s c r g := by
    rw [complete_owed there owed, silent]
    exact ringGone_live fun g' found => by
      rw [ring] at found
      cases found
      exact stays
  rw [answer]
  refine ⟨?_, fun unlocked => ?_⟩
  · rw [ring]
    unfold completedRing
    split <;> rfl
  · unfold completionWritten
    rw [completionCounted_out, modRing_out]
    simp only [State.hostOut, unlocked, Bool.false_and, Bool.false_eq_true, if_false, emit_out, phaseOf]

/-! ### Lost events -/

theorem crierOf_modPen {s : State} {p : Nat} {q : Pen} (there : s.pen? p = some q) (f : Pen → Pen) :
    (s.modPen p f).crierOf p = (f q).crier := by
  rw [crierOf_of_pen (q := f q)]
  rw [pen?_modPen, there]
  rfl

/-- Settles O16: the three branches of `State.evRoute` and `State.raiseTo` that write no record. -/
theorem eventsLost : Obligations.EventsLost := by
  unfold Obligations.EventsLost
  intro s p r code p0 p1 q there
  have isSome : (s.pen? p).isSome = true := by rw [there]; rfl
  have ring : (s.crierOf p).ring r = q.crier.ring r := by rw [crierOf_of_pen there]
  refine ⟨⟨fun enabled full => ?_, fun disabled => ?_⟩, fun masked => ?_⟩
  · have route : s.evRoute p r code p0 p1 = ((s.modEvRing p r fun e => { e with nextSeq := e.nextSeq + 1 }).modEvRing p r
        fun e => { e with lostPending := satBits 32 (e.lostPending + 1), overflowed := true,
                          firstLost := if e.lostPending = 0 then e.nextSeq - 1 else e.firstLost }).hwMark (.overflowed p r) := by
      simp only [State.evRoute, there, enabled, full, Bool.not_true, Bool.false_eq_true, if_false, if_true]
    rw [route]
    refine ⟨rfl, ?_⟩
    rw [(hwMark_evRingsKept _ _).ring, evRing_modEvRing (pen?_modEvRing_isSome isSome r _), evRing_modEvRing isSome, ring]
    rfl
  · have route : s.evRoute p r code p0 p1 = (s.modEvRing p r fun e => { e with nextSeq := e.nextSeq + 1 }).modPen p
        fun q => { q with crier := { q.crier with disabledDrops := satBits 32 (q.crier.disabledDrops + 1) } } := by
      simp only [State.evRoute, there, disabled, Bool.not_false, if_true]
    have counted : (s.modEvRing p r fun e => { e with nextSeq := e.nextSeq + 1 }).pen? p = _ := pen?_modPen s p _
    rw [there] at counted
    rw [route]
    refine ⟨rfl, ?_, ?_⟩
    · rw [crierOf_modPen counted]
      rfl
    · have rings := modPen_evRingsKept (s.modEvRing p r fun e => { e with nextSeq := e.nextSeq + 1 }) p
        (fun q => { q with crier := { q.crier with disabledDrops := satBits 32 (q.crier.disabledDrops + 1) } }) fun _ => rfl
      rw [rings.ring, evRing_modEvRing isSome, ring]
  · simp only [State.raise, State.raiseTo, there, bitOf_eq_testBit, masked, if_true, satBits]

end Sys2Proof.Proofs
end

section
/-!
SUPPORT. What side-band queries, SPDM and the debug port may change (O57): the relation that each of their meanings keeps.
-/
namespace Sys2Proof.Proofs
open Sys2Proof.Machine Sys2Proof.Safety Sys2Proof.Laws

/-- `t` differs from `s` in nothing but the clock, the values drawn, SPDM, the debug port, the Watchman and what is sent. -/
structure ManagementOnly (s t : State) : Prop where
  rest : t = { s with
    clock := t.clock, free := t.free, security := t.security, debugPort := t.debugPort, watchman := t.watchman, out := t.out }

namespace ManagementOnly

variable {s t u v : State}

theorem refl (s : State) : ManagementOnly s s := ⟨rfl⟩

theorem trans (a : ManagementOnly s t) (b : ManagementOnly t u) : ManagementOnly s u := by
  refine ⟨?_⟩
  rw [b.rest, a.rest]

theorem ite {p : Prop} [Decidable p] (a : ManagementOnly s t) (b : ManagementOnly s u) :
    ManagementOnly s (if p then t else u) := by
  split
  · exact a
  · exact b

theorem emit (s : State) (o : Output) : ManagementOnly s (s.emit o) := ⟨rfl⟩

theorem spdmReply (s : State) (transport : Transport) (code : Nat) (body : List Byte) :
    ManagementOnly s (s.spdmReply transport code body) := emit s _

theorem shiftOut (s : State) (code width value : Nat) : ManagementOnly s (s.shiftOut code width value) :=
  trans (t := s.modDebug fun d => { d with tap := code }) ⟨rfl⟩ (emit _ _)

theorem modDebug (s : State) (f : Debug → Debug) : ManagementOnly s (s.modDebug f) := ⟨rfl⟩

theorem draw (s : State) : ManagementOnly s s.draw.2 := ⟨rfl⟩

theorem security (s : State) (x : Security) : ManagementOnly s { s with security := x } := ⟨rfl⟩

theorem watchman (s : State) (x : Watchman) : ManagementOnly s { s with watchman := x } := ⟨rfl⟩

theorem spdmError (s : State) (transport : Transport) (error : Nat) : ManagementOnly s (s.spdmError transport error) :=
  emit s _

theorem sensorReply (s : State) (size opState state : Nat) (reading : List Byte) :
    ManagementOnly s (s.sensorReply size opState state reading) := (draw s).trans (emit _ _)

theorem foldl_emit (l : List Output) (s : State) : ManagementOnly s (l.foldl (fun t o => t.emit o) s) := by
  induction l generalizing s with
  | nil => exact .refl s
  | cons o l ih => exact (emit s o).trans (ih _)

theorem openSpdm (s : State) : ManagementOnly s s.openSpdm := by
  unfold State.openSpdm State.releaseHeld
  exact (((security s _).trans (spdmReply _ _ _ _)).trans (security _ _)).trans (foldl_emit _ _)

/-! ### The carriers -/

theorem of_sbWhen {inRecovery : Bool} (ran : sbWhen s inRecovery u = .next t) (kept : ManagementOnly s u) :
    ManagementOnly s t := by
  unfold sbWhen at ran
  split at ran
  · cases ran
    exact kept
  · cases ran
    exact .refl s

theorem of_onlyIf {p : Bool} (ran : onlyIf p s u = .next t) (kept : ManagementOnly s u) : ManagementOnly s t := by
  unfold onlyIf at ran
  split at ran
  · cases ran
    exact kept
  · cases ran
    exact .refl s

theorem of_mctpWhen {dest : BitVec 8} (ran : mctpWhen s dest u = .next t) (kept : ManagementOnly s u) :
    ManagementOnly s t := by
  unfold mctpWhen at ran
  split at ran
  · exact of_sbWhen ran kept
  · cases ran
    exact .refl s

theorem of_tapWhen (ran : tapWhen s u = .next t) (kept : ManagementOnly s u) : ManagementOnly s t := of_onlyIf ran kept

theorem of_bscanOnly (ran : bscanOnly s u = .next t) (kept : ManagementOnly s u) : ManagementOnly s t :=
  of_tapWhen ran (.ite kept ((modDebug s _).trans (shiftOut _ _ _ _)))

theorem of_spdmWhen {transport : Transport} (ran : spdmWhen s transport (.next u) = .next t) (kept : ManagementOnly s u) :
    ManagementOnly s t := by
  unfold spdmWhen at ran
  split at ran
  · cases ran
    exact kept
  · cases ran
    exact .refl s

theorem of_spdmAfter {transport : Transport} (ran : spdmAfter s transport u = .next t) (kept : ManagementOnly s u) :
    ManagementOnly s t :=
  of_spdmWhen ran (.ite kept (spdmError s _ _))

theorem of_sessionOnly {transport : Transport} (ran : sessionOnly s transport u = .next t) (kept : ManagementOnly s u) :
    ManagementOnly s t := by
  refine of_spdmWhen ran ?_
  split
  · exact spdmError s _ _
  · exact kept

theorem of_inSession {transport : Transport} {body : State → State}
    (ran : inSession s transport body = .next t) (kept : ∀ u, ManagementOnly u (body u)) : ManagementOnly s t :=
  of_sessionOnly ran (.ite ((security s _).trans (kept _)) (spdmError s _ _))

/-! ### The meanings that are more than one answer -/

theorem of_getsensorreading {sensor : BitVec 16} (ran : exec (.getsensorreading sensor) s = .next t) : ManagementOnly s t := by
  change execGetsensorreading sensor s = _ at ran
  unfold execGetsensorreading at ran
  refine of_sbWhen ran (.ite ?_ (.ite (sensorReply s _ _ _ _) (.ite (sensorReply s _ _ _ _)
    (.ite (sensorReply s _ _ _ _) (.ite (sensorReply s _ _ _ _) (.ite (sensorReply s _ _ _ _) (emit s _)))))))
  unfold State.thermalReply
  split <;> exact sensorReply s _ _ _ _

theorem of_getstatesensorreadings {sensor : BitVec 16} (ran : exec (.getstatesensorreadings sensor) s = .next t) :
    ManagementOnly s t := by
  change execGetstatesensorreadings sensor s = _ at ran
  unfold execGetstatesensorreadings at ran
  refine of_sbWhen ran ?_
  split
  · exact (draw s).trans (emit _ _)
  · exact emit s _

theorem of_getpdr {record : BitVec 32} (ran : exec (.getpdr record) s = .next t) : ManagementOnly s t := by
  change execGetpdr record s = _ at ran
  unfold execGetpdr at ran
  refine of_sbWhen ran ?_
  split <;> exact emit s _

theorem of_unsupportedMctpCmd {dest command : BitVec 8} (ran : exec (.unsupportedMctpCmd dest command) s = .next t) :
    ManagementOnly s t := by
  change execUnsupportedMctpCmd dest command s = _ at ran
  unfold execUnsupportedMctpCmd at ran
  split at ran
  · cases ran
    exact .refl s
  · exact of_mctpWhen ran (emit s _)

theorem of_unsupportedPldmCmd {type command : BitVec 8} (ran : exec (.unsupportedPldmCmd type command) s = .next t) :
    ManagementOnly s t := by
  change execUnsupportedPldmCmd type command s = _ at ran
  unfold execUnsupportedPldmCmd at ran
  split at ran
  · cases ran
    exact .refl s
  · exact of_sbWhen ran (emit s _)

theorem of_spdmHeartbeatTimeout (ran : exec .spdmHeartbeatTimeout s = .next t) : ManagementOnly s t := by
  change execSpdmHeartbeatTimeout s = _ at ran
  unfold execSpdmHeartbeatTimeout at ran
  split at ran
  · cases ran
    exact ⟨rfl⟩
  · cases ran
    exact .refl s

theorem of_samplePreload (ran : exec .samplePreload s = .next t) : ManagementOnly s t := by
  change execSamplePreload s = _ at ran
  unfold execSamplePreload at ran
  cases ran
  exact ((draw s).trans (modDebug _ _)).trans (shiftOut _ _ _ _)

theorem of_getMeasurements {transport : Transport} {index : BitVec 8} {signed : Bool} {nonce : BitVec 256}
    (ran : exec (.getMeasurements transport index signed nonce) s = .next t) : ManagementOnly s t := by
  change execGetMeasurements transport index signed nonce s = _ at ran
  unfold execGetMeasurements at ran
  exact of_spdmAfter ran (.ite (spdmError s _ _) (.ite (spdmReply s _ _ _) (.ite (spdmReply s _ _ _)
    (.ite (spdmError s _ _) (.ite ((draw s).trans (spdmReply _ _ _ _)) (security s _))))))

theorem of_operatorKey {q : Req} {slot : Nat} {enrol : Bool} {key signature : BitVec 512} {signer : Option Nat}
    (ran : exec (.operatorKey q slot enrol key signer signature) s = .next t) : ManagementOnly s t := by
  change execOperatorKey q slot enrol key signer signature s = _ at ran
  unfold execOperatorKey at ran
  have message : ManagementOnly s s.sessionMessage := security s _
  exact of_spdmWhen ran (.ite (spdmError s _ _)
    (.ite ((message.trans (security _ _)).trans (spdmReply _ _ _ _)) (message.trans (spdmError _ _ _))))

end ManagementOnly

open ManagementOnly in
/-- Settles O57: each meaning named is a carrier around answers, SPDM's and the debug port's own state. -/
theorem managementFrame : Obligations.ManagementFrame := by
  unfold Obligations.ManagementFrame
  intro c s t named ran
  have kept : ManagementOnly s t := by
    cases c with
    | statusRead => exact of_sbWhen ran (.ite (emit s _) (emit s _))
    | watchmanStatus => exact of_sbWhen ran (emit s _)
    | sbBadRequest => exact of_sbWhen ran (emit s _)
    | setEndpointId => exact of_mctpWhen ran (.ite (emit s _) ((watchman s _).trans (emit _ _)))
    | getEndpointId => exact of_mctpWhen ran (emit s _)
    | getEndpointUuid => exact of_mctpWhen ran (emit s _)
    | getMctpVersionSupport => exact of_mctpWhen ran (.ite (emit s _) (emit s _))
    | getMessageTypeSupport => exact of_mctpWhen ran (emit s _)
    | getVendorMessageSupport => exact of_mctpWhen ran (.ite (emit s _) (emit s _))
    | unsupportedMctpCmd => exact of_unsupportedMctpCmd ran
    | mctpMessageDiscard =>
      cases ran
      exact refl s
    | entdaa => exact of_onlyIf ran ⟨rfl⟩
    | setdasa => exact of_sbWhen ran ⟨rfl⟩
    | rstdaa => exact of_sbWhen ran ⟨rfl⟩
    | gettid => exact of_sbWhen ran (emit s _)
    | getpldmversion => exact of_sbWhen ran (.ite (emit s _) (emit s _))
    | getpldmtypes => exact of_sbWhen ran (emit s _)
    | getpldmcommands => exact of_sbWhen ran (.ite (emit s _) (emit s _))
    | getpdrrepositoryinfo => exact of_sbWhen ran (emit s _)
    | getpdr => exact of_getpdr ran
    | getsensorreading => exact of_getsensorreading ran
    | getstatesensorreadings => exact of_getstatesensorreadings ran
    | unsupportedPldmCmd => exact of_unsupportedPldmCmd ran
    | getVersion => exact of_spdmWhen ran ((security s _).trans (spdmReply _ _ _ _))
    | getCapabilities => exact of_spdmWhen ran (.ite ((security s _).trans (spdmReply _ _ _ _)) (spdmError s _ _))
    | negotiateAlgorithms => exact of_spdmWhen ran (.ite (spdmError s _ _)
        (.ite ((security s _).trans (spdmReply _ _ _ _)) ((security s _).trans (spdmError _ _ _))))
    | getDigests => exact of_spdmAfter ran (spdmReply s _ _ _)
    | getCertificate => exact of_spdmAfter ran (.ite (spdmError s _ _) (spdmReply s _ _ _))
    | challenge => exact of_spdmAfter ran (.ite (spdmError s _ _)
        (.ite (spdmError s _ _) (.ite ((draw s).trans (spdmReply _ _ _ _)) (security s _))))
    | getMeasurements => exact of_getMeasurements ran
    | keyExchange =>
      exact of_sessionOnly ran (.ite (spdmError s _ _) (.ite (spdmError s _ _) (.ite (spdmError s _ _)
        (.ite (((draw s).trans (security _ _)).trans (spdmReply _ _ _ _)) (security s _)))))
    | finish => exact of_sessionOnly ran (.ite (spdmError s _ _) (.ite (openSpdm s) ((security s _).trans (spdmError _ _ _))))
    | endSession =>
      exact of_inSession (body := fun u => (u.spdmReply _ 0x6C []).closeSpdm) ran fun u => (spdmReply u _ _ _).trans (security _ _)
    | heartbeat => exact of_inSession (body := fun u => u.spdmReply _ 0x68 []) ran fun u => spdmReply u _ _ _
    | keyUpdate => exact of_inSession (body := fun u => u.spdmReply _ 0x69 []) ran fun u => spdmReply u _ _ _
    | spdmHeartbeatTimeout => exact of_spdmHeartbeatTimeout ran
    | operatorKey => exact of_operatorKey ran
    | unsupportedRequest => exact of_spdmWhen ran (spdmError s _ _)
    | idcode =>
      cases ran
      exact shiftOut s _ _ _
    | extest => exact of_bscanOnly ran (shiftOut s _ _ _)
    | samplePreload => exact of_samplePreload ran
    | clamp => exact of_bscanOnly ran (shiftOut s _ _ _)
    | highz => exact of_bscanOnly ran (shiftOut s _ _ _)
    | dbgNonce => exact of_tapWhen ran (.ite ((draw s).trans ((modDebug _ _).trans (shiftOut _ _ _ _))) (security s _))
    | dbgStatus => exact of_tapWhen ran ((shiftOut s _ _ _).trans (modDebug _ _))
    | dbgRelock => exact of_tapWhen ran (modDebug s _)
    | dtmcs => exact of_tapWhen ran ((shiftOut s _ _ _).trans (modDebug _ _))
    | bypass =>
      cases ran
      exact shiftOut s _ _ _
    | testLogicReset =>
      cases ran
      exact modDebug s _
    | _ => exact named.elim
  rw [kept.rest]
  exact ⟨rfl, rfl, rfl, rfl, rfl, rfl, rfl, rfl, rfl, rfl, rfl, rfl, rfl, rfl, rfl, rfl, rfl, rfl, rfl, rfl⟩

end Sys2Proof.Proofs
end

section
/-!
SUPPORT. What host-port accesses, configuration commands and index commands may change (O58 to O60): what completing a mailbox
command leaves alone, a relation per family of commands, and the carriers that keep them.
-/
namespace Sys2Proof.Proofs
open Sys2Proof.Machine Sys2Proof.Safety Sys2Proof.Laws

/-! ### Completing a mailbox command -/

/-- A pen without its mailbox, its Crier block and its counters. -/
def settled (q : Pen) : Pen := { q with mailbox := {}, mbServiced := false, crier := {}, ctrs := [] }

/-- `t` differs from `s` in nothing but the mailboxes and the Reeve's queue, the pens' Crier blocks and counters, the Crier's
area, what is sent or held back, the cycles of hardware updates, and the Watchman's attentions and record. -/
structure MailboxOnly (s t : State) : Prop where
  rest : t = { s with
    pens := t.pens, adminMb := t.adminMb, sbMb := t.sbMb, out := t.out, crierArea := t.crierArea, hwAt := t.hwAt
    reeveQueue := t.reeveQueue
    watchman := { s.watchman with record := t.watchman.record, attention := t.watchman.attention }
    security := { s.security with held := t.security.held } }
  pens : t.pens.map (fun q => (q.1, settled q.2)) = s.pens.map fun q => (q.1, settled q.2)

theorem map_of_settled {α : Type} {l m : List (Nat × Pen)} (g : Pen → α) (own : ∀ q, g (settled q) = g q)
    (same : l.map (fun q => (q.1, settled q.2)) = m.map fun q => (q.1, settled q.2)) :
    l.map (fun q => (q.1, g q.2)) = m.map fun q => (q.1, g q.2) := by
  have projected := congrArg (List.map fun q : Nat × Pen => (q.1, g q.2)) same
  simpa only [List.map_map, Function.comp_def, own] using projected

namespace MailboxOnly

theorem refl (s : State) : MailboxOnly s s := ⟨rfl, rfl⟩

theorem trans {s t u : State} (a : MailboxOnly s t) (b : MailboxOnly t u) : MailboxOnly s u := by
  refine ⟨?_, b.pens.trans a.pens⟩
  rw [b.rest, a.rest]

theorem crierOnly {s t : State} (h : CrierOnly s t) : MailboxOnly s t := by
  refine ⟨?_, ?_⟩
  · rw [h.rest]
  · have projected := congrArg (List.map fun q : Nat × Pen => (q.1, settled q.2)) h.pens
    simpa only [List.map_map, Function.comp_def, settled] using projected

theorem modPen (s : State) (p : Nat) (f : Pen → Pen) (same : ∀ q, settled (f q) = settled q) :
    MailboxOnly s (s.modPen p f) :=
  ⟨rfl, assocMod_map p f settled s.pens same⟩

theorem bumpPen (s : State) (p : Nat) (c : PenCtr) (n : Nat) : MailboxOnly s (s.bumpPen p c n) := modPen s p _ fun _ => rfl

theorem modMb (s : State) (mb : Mb) (f : Mailbox → Mailbox) : MailboxOnly s (s.modMb mb f) := by
  cases mb with
  | admin => exact ⟨rfl, rfl⟩
  | sideBand => exact ⟨rfl, rfl⟩
  | pen p => exact modPen s p _ fun _ => rfl

theorem mbWrite (s : State) (mb : Mb) (seq : Nat) (d : Desc) (r : Reply) : MailboxOnly s (s.mbWrite mb seq d r) := by
  unfold State.mbWrite
  refine (MailboxOnly.trans ?_ (.crierOnly (hwMark_crierOnly _ _))).trans (.crierOnly (raise_crierOnly _ _ _ _ _))
  cases mb with
  | admin => exact modMb s .admin _
  | sideBand => exact (modMb s .sideBand _).trans (.crierOnly (emit_crierOnly _ _))
  | pen p => exact (modMb s (.pen p) _).trans (modPen _ p (fun q => { q with mbServiced := true }) fun _ => rfl)

theorem mbReply (s : State) (r : MbRef) (y : Reply) : MailboxOnly s (s.mbReply r y) := by
  unfold State.mbReply
  split
  · exact .refl s
  · split
    · exact mbWrite _ _ _ _ _
    · exact bumpPen _ _ _ _

theorem mbTake (s : State) (mb : Mb) (c : MbCmd) : MailboxOnly s (s.mbTake mb c) :=
  (modMb s mb fun m => { m with
    cmd := if m.cmd = some c then none else m.cmd, late := m.late.filter (fun l => l.ticket != c.ticket) }).trans ⟨rfl, rfl⟩

theorem refuse {s t : State} {mb : Mb} {n : Nat} (refused : s.refuse mb n = some t) : MailboxOnly s t := by
  simp only [State.refuse, Option.bind_eq_some_iff] at refused
  obtain ⟨c, -, refused⟩ := refused
  split at refused
  · obtain ⟨r, -, rfl⟩ := Option.map_eq_some_iff.1 refused
    exact (mbTake s mb c).trans (mbReply _ _ _)
  · cases refused

theorem refuseHeads (n : Nat) (s : State) : MailboxOnly s (s.refuseHeads n) := by
  induction n generalizing s with
  | zero => exact .refl s
  | succ n ih =>
    unfold State.refuseHeads
    split
    · exact .refl s
    · split
      · exact .refl s
      · next refused => exact (refuse refused).trans (ih _)

theorem reeveNext (s : State) : MailboxOnly s s.reeveNext := refuseHeads _ s

theorem mbFinish (s : State) (r : MbRef) (y : Reply) : MailboxOnly s (s.mbFinish r y) :=
  (mbReply s r y).trans (reeveNext _)

end MailboxOnly

/-- A relation between states that changes to mailboxes alone keep. -/
structure Frame (R : State → State → Prop) : Prop where
  trans : ∀ {s t u}, R s t → R t u → R s u
  mailbox : ∀ {s t}, MailboxOnly s t → R s t

namespace Frame

variable {R : State → State → Prop} (frame : Frame R)
include frame

theorem refl (s : State) : R s s := frame.mailbox (.refl s)

theorem foldl {α : Type} {f : State → α → State} (step : ∀ t x, R t (f t x)) (l : List α) (s : State) :
    R s (l.foldl f s) := by
  induction l generalizing s with
  | nil => exact frame.refl s
  | cons a l ih => exact frame.trans (step s a) (ih _)

end Frame

/-- The state that a mailbox command's meaning leaves. -/
def mbLeft : MbDone → State
  | .now s _ => s
  | .later s => s

namespace Frame

variable {R : State → State → Prop} (frame : Frame R)
include frame

theorem withPen {s : State} {mb : Mb} {d : Desc} {off : Nat} {body : Nat → Pen → MbDone}
    (kept : ∀ p q, R s (mbLeft (body p q))) : R s (mbLeft (withPen s mb d off body)) := by
  unfold Machine.withPen
  split
  · exact kept _ _
  · exact frame.refl s

theorem unlessBad {s : State} {l others : List (Nat × Bool)} {body : MbDone} (kept : R s (mbLeft body)) :
    R s (mbLeft (unlessBad s l body others)) := by
  unfold Machine.unlessBad
  split
  · exact frame.refl s
  · exact kept

theorem mbRun {s t : State} {mb : Mb} {op : Nat} {body : State → MbCmd → MbDone} (ran : mbRun s mb op body = .next t)
    (kept : ∀ u c, R u (mbLeft (body u c))) : R s t := by
  unfold Machine.mbRun at ran
  split at ran
  · cases ran
    exact frame.refl s
  · next c _ =>
    split at ran
    · cases ran
      exact frame.refl s
    · have taken : R s (s.mbTake mb c) := frame.mailbox (.mbTake s mb c)
      have meant := kept (s.mbTake mb c) c
      dsimp only at ran
      split at ran
      · cases ran
        exact frame.trans taken (frame.mailbox (.mbFinish _ _ _))
      · split at ran
        · next left =>
          rw [left] at meant
          cases ran
          exact frame.trans (frame.trans taken meant) (frame.mailbox (.mbFinish _ _ _))
        · next left =>
          rw [left] at meant
          cases ran
          exact frame.trans (frame.trans taken meant) (frame.mailbox (.reeveNext _))

end Frame

/-! ### Accesses at the host port -/

/-- `t` differs from `s` in nothing but the clock, identity and health, SPDM, the mailboxes, the Crier, the pens' rings and
counters, and what is sent. -/
structure HostPortOnly (s t : State) : Prop where
  rest : t = { s with
    clock := t.clock, ident := t.ident, security := t.security, pens := t.pens, adminMb := t.adminMb, sbMb := t.sbMb
    reeveQueue := t.reeveQueue, nextTicket := t.nextTicket, out := t.out, crierArea := t.crierArea, hwAt := t.hwAt
    watchman := t.watchman }
  pens : t.pens.map (fun q => (q.1, q.2.cfg, q.2.constraints, q.2.indexes, q.2.heartbeat, q.2.reinit))
    = s.pens.map fun q => (q.1, q.2.cfg, q.2.constraints, q.2.indexes, q.2.heartbeat, q.2.reinit)

theorem hostPortOnly_frame : Frame HostPortOnly where
  trans a b := by
    refine ⟨?_, b.pens.trans a.pens⟩
    rw [b.rest, a.rest]
  mailbox h := by
    refine ⟨?_, map_of_settled (fun q => (q.cfg, q.constraints, q.indexes, q.heartbeat, q.reinit)) (fun _ => rfl) h.pens⟩
    rw [h.rest]

namespace HostPortOnly

theorem refl (s : State) : HostPortOnly s s := ⟨rfl, rfl⟩

theorem trans {s t u : State} (a : HostPortOnly s t) (b : HostPortOnly t u) : HostPortOnly s u :=
  hostPortOnly_frame.trans a b

theorem mailboxOnly {s t : State} (h : MailboxOnly s t) : HostPortOnly s t := hostPortOnly_frame.mailbox h

theorem crierOnly {s t : State} (h : CrierOnly s t) : HostPortOnly s t := mailboxOnly (.crierOnly h)

theorem modPen (s : State) (p : Nat) (f : Pen → Pen)
    (same : ∀ q, ((f q).cfg, (f q).constraints, (f q).indexes, (f q).heartbeat, (f q).reinit)
      = (q.cfg, q.constraints, q.indexes, q.heartbeat, q.reinit)) : HostPortOnly s (s.modPen p f) :=
  ⟨rfl, assocMod_map p f (fun q => (q.cfg, q.constraints, q.indexes, q.heartbeat, q.reinit)) s.pens same⟩

theorem modRing (s : State) (p k : Nat) (f : Ring → Ring) : HostPortOnly s (s.modRing p k f) := modPen s p _ fun _ => rfl

theorem modCrier (s : State) (p : Nat) (f : Crier → Crier) : HostPortOnly s (s.modCrier p f) := modPen s p _ fun _ => rfl

theorem modMb (s : State) (mb : Mb) (f : Mailbox → Mailbox) : HostPortOnly s (s.modMb mb f) := mailboxOnly (.modMb s mb f)

theorem modEvRing (s : State) (p r : Nat) (f : EventRing → EventRing) : HostPortOnly s (s.modEvRing p r f) :=
  crierOnly (modEvRing_crierOnly s p r f)

theorem hostError (s : State) (e : HostErr) (ctx off : Nat) : HostPortOnly s (s.hostError e ctx off) :=
  trans (t := hostErrorCounted s e) ⟨rfl, rfl⟩ (crierOnly (hostError_crierOnly s e ctx off))

theorem sessionMessage (s : State) : HostPortOnly s s.sessionMessage := ⟨rfl, rfl⟩

theorem takeHeader (s : State) (q : Req) (off : Nat) : HostPortOnly s (s.takeHeader q off) := by
  have heard : HostPortOnly s (s.heard q) := by
    unfold State.heard
    split
    · exact sessionMessage s
    · exact refl s
  unfold State.takeHeader
  dsimp only
  split
  · exact heard.trans (hostError _ _ _ _)
  · exact heard

theorem hostTaken (s : State) (q : Req) (off : Nat) : HostPortOnly s (hostTaken s q off) := by
  unfold Safety.hostTaken
  dsimp only
  split
  · exact (takeHeader s q off).trans (sessionMessage _)
  · exact takeHeader s q off

/-! The carriers. -/

theorem hostWrite {s t : State} {q : Req} {pl : HostPlace} {off width : Nat} {effect : State → State}
    (kept : ∀ u, HostPortOnly u (effect u)) (ran : hostWrite s q pl off width effect = .next t) : HostPortOnly s t := by
  obtain rfl | ⟨e, rfl⟩ | rfl := hostWrite_cases ran
  · exact refl _
  · exact (takeHeader s q off).trans (hostError _ _ _ _)
  · exact (hostTaken s q off).trans (kept _)

theorem crierPenWrite {s t : State} {q : Req} {pen o : Nat} {effect : State → State}
    (kept : ∀ u, HostPortOnly u (effect u)) (ran : crierPenWrite s q pen o effect = .next t) : HostPortOnly s t := by
  unfold Machine.crierPenWrite at ran
  split at ran
  · cases ran
  · exact hostWrite kept ran

theorem crierRingWrite {s t : State} {q : Req} {pen ring o : Nat} {effect : State → State}
    (kept : ∀ u, HostPortOnly u (effect u)) (ran : crierRingWrite s q pen ring o effect = .next t) : HostPortOnly s t := by
  unfold Machine.crierRingWrite at ran
  split at ran
  · cases ran
  · exact crierPenWrite kept ran

/-! The effects. -/

theorem writeHostControl (s : State) (v : BitVec 64) : HostPortOnly s (s.writeHostControl v) := by
  unfold State.writeHostControl
  split
  · exact ⟨rfl, rfl⟩
  · exact refl s

theorem ringDoorbell (s : State) (p k : Nat) (v : BitVec 64) : HostPortOnly s (s.ringDoorbell p k v) := by
  have absent := mailboxOnly (.bumpPen s p .dbInvalid 1)
  unfold State.ringDoorbell
  split
  · exact absent
  · split
    · exact absent
    · dsimp only
      split
      · exact modRing s p k _
      · exact (modRing s p k _).trans (crierOnly (raiseTo_crierOnly _ _ _ _ _ _))

theorem submit (s : State) (mb : Mb) (seq : Nat) : HostPortOnly s (s.submit mb seq) := by
  unfold State.submit
  split
  · exact refl s
  · extract_lets c s1 s2
    have waits : HostPortOnly s s2 := trans (t := s1) ⟨rfl, rfl⟩ (modMb s1 mb _)
    clear_value s2
    split
    · exact waits.trans (mailboxOnly (.mbReply _ _ _))
    · split
      · have queued : HostPortOnly s2 { s2 with reeveQueue := s2.reeveQueue ++ [(mb, c.ticket)] } := ⟨rfl, rfl⟩
        exact (waits.trans queued).trans (mailboxOnly (.reeveNext _))
      · cases refused : s2.refuse mb c.ticket with
        | none => exact waits
        | some t => exact waits.trans (mailboxOnly (.refuse refused))

theorem writeMbSubmit (s : State) (mb : Mb) (v : BitVec 64) : HostPortOnly s (s.writeMbSubmit mb v) := by
  unfold State.writeMbSubmit
  split
  · exact refl s
  · split
    · exact modMb s mb _
    · exact submit s mb _

theorem writeMbStatus (s : State) (mb : Mb) (v : BitVec 64) : HostPortOnly s (s.writeMbStatus mb v) := modMb s mb _

theorem writeMailbox (s : State) (mb : Mb) (o : Nat) (data : List Byte) : HostPortOnly s (s.writeMailbox mb o data) := by
  have desc (u : State) (off : Nat) (bs : List Byte) : HostPortOnly u (u.writeMbDesc mb off bs) := modMb u mb _
  have payload (u : State) (off : Nat) (bs : List Byte) : HostPortOnly u (u.writeMbPayload mb off bs) := modMb u mb _
  unfold State.writeMailbox
  split
  · exact writeMbSubmit s mb _
  · split
    · exact writeMbStatus s mb _
    · extract_lets s1 past
      have first : HostPortOnly s s1 := by
        unfold s1
        split
        · exact desc s _ _
        · exact refl s
      split
      · exact first
      · exact first.trans (payload _ _ _)

theorem signalEach (s : State) (p bits : Nat) : HostPortOnly s (s.signalEach p bits) :=
  hostPortOnly_frame.foldl (fun t r => by
    split
    · exact crierOnly (attnSignal_crierOnly t p r)
    · exact refl t) _ s

theorem writeEvCtrl (s : State) (p r : Nat) (v : BitVec 64) : HostPortOnly s (s.writeEvCtrl p r v) := by
  have enabled := modEvRing s p r fun e => e.writeCtrl p v
  unfold State.writeEvCtrl
  dsimp only
  split
  · exact ((enabled.trans (modCrier _ p _)).trans (crierOnly (raise_crierOnly _ _ _ _ _))).trans
      (mailboxOnly (.bumpPen _ _ _ _))
  · exact enabled

theorem writeConsumer (s : State) (p r : Nat) (v : BitVec 64) : HostPortOnly s (s.writeConsumer p r v) := by
  unfold State.writeConsumer
  split
  · refine HostPortOnly.trans ?_ (crierOnly (evReportLost_crierOnly _ _ _))
    split
    · exact (modEvRing s p r _).trans (crierOnly (evFire_crierOnly _ _ _))
    · exact modEvRing s p r _
  · exact (modEvRing s p r _).trans (crierOnly (evReportLost_crierOnly _ _ _))

theorem hostModeration (s : State) (ctx p r : Nat) (v : BitVec 64) : HostPortOnly s (s.hostModeration ctx p r v) := by
  unfold State.hostModeration
  split
  · exact modEvRing s p r _
  · exact hostError _ _ _ _

theorem hostConsumer (s : State) (ctx p r : Nat) (v : BitVec 64) : HostPortOnly s (s.hostConsumer ctx p r v) := by
  unfold State.hostConsumer
  split
  · exact writeConsumer s p r v
  · exact (modEvRing s p r _).trans (hostError _ _ _ _)

/-! The meanings that are not one write. -/

theorem hostAccessError {s t : State} {q : Req} {off width : Nat} {isWrite : Bool}
    (ran : exec (.hostAccessError q off width isWrite) s = .next t) : HostPortOnly s t := by
  change execHostAccessError q off width isWrite s = _ at ran
  unfold execHostAccessError at ran
  have header := takeHeader s q off
  split at ran
  · cases ran
    exact refl s
  · dsimp only at ran
    split at ran
    · split at ran
      · cases ran
        exact refl s
      · cases ran
        refine header.trans (trans (t := if q.secured then (s.takeHeader q off).sessionMessage else s.takeHeader q off) ?_
          ⟨rfl, rfl⟩)
        split
        · exact sessionMessage _
        · exact refl _
    · cases ran
      next e _ =>
      refine (header.trans (hostError _ e q.ctx off)).trans ?_
      split
      · exact refl _
      · exact ⟨rfl, rfl⟩

theorem healthRead {s t : State} {q : Req} (ran : exec (.healthRead q) s = .next t) : HostPortOnly s t := by
  change execHealthRead q s = _ at ran
  unfold execHealthRead at ran
  have header := takeHeader s q 0x28
  split at ran
  · cases ran
    exact refl s
  · dsimp only at ran
    split at ran
    · cases ran
      exact (header.trans (hostError _ _ _ _)).trans ⟨rfl, rfl⟩
    · cases ran
      refine header.trans (trans (t := if q.secured then (s.takeHeader q 0x28).sessionMessage else s.takeHeader q 0x28) ?_
        ⟨rfl, rfl⟩)
      split
      · exact sessionMessage _
      · exact refl _

theorem doorbell {s t : State} {q : Req} {p k : Nat} {v : BitVec 64} (ran : exec (.doorbell q p k v) s = .next t) :
    HostPortOnly s t := by
  change execDoorbell q p k v s = _ at ran
  unfold execDoorbell at ran
  split at ran
  · cases ran
  · exact hostWrite (fun u => ringDoorbell u p k v) ran

theorem mailboxOverrun {s t : State} {q : Req} {mb : Mb} {off : Nat} {data : List Byte}
    (ran : exec (.mailboxOverrun q mb off data) s = .next t) : HostPortOnly s t := by
  change execMailboxOverrun q mb off data s = _ at ran
  unfold execMailboxOverrun at ran
  split at ran
  · cases ran
    exact refl s
  · exact hostWrite (fun u => writeMailbox u mb off data) ran

theorem mbSubmit {s t : State} {q : Req} {mb : Mb} {v : BitVec 64} (ran : exec (.mbSubmit q mb v) s = .next t) :
    HostPortOnly s t := by
  change execMbSubmit q mb v s = _ at ran
  unfold execMbSubmit at ran
  split at ran
  · cases ran
    exact refl s
  · exact hostWrite (fun u => writeMbSubmit u mb v) ran

theorem moderationTimer {s t : State} {p r : Nat} (ran : exec (.moderationTimer p r) s = .next t) : HostPortOnly s t := by
  change execModerationTimer p r s = _ at ran
  unfold execModerationTimer at ran
  dsimp only at ran
  split at ran
  · next waits _ =>
    split at ran
    · cases ran
    · split at ran
      · cases ran
        have later : HostPortOnly s (s.at_ (((s.crierOf p).ring r).firesAt waits s.clock.now)) := ⟨rfl, rfl⟩
        exact later.trans (crierOnly (evFire_crierOnly _ p r))
      · cases ran
        exact refl s
  · split at ran
    · cases ran
    · cases ran
      exact refl s

theorem mailboxTimeout {s t : State} {mb : Mb} (ran : exec (.mailboxTimeout mb) s = .next t) : HostPortOnly s t := by
  change execMailboxTimeout mb s = _ at ran
  unfold execMailboxTimeout at ran
  split at ran
  · cases ran
    exact refl s
  · next m _ =>
    split at ran
    · cases ran
      have waited : HostPortOnly s (s.at_ (m.since + 2 ^ 18)) := ⟨rfl, rfl⟩
      exact (waited.trans (modMb _ mb _)).trans (mailboxOnly (.mbWrite _ _ _ _ _))
    · cases ran
      exact refl s

theorem mbLate {s t : State} {mb : Mb} (ran : exec (.mbLate mb) s = .next t) : HostPortOnly s t := by
  change execMbLate mb s = _ at ran
  unfold execMbLate at ran
  split at ran
  · cases ran
    exact refl s
  · split at ran
    · cases ran
      exact refl s
    · cases ran
      exact mailboxOnly ((MailboxOnly.mbTake _ _ _).trans (.mbFinish _ _ _))

end HostPortOnly

open HostPortOnly in
/-- Settles O58: each access keeps `HostPortOnly`. -/
theorem hostPortFrame : Obligations.HostPortFrame := by
  unfold Obligations.HostPortFrame
  intro c s t named ran
  have kept : HostPortOnly s t := by
    cases c with
    | hostAccessError => exact hostAccessError ran
    | healthRead => exact healthRead ran
    | hostErrorsClear => exact hostWrite (fun u => writeHostControl u _) ran
    | doorbell => exact doorbell ran
    | mailboxOverrun => exact mailboxOverrun ran
    | mbSubmit => exact mbSubmit ran
    | eventMaskWrite => exact crierPenWrite (fun u => modCrier u _ _) ran
    | attnPendingWrite => exact crierPenWrite (fun u => (modCrier u _ _).trans (signalEach _ _ _)) ran
    | attnMaskWrite => exact crierPenWrite (fun u => (modCrier u _ _).trans (signalEach _ _ _)) ran
    | evBaseWrite => exact crierRingWrite (fun u => modEvRing u _ _ _) ran
    | evCtrlWrite => exact crierRingWrite (fun u => writeEvCtrl u _ _ _) ran
    | moderationWrite => exact crierRingWrite (fun u => hostModeration u _ _ _ _) ran
    | consumerWrite => exact crierRingWrite (fun u => hostConsumer u _ _ _ _) ran
    | moderationTimer => exact moderationTimer ran
    | mailboxTimeout => exact mailboxTimeout ran
    | mbLate => exact mbLate ran
    | _ => exact named.elim
  refine ⟨?_, ?_, ?_, ?_, ?_, ?_, ?_, ?_, ?_, ?_, ?_, ?_, ?_, ?_, ?_, ?_, ?_, kept.pens⟩ <;> rw [kept.rest]

/-! ### Configuration -/

/-- `t` differs from `s` in nothing but the pens and their generations, the mailboxes, the Crier and what is sent. -/
structure PensOnly (s t : State) : Prop where
  rest : t = { s with
    pens := t.pens, penGens := t.penGens, adminMb := t.adminMb, sbMb := t.sbMb, reeveQueue := t.reeveQueue, out := t.out
    crierArea := t.crierArea, hwAt := t.hwAt, watchman := t.watchman, security := t.security }

theorem pensOnly_frame : Frame PensOnly where
  trans a b := by
    refine ⟨?_⟩
    rw [b.rest, a.rest]
  mailbox h := by
    refine ⟨?_⟩
    rw [h.rest]

/-- `t` differs from `s` in nothing but the layouts, the mailboxes, the pens but for their configuration and rings, the Crier
and what is sent. -/
structure LayoutsOnly (s t : State) : Prop where
  rest : t = { s with
    layouts := t.layouts, pens := t.pens, adminMb := t.adminMb, sbMb := t.sbMb, reeveQueue := t.reeveQueue, out := t.out
    crierArea := t.crierArea, hwAt := t.hwAt, watchman := t.watchman, security := t.security }
  pens : t.pens.map (fun q => (q.1, q.2.cfg, q.2.rings)) = s.pens.map fun q => (q.1, q.2.cfg, q.2.rings)

theorem layoutsOnly_frame : Frame LayoutsOnly where
  trans a b := by
    refine ⟨?_, b.pens.trans a.pens⟩
    rw [b.rest, a.rest]
  mailbox h := by
    refine ⟨?_, map_of_settled (fun q => (q.cfg, q.rings)) (fun _ => rfl) h.pens⟩
    rw [h.rest]

theorem layoutsOnly_layoutLoad {s t : State} {mb : Mb} (ran : exec (.layoutLoad mb) s = .next t) : LayoutsOnly s t := by
  change execLayoutLoad mb s = _ at ran
  unfold execLayoutLoad at ran
  refine layoutsOnly_frame.mbRun ran fun u c => ?_
  dsimp only
  split
  · exact layoutsOnly_frame.refl u
  · exact ⟨rfl, rfl⟩

theorem layoutsOnly_layoutUnload {s t : State} {mb : Mb} (ran : exec (.layoutUnload mb) s = .next t) : LayoutsOnly s t := by
  change execLayoutUnload mb s = _ at ran
  unfold execLayoutUnload at ran
  exact layoutsOnly_frame.mbRun ran fun _ _ => layoutsOnly_frame.unlessBad ⟨rfl, rfl⟩

theorem pensOnly_penCreate {s t : State} {mb : Mb} (ran : exec (.penCreate mb) s = .next t) : PensOnly s t := by
  change execPenCreate mb s = _ at ran
  unfold execPenCreate at ran
  refine pensOnly_frame.mbRun ran fun u c => pensOnly_frame.unlessBad ?_
  split
  · exact pensOnly_frame.refl u
  · exact ⟨rfl⟩

theorem pensOnly_penDestroy {s t : State} {mb : Mb} (ran : exec (.penDestroy mb) s = .next t) : PensOnly s t := by
  change execPenDestroy mb s = _ at ran
  unfold execPenDestroy at ran
  refine pensOnly_frame.mbRun ran fun u c => ?_
  dsimp only
  split
  · exact pensOnly_frame.refl u
  · exact pensOnly_frame.unlessBad ⟨rfl⟩

theorem pensOnly_penConfig {s t : State} {mb : Mb} (ran : exec (.penConfig mb) s = .next t) : PensOnly s t := by
  change execPenConfig mb s = _ at ran
  unfold execPenConfig at ran
  refine pensOnly_frame.mbRun ran fun u c => pensOnly_frame.unlessBad ?_
  split
  · exact pensOnly_frame.refl u
  · exact ⟨rfl⟩

theorem pensOnly_ringCreate {s t : State} {mb : Mb} (ran : exec (.ringCreate mb) s = .next t) : PensOnly s t := by
  change execRingCreate mb s = _ at ran
  unfold execRingCreate at ran
  refine pensOnly_frame.mbRun ran fun u c => pensOnly_frame.withPen fun p q => pensOnly_frame.unlessBad ?_
  split
  · exact pensOnly_frame.refl u
  · exact ⟨rfl⟩

theorem pensOnly_ringConfig {s t : State} {mb : Mb} (ran : exec (.ringConfig mb) s = .next t) : PensOnly s t := by
  change execRingConfig mb s = _ at ran
  unfold execRingConfig at ran
  exact pensOnly_frame.mbRun ran fun _ _ => pensOnly_frame.withPen fun _ _ => pensOnly_frame.unlessBad ⟨rfl⟩

theorem pensOnly_constraintLoad {s t : State} {mb : Mb} {source : List Byte}
    (ran : exec (.constraintLoad mb source) s = .next t) : PensOnly s t := by
  change execConstraintLoad mb source s = _ at ran
  unfold execConstraintLoad at ran
  refine pensOnly_frame.mbRun ran fun u c => pensOnly_frame.withPen fun p q => ?_
  dsimp only
  split
  · exact pensOnly_frame.refl u
  · refine pensOnly_frame.unlessBad ?_
    split
    · exact pensOnly_frame.refl u
    · split
      · exact pensOnly_frame.refl u
      · split
        · exact pensOnly_frame.refl u
        · exact ⟨rfl⟩

theorem pensOnly_constraintUnload {s t : State} {mb : Mb} (ran : exec (.constraintUnload mb) s = .next t) : PensOnly s t := by
  change execConstraintUnload mb s = _ at ran
  unfold execConstraintUnload at ran
  exact pensOnly_frame.mbRun ran fun _ _ => pensOnly_frame.withPen fun _ _ => pensOnly_frame.unlessBad ⟨rfl⟩

theorem pensOnly_nirvexCaps {s t : State} {mb : Mb} (ran : exec (.nirvexCaps mb) s = .next t) : PensOnly s t := by
  change execNirvexCaps mb s = _ at ran
  unfold execNirvexCaps at ran
  exact pensOnly_frame.mbRun ran fun u _ => pensOnly_frame.mailbox
    (.modMb u mb fun m => { m with payload := memWriteBytes m.payload 0 u.capsBlock })

/-- Settles O59: the layout commands keep `LayoutsOnly`, the others `PensOnly`. -/
theorem configurationFrame : Obligations.ConfigurationFrame := by
  unfold Obligations.ConfigurationFrame
  intro c s t named ran
  have kept : (PensOnly s t ∧ ∀ mb, c ≠ .layoutLoad mb ∧ c ≠ .layoutUnload mb)
      ∨ (LayoutsOnly s t ∧ ∃ mb, c = .layoutLoad mb ∨ c = .layoutUnload mb) := by
    cases c with
    | nirvexCaps => exact .inl ⟨pensOnly_nirvexCaps ran, fun _ => ⟨nofun, nofun⟩⟩
    | penCreate => exact .inl ⟨pensOnly_penCreate ran, fun _ => ⟨nofun, nofun⟩⟩
    | penDestroy => exact .inl ⟨pensOnly_penDestroy ran, fun _ => ⟨nofun, nofun⟩⟩
    | penConfig => exact .inl ⟨pensOnly_penConfig ran, fun _ => ⟨nofun, nofun⟩⟩
    | ringCreate => exact .inl ⟨pensOnly_ringCreate ran, fun _ => ⟨nofun, nofun⟩⟩
    | ringConfig => exact .inl ⟨pensOnly_ringConfig ran, fun _ => ⟨nofun, nofun⟩⟩
    | layoutLoad mb => exact .inr ⟨layoutsOnly_layoutLoad ran, mb, .inl rfl⟩
    | layoutUnload mb => exact .inr ⟨layoutsOnly_layoutUnload ran, mb, .inr rfl⟩
    | constraintLoad => exact .inl ⟨pensOnly_constraintLoad ran, fun _ => ⟨nofun, nofun⟩⟩
    | constraintUnload => exact .inl ⟨pensOnly_constraintUnload ran, fun _ => ⟨nofun, nofun⟩⟩
    | _ => exact named.elim
  obtain ⟨kept, other⟩ | ⟨kept, isLayout⟩ := kept
  · refine ⟨?_, ?_, ?_, ?_, ?_, ?_, ?_, ?_, ?_, ?_, ?_, ?_, fun _ => ?_, fun ⟨mb, isLayout⟩ => ?_⟩
    case refine_14 => exact (isLayout.elim (other mb).1 (other mb).2).elim
    all_goals rw [kept.rest]
  · refine ⟨?_, ?_, ?_, ?_, ?_, ?_, ?_, ?_, ?_, ?_, ?_, ?_, fun other => ?_, fun _ => kept.pens⟩
    case refine_13 =>
      obtain ⟨mb, isLayout⟩ := isLayout
      exact (isLayout.elim (other mb).1 (other mb).2).elim
    all_goals rw [kept.rest]

/-! ### Vector indexes -/

/-- `t` differs from `s` in nothing but the clock, the values drawn, the pens' indexes and rings, what the units have been
handed, the mailboxes, the Crier and what is sent. -/
structure IndexesOnly (s t : State) : Prop where
  rest : t = { s with
    clock := t.clock, free := t.free, pens := t.pens, dispatched := t.dispatched, adminMb := t.adminMb, sbMb := t.sbMb
    reeveQueue := t.reeveQueue, out := t.out, crierArea := t.crierArea, hwAt := t.hwAt, watchman := t.watchman
    security := t.security }
  pens : t.pens.map (fun q => (q.1, q.2.cfg, q.2.constraints, q.2.heartbeat, q.2.reinit))
    = s.pens.map fun q => (q.1, q.2.cfg, q.2.constraints, q.2.heartbeat, q.2.reinit)

theorem indexesOnly_frame : Frame IndexesOnly where
  trans a b := by
    refine ⟨?_, b.pens.trans a.pens⟩
    rw [b.rest, a.rest]
  mailbox h := by
    refine ⟨?_, map_of_settled (fun q => (q.cfg, q.constraints, q.heartbeat, q.reinit)) (fun _ => rfl) h.pens⟩
    rw [h.rest]

/-- The state that a ring command's meaning leaves. -/
def ringLeft : RingDone → State
  | .now s _ => s
  | .later s => s

/-- A ring command's meaning does not answer REDIRECT. -/
def staysHere : RingDone → Prop
  | .now _ r => r.status ≠ .redirect
  | .later _ => True

namespace IndexesOnly

theorem refl (s : State) : IndexesOnly s s := ⟨rfl, rfl⟩

theorem trans {s t u : State} (a : IndexesOnly s t) (b : IndexesOnly t u) : IndexesOnly s u := indexesOnly_frame.trans a b

theorem mailboxOnly {s t : State} (h : MailboxOnly s t) : IndexesOnly s t := indexesOnly_frame.mailbox h

theorem modPen (s : State) (p : Nat) (f : Pen → Pen)
    (same : ∀ q, ((f q).cfg, (f q).constraints, (f q).heartbeat, (f q).reinit)
      = (q.cfg, q.constraints, q.heartbeat, q.reinit)) : IndexesOnly s (s.modPen p f) :=
  ⟨rfl, assocMod_map p f (fun q => (q.cfg, q.constraints, q.heartbeat, q.reinit)) s.pens same⟩

theorem modIndex (s : State) (p id : Nat) (f : Index → Index) : IndexesOnly s (s.modIndex p id f) :=
  modPen s p _ fun _ => rfl

theorem modRing (s : State) (p k : Nat) (f : Ring → Ring) : IndexesOnly s (s.modRing p k f) := modPen s p _ fun _ => rfl

theorem bumpPen (s : State) (p : Nat) (c : PenCtr) (n : Nat) : IndexesOnly s (s.bumpPen p c n) :=
  mailboxOnly (.bumpPen s p c n)

theorem ringGone (s : State) (p k : Nat) : IndexesOnly s (s.ringGone p k) := by
  unfold State.ringGone
  split
  · exact refl s
  · split
    · exact refl s
    · split
      · refine IndexesOnly.trans ?_ (indexesOnly_frame.foldl (fun t c => mailboxOnly (.mbFinish t _ _)) _ _)
        exact (modPen s p (fun q => { q with rings := assocDel k q.rings }) fun _ => rfl).trans (mailboxOnly (.mbFinish _ _ _))
      · exact refl s

theorem cqAdvanced (s : State) (p k r w : Nat) : IndexesOnly s (s.cqAdvanced p k r w) := by
  unfold State.cqAdvanced
  split
  · exact refl s
  · split
    · exact refl s
    · have told := (mailboxOnly (.crierOnly (raiseTo_crierOnly s p 0x0201 k w (some r)))).trans
        (modRing _ p k fun g => { g with loud := false })
      dsimp only
      split
      · exact told
      · split
        · exact told
        · exact told.trans (mailboxOnly (.crierOnly (modEvRing_crierOnly _ _ _ _)))

theorem completionCounted (s : State) (c : RingCmd) {r : Reply} (here : r.status ≠ .redirect) :
    IndexesOnly s (completionCounted s c r) := by
  unfold Proofs.completionCounted
  split
  · exact bumpPen _ _ _ _
  · exact bumpPen _ _ _ _
  · next away => exact absurd away here
  · exact refl _

/-- A completion that is no REDIRECT leaves the device's counters. -/
theorem complete (s : State) (c : RingCmd) {r : Reply} (here : r.status ≠ .redirect) : IndexesOnly s (s.complete c r) := by
  cases there : s.ring? c.pen c.ring with
  | none =>
    simp only [State.complete, there]
    exact refl s
  | some g =>
    by_cases owed : c.serial ∈ g.inflight
    · have written : IndexesOnly s (completionWritten s c r g) :=
        ((mailboxOnly (.crierOnly (hostOut_crierOnly s _))).trans (modRing _ _ _ _)).trans (completionCounted _ c here)
      rw [complete_owed there owed]
      refine IndexesOnly.trans ?_ (ringGone _ _ _)
      split
      · exact written
      · split
        · exact written.trans (cqAdvanced _ _ _ _ _)
        · exact written
    · simp only [State.complete, there, List.contains_iff_mem, owed, if_false]
      exact refl s

/-- R69 redirects only what names a session. -/
theorem descCheck_stays {s : State} {b : Submitter} {m : Bool} {d : Desc} {r : Reply}
    (sessionless : ∀ row, opRow (descOpcode d) = some row → row.session = false) (refused : descCheck s b m d = some r) :
    r.status ≠ .redirect := by
  unfold descCheck at refused
  split at refused
  · cases refused
    exact nofun
  · next row listed =>
    split at refused
    · cases refused
      exact nofun
    · rw [sessionless row listed] at refused
      cases refused

theorem ringRun {s t : State} {p k op : Nat} {body : State → RingCmd → RingDone} (ran : ringRun s p k op body = .next t)
    (sessionless : ∀ row, opRow op = some row → row.session = false)
    (kept : ∀ u c, IndexesOnly u (ringLeft (body u c)) ∧ staysHere (body u c)) : IndexesOnly s t := by
  unfold Machine.ringRun at ran
  split at ran
  · cases ran
    exact refl s
  · next c next =>
    have opcode : descOpcode c.desc = op := by
      have found := List.find?_some next
      simp only [Bool.and_eq_true, beq_iff_eq] at found
      exact found.2
    split at ran
    · cases ran
      exact refl s
    · have taken : IndexesOnly s (s.ringTake c) := ⟨rfl, rfl⟩
      have meant := kept (s.ringTake c) c
      dsimp only at ran
      split at ran
      · next refused =>
        cases ran
        exact taken.trans (complete _ _ (descCheck_stays (opcode ▸ sessionless) refused))
      · split at ran
        · next left =>
          rw [left] at meant
          cases ran
          exact (taken.trans meant.1).trans (complete _ _ meant.2)
        · next left =>
          rw [left] at meant
          cases ran
          exact taken.trans meant.1

theorem tryDestroyIndex (s : State) (p id : Nat) : IndexesOnly s (s.tryDestroyIndex p id) := by
  unfold State.tryDestroyIndex
  split
  · exact refl s
  · split
    · exact refl s
    · split
      · exact (modPen s p (fun q => { q with indexes := assocDel id q.indexes }) fun _ => rfl).trans
          (mailboxOnly (.mbFinish _ _ _))
      · exact refl s

theorem indexInsert {s t : State} {p k : Nat} {records : List Byte} (ran : exec (.indexInsert p k records) s = .next t) :
    IndexesOnly s t := by
  change execIndexInsert p k records s = _ at ran
  unfold execIndexInsert at ran
  refine ringRun ran (by decide) fun u c => ?_
  dsimp only
  split
  · exact ⟨refl u, nofun⟩
  · split
    · exact ⟨refl u, nofun⟩
    · split
      · exact ⟨refl u, nofun⟩
      · split
        · refine ⟨trans (t := u.modIndex p (operand c.desc 0 4) fun x => { x with compacting := true }) ?_ ⟨rfl, rfl⟩, nofun⟩
          exact modIndex u _ _ _
        · split
          · exact ⟨refl u, nofun⟩
          · split
            · exact ⟨bumpPen u _ _ _, nofun⟩
            · exact ⟨modIndex u _ _ _, nofun⟩

theorem indexDelete {s t : State} {p k : Nat} {records : List Byte} (ran : exec (.indexDelete p k records) s = .next t) :
    IndexesOnly s t := by
  change execIndexDelete p k records s = _ at ran
  unfold execIndexDelete at ran
  refine ringRun ran (by decide) fun u c => ?_
  dsimp only
  split
  · exact ⟨refl u, nofun⟩
  · split
    · exact ⟨refl u, nofun⟩
    · split
      · exact ⟨refl u, nofun⟩
      · exact ⟨modIndex u _ _ _, nofun⟩

theorem indexCommit {s t : State} {p k : Nat} (ran : exec (.indexCommit p k) s = .next t) : IndexesOnly s t := by
  change execIndexCommit p k s = _ at ran
  unfold execIndexCommit at ran
  refine ringRun ran (by decide) fun u c => ?_
  dsimp only
  split
  · exact ⟨refl u, nofun⟩
  · split
    · exact ⟨refl u, nofun⟩
    · split
      · exact ⟨refl u, nofun⟩
      · exact ⟨modIndex u _ _ _, nofun⟩

theorem search {s t : State} {p k : Nat} {query : List Byte} (ran : exec (.search p k query) s = .next t) :
    IndexesOnly s t := by
  change execSearch p k query s = _ at ran
  unfold execSearch at ran
  refine ringRun ran (by decide) fun u c => ?_
  dsimp only
  split
  · exact ⟨refl u, nofun⟩
  · split
    · split
      · exact ⟨(bumpPen u _ _ _).trans (tryDestroyIndex _ _ _), nofun⟩
      · exact ⟨modIndex u _ _ _, trivial⟩
    · exact ⟨refl u, nofun⟩

theorem indexCreate {s t : State} {mb : Mb} (ran : exec (.indexCreate mb) s = .next t) : IndexesOnly s t := by
  change execIndexCreate mb s = _ at ran
  unfold execIndexCreate at ran
  refine indexesOnly_frame.mbRun ran fun u c =>
    indexesOnly_frame.withPen fun p q => indexesOnly_frame.unlessBad ?_
  split
  · exact refl u
  · exact modPen u p _ fun _ => rfl

theorem indexDestroy {s t : State} {mb : Mb} (ran : exec (.indexDestroy mb) s = .next t) : IndexesOnly s t := by
  change execIndexDestroy mb s = _ at ran
  unfold execIndexDestroy at ran
  exact indexesOnly_frame.mbRun ran fun u c => indexesOnly_frame.withPen fun p q =>
    indexesOnly_frame.unlessBad ((modIndex u _ _ _).trans (tryDestroyIndex _ _ _))

theorem compactionTimer {s t : State} {p id : Nat} (ran : exec (.compactionTimer p id) s = .next t) : IndexesOnly s t := by
  change execCompactionTimer p id s = _ at ran
  unfold execCompactionTimer at ran
  split at ran
  · cases ran
    exact refl s
  · split at ran
    · cases ran
      exact refl s
    · next waiting _ =>
      split at ran
      · cases ran
        exact refl s
      · cases ran
        have waited : IndexesOnly s (s.at_ (waiting + 2 ^ 26)) := ⟨rfl, rfl⟩
        exact waited.trans (modIndex _ _ _ _)

end IndexesOnly

open IndexesOnly in
/-- Settles O60: each index command keeps `IndexesOnly`. -/
theorem indexFrame : Obligations.IndexFrame := by
  unfold Obligations.IndexFrame
  intro c s t named ran
  have kept : IndexesOnly s t := by
    cases c with
    | indexInsert => exact indexInsert ran
    | indexDelete => exact indexDelete ran
    | indexCommit => exact indexCommit ran
    | search => exact search ran
    | indexCreate => exact indexCreate ran
    | indexDestroy => exact indexDestroy ran
    | compactionTimer => exact compactionTimer ran
    | _ => exact named.elim
  refine ⟨?_, ?_, ?_, ?_, ?_, ?_, ?_, ?_, ?_, ?_, ?_, ?_, ?_, ?_, kept.pens⟩ <;> rw [kept.rest]

end Sys2Proof.Proofs
end

section
/-!
SUPPORT. The completion statements of the host port, the ladder, the mailboxes' hardware, the Crier and the Tollgate
(O17 to O21): each meaning through its carrier's law, then the branch that the hypotheses choose.
-/
namespace Sys2Proof.Proofs
open Sys2Proof.Machine Sys2Proof.Safety Sys2Proof.Laws

/-! ### Host-port accesses -/

/-- Settles O17: `hostWrite_takes` for the writes, the two branches of a read. -/
theorem hostAccessesComplete : Obligations.HostAccessesComplete := by
  unfold Obligations.HostAccessesComplete
  intro q off data v width isWrite s
  refine ⟨fun taken => ?_, fun taken => ?_, fun hears reads => ?_, fun e hears refused => ⟨?_, ?_⟩,
    fun hears reads => ?_⟩
  · change execHostRegisterWrite q off data s = _
    exact hostWrite_takes taken _
  · have bit0 : bitOf v.toNat 0 = true ↔ v.toNat % 2 = 1 := by
      simp only [bitOf_eq_testBit, Nat.testBit_zero, decide_eq_true_eq]
    change execHostErrorsClear q v s = _
    rw [execHostErrorsClear, hostWrite_takes taken, State.writeHostControl]
    exact congrArg _ (ite_congr (propext bit0) (fun _ => rfl) fun _ => rfl)
  · change execHealthRead q s = _
    simp only [execHealthRead, hears, reads, Bool.not_true, Bool.false_eq_true, if_false]
    rfl
  · change execHostAccessError q off width isWrite s = _
    simp only [execHostAccessError, hears, refused, Bool.not_true, Bool.false_eq_true, if_false]
  · exact hostError_hostErrors _ _ _ _
  · change execHostAccessError q off width false s = _
    simp only [execHostAccessError, hears, reads, Bool.not_true, Bool.false_eq_true, if_false]
    rfl

/-! ### The ladder -/

theorem sbLadder_confirmed {s : State} {inRecovery : Bool} (answers : sbAnswers s inRecovery) (body : State) :
    sbLadder s inRecovery 0xA5C3 body = .next body := by
  unfold sbLadder
  rw [if_pos rfl]
  exact sbWhen_answers answers body

theorem sbReply_last (s : State) (command status : Nat) (rest : List Byte) :
    (s.sbReply command status rest).out.getLast? = some (.sideBand (sbBody command status rest)) :=
  List.getLast?_concat

/-- A confirmed action on a ladder that is not BUSY is not discarded (Table 3.3). -/
theorem writeLadder_confirmed {s : State} {v : BitVec 64} (idle : s.ladder.busy = false)
    (confirmed : v.toNat / 2 ^ 16 % 2 ^ 16 = 0xA5C3) (ctx : Nat) : s.writeLadder ctx v =
      if ladderAction v = 1 then s.ladderReinit (v.toNat % 2 ^ 10)
      else if ladderAction v = 2 then s.ladderWarm (v.toNat % 2 ^ 10) 1
      else s.hostError .badWrite ctx ladderOff := by
  have pen : bitsOf v.toNat 0 10 = v.toNat % 2 ^ 10 := by rw [bitsOf, Nat.pow_zero, Nat.div_one]
  have field : (bitsOf v.toNat 16 16 != 0xA5C3) = false := by rw [bitsOf, confirmed]; rfl
  simp only [State.writeLadder, idle, field, pen, Bool.or_false, Bool.false_eq_true, if_false]

theorem ladderReinit_begins {s : State} {p : Nat} {x : Pen} (clear : s.warmPending = false) (there : s.pen? p = some x)
    (resting : x.reinit = none) (noUpdate : s.ident.liveUpdate = none) :
    s.ladderReinit p = { s with ladder := s.ladder.accept p 1 }.startReinit p true := by
  simp only [State.ladderReinit, clear, there, resting, noUpdate, Bool.false_eq_true, if_false, Option.isSome_none]

theorem ladderWarm_accepted {s : State} (clear : s.warmPending = false) (p cause : Nat) :
    s.ladderWarm p cause =
      let t := { s with ladder := s.ladder.accept p 2 }.triggerWarm cause
      if t.warmPending then t else { t with ladder := { t.ladder with busy := false } } := by
  simp only [State.ladderWarm, clear, Bool.false_eq_true, if_false]

/-- A reinit leaves the ladder as it was. -/
theorem startReinit_ladder (s : State) (p : Nat) (viaLadder : Bool) : (s.startReinit p viaLadder).ladder = s.ladder := by
  unfold State.startReinit
  dsimp only
  rw [(foldl_completionOnly (fun (t : State) (c : RingCmd) => t.complete c (rStatus .abortedRetryable))
    (fun t c => complete_completionOnly t c _) _ _).rest]
  rfl

theorem powerCycle_board (s : State) (cause : Nat) : (s.powerCycle cause).board.pwrCycleLow = true
    ∧ (s.powerCycle cause).board.pwrCycleSince = s.clock.now := ⟨rfl, rfl⟩

/-- A warm reset that is triggered outside BOOT begins, unless it is the third in 2^31 cycles and power cycles (R349). -/
theorem triggerWarm_cases {s : State} (clear : s.warmPending = false) (served : s.ident.devState ≠ .boot) (cause : Nat) :
    s.triggerWarm cause = s.powerCycle 7
      ∨ (s.triggerWarm cause).warmPending = true ∧ (s.triggerWarm cause).ladder = s.ladder
        ∧ (s.triggerWarm cause).board = s.board := by
  unfold State.triggerWarm
  simp only [clear, served, Bool.false_or, decide_false, Bool.false_eq_true, if_false]
  split
  · exact .inl rfl
  · exact .inr ⟨rfl, rfl, rfl⟩

/-- Settles O18: a confirmed action that nothing refuses. -/
theorem ladderActionsComplete : Obligations.LadderActionsComplete := by
  unfold Obligations.LadderActionsComplete
  intro q v p s
  refine ⟨fun taken idle confirmed clear => ⟨fun reinit x there resting noUpdate => ?_, fun warm => ?_⟩,
    fun answers high idle clear served => ⟨fun x there resting noUpdate => ?_, ?_⟩, fun answers high => ?_,
    fun answers low since => ?_⟩
  · change execLadderPenReinit q v s = _
    rw [execLadderPenReinit, if_neg (by rw [reinit]; decide), hostWrite_takes taken, writeLadder_confirmed idle confirmed,
      if_pos reinit, ladderReinit_begins clear there resting noUpdate]
  · change execLadderWarmReset q v s = _
    rw [execLadderWarmReset, if_neg (by rw [warm]; decide), hostWrite_takes taken, writeLadder_confirmed idle confirmed,
      if_neg (by rw [warm]; decide), if_pos warm, ladderWarm_accepted clear]
  · change ∃ t, execSbPenReinit p 0xA5C3 s = .next t ∧ _
    have accepted := startReinit_ladder { s with ladder := s.ladder.accept p 1 } p true
    rw [execSbPenReinit, sbLadder_confirmed answers, ladderReinit_begins clear there resting noUpdate]
    generalize State.startReinit _ p true = u at accepted ⊢
    simp only [high, idle, served, decide_false, Bool.or_false, Bool.false_eq_true, if_false]
    refine ⟨_, rfl, sbReply_last _ _ _ _, ?_⟩
    exact congrArg (fun l : Ladder => (l.lastPen, l.lastAction, l.accepted)) accepted
  · change ∃ t, execSbWarmReset 0xA5C3 s = .next t ∧ _
    have triggered := triggerWarm_cases (s := { s with ladder := s.ladder.accept 0 2 }) clear served 9
    rw [execSbWarmReset, sbLadder_confirmed answers, ladderWarm_accepted clear]
    generalize State.triggerWarm _ 9 = u at triggered ⊢
    simp only [idle, clear, served, decide_false, Bool.or_false, Bool.false_eq_true, if_false]
    refine ⟨_, rfl, sbReply_last _ _ _ _, ?_⟩
    obtain rfl | ⟨pending, ladder, board⟩ := triggered
    · rfl
    · rw [if_pos pending]
      change if u.board.pwrCycleLow then _ else (u.ladder.lastPen, u.ladder.lastAction, u.ladder.accepted) = _ ∧ _
      rw [board, high, ladder]
      exact ⟨rfl, pending⟩
  · change ∃ t, execSbPowerCycle 0xA5C3 s = .next t ∧ _
    rw [execSbPowerCycle, sbLadder_confirmed answers, high]
    exact ⟨_, rfl, rfl, rfl, rfl⟩
  · have due : decide (s.clock.now < s.board.pwrCycleSince + 2 ^ 26) = false := decide_eq_false (by omega)
    change ∃ t, execRelease 0xA5C3 s = .next t ∧ _
    rw [execRelease, sbLadder_confirmed answers, low, due]
    exact ⟨_, rfl, rfl, rfl, by simp [State.sbReply, State.riseAgain, State.emit], rfl, rfl⟩
/-! ### The mailboxes' hardware -/

theorem modMb_congr {s : State} {mb : Mb} {m : Mailbox} {f g : Mailbox → Mailbox} (holds : s.mb? mb = some m)
    (same : f m = g m) : s.modMb mb f = s.modMb mb g := by
  cases mb with
  | admin =>
    obtain rfl := Option.some.inj holds
    simp only [State.modMb, same]
  | sideBand =>
    obtain rfl := Option.some.inj holds
    simp only [State.modMb, same]
  | pen p =>
    have pens : assocMod p (fun q : Pen => { q with mailbox := f q.mailbox }) s.pens
        = assocMod p (fun q : Pen => { q with mailbox := g q.mailbox }) s.pens := by
      refine assocMod_congr fun q there => ?_
      obtain ⟨q', found, rfl⟩ := Option.map_eq_some_iff.1 holds
      obtain rfl : q' = q := Option.some.inj (found.symm.trans there)
      rw [same]
    simp only [State.modMb, State.modPen, pens]

/-- A write to a descriptor or a payload of a mailbox that is BUSY sets OVERRUN (R72). -/
theorem writeMbDesc_busy {s : State} {mb : Mb} {m : Mailbox} (holds : s.mb? mb = some m) (busy : m.busy = true)
    (off : Nat) (bs : List Byte) : s.writeMbDesc mb off bs = s.modMb mb fun x => { x with overrun := true } :=
  modMb_congr holds (if_pos busy)

theorem writeMbPayload_busy {s : State} {mb : Mb} {m : Mailbox} (holds : s.mb? mb = some m) (busy : m.busy = true)
    (off : Nat) (bs : List Byte) : s.writeMbPayload mb off bs = s.modMb mb fun x => { x with overrun := true } :=
  modMb_congr holds (if_pos busy)

theorem modMb_overrun {s : State} {mb : Mb} {m : Mailbox} (holds : s.mb? mb = some m) (set : m.overrun = true) :
    (s.modMb mb fun x => { x with overrun := true }) = s := by
  refine (modMb_congr (g := id) holds ?_).trans ?_
  · rw [← set]
    rfl
  · cases mb with
    | admin => rfl
    | sideBand => rfl
    | pen p => exact congrArg (fun l => { s with pens := l }) (assocMod_same fun _ _ => rfl)

theorem writeMbSubmit_busy {s : State} {mb : Mb} {m : Mailbox} (holds : s.mb? mb = some m) (busy : m.busy = true)
    (v : BitVec 64) : s.writeMbSubmit mb v = s.modMb mb fun x => { x with overrun := true } := by
  simp only [State.writeMbSubmit, holds, busy, if_true]

/-- A write to any guarded part of a mailbox that is BUSY sets OVERRUN and has no other effect (R72). -/
theorem writeMailbox_busy {s : State} {mb : Mb} {m : Mailbox} (holds : s.mb? mb = some m) (busy : m.busy = true)
    {off : Nat} {data : List Byte} (some_ : data ≠ []) (guarded : off = 0 ∨ 0x40 ≤ off ∧ off < 0x80 ∨ 0x100 ≤ off) :
    s.writeMailbox mb off data = s.modMb mb fun x => { x with overrun := true } := by
  obtain rfl | desc | payload := guarded
  · rw [State.writeMailbox, if_pos rfl, writeMbSubmit_busy holds busy]
  · have set : (s.modMb mb fun x => { x with overrun := true }).mb? mb = some { m with overrun := true } := by
      rw [mb?_modMb, holds]
      rfl
    have inDesc : (decide (0x40 ≤ off) && decide (off < 0x80)) = true := by simp only [desc, decide_true, Bool.and_self]
    rw [State.writeMailbox, if_neg (by omega), if_neg (by omega)]
    simp only [inDesc, if_true, writeMbDesc_busy holds busy]
    split
    · rfl
    · rw [writeMbPayload_busy set busy, modMb_overrun set rfl]
  · have notDesc : (decide (0x40 ≤ off) && decide (off < 0x80)) = false := by
      simp only [Bool.and_eq_false_iff, decide_eq_false_iff_not]
      omega
    have past : (data.drop (0x100 - off)).isEmpty = false := by
      rw [Nat.sub_eq_zero_of_le payload, List.drop_zero]
      exact List.isEmpty_eq_false_iff.2 some_
    rw [State.writeMailbox, if_neg (by omega), if_neg (by omega)]
    simp only [notDesc, past, Bool.false_eq_true, if_false, writeMbPayload_busy holds busy]

/-- A late answer is counted (R73). -/
theorem mbReply_late {s : State} {mb : Mb} {c : MbCmd} {m : Mailbox} (holds : s.mb? mb = some m)
    (late : m.busy = true → m.ticket ≠ c.ticket) (r : Reply) :
    s.mbReply ⟨mb, c⟩ r = s.bumpPen (mbPen mb) .mbLate 1 := by
  have notOwed : (m.busy && m.ticket == c.ticket) = false := by
    simp only [Bool.and_eq_false_imp, beq_eq_false_iff_ne]
    exact late
  simp only [State.mbReply, holds, notOwed, Bool.false_eq_true, if_false]

/-- Taking a command up changes no more of its mailbox than what it still holds. -/
theorem mb?_mbTake (s : State) (mb : Mb) (c : MbCmd) : (s.mbTake mb c).mb? mb = (s.mb? mb).map fun m => { m with
    cmd := if m.cmd = some c then none else m.cmd, late := m.late.filter (fun l => l.ticket != c.ticket) } :=
  mb?_modMb s mb _

/-- Settles O19: each branch of the mailboxes' hardware. -/
theorem mailboxHardwareCompletes : Obligations.MailboxHardwareCompletes := by
  unfold Obligations.MailboxHardwareCompletes
  intro q mb v off data desc s m
  refine ⟨fun window taken holds => ?_, fun window before was taken holds nonempty inside guarded => ?_,
    fun holds busy => ?_, fun c l holds late notOwed => ?_, fun answers short fetches idle => ?_⟩
  · have run : exec (.mbSubmit q mb v) s = .next ((hostTaken s q (mailboxOff mb)).writeMbSubmit mb v) := by
      change execMbSubmit q mb v s = _
      rw [execMbSubmit, if_neg (by rw [window]; decide), hostWrite_takes taken]
    have seq : bitsOf v.toNat 0 16 = v.toNat % 2 ^ 16 := by rw [bitsOf, Nat.pow_zero, Nat.div_one]
    refine ⟨fun busy => ?_, fun idle => ?_⟩
    · rw [run, writeMbSubmit_busy holds busy]
    · rw [run]
      simp only [State.writeMbSubmit, holds, idle, Bool.false_eq_true, if_false, seq]
  · have guards : busyGuards off = true := by
      simp only [busyGuards, Bool.or_eq_true, Bool.and_eq_true, beq_iff_eq, decide_eq_true_eq]
      omega
    have below : decide (0x1000 ≤ off) = false := by
      have := List.length_pos_iff.2 nonempty
      exact decide_eq_false (by omega)
    change execMailboxOverrun q mb off data s = _
    rw [execMailboxOverrun, window, guards, below, before]
    simp only [was, Option.map_some, Option.getD_some, Bool.not_true, Bool.or_false, Bool.false_eq_true, if_false]
    rw [hostWrite_takes taken, writeMailbox_busy holds was nonempty guarded]
  · change ∃ t, execMailboxTimeout mb s = .next t ∧ _
    have later : (s.at_ (m.since + 2 ^ 18)).mb? mb = some m := by rw [← holds]; cases mb <;> rfl
    simp only [execMailboxTimeout, holds, busy, if_true]
    refine ⟨_, rfl, ?_, ?_⟩
    · rw [mb?_mbWrite, mb?_modMb, later]
      cases owed : m.cmd <;> simp only [Option.map_some, Option.map_none, Option.getD_some, Option.getD_none, completed, owed]
    · rw [(mbWrite_completionOnly _ _ _ _ _).rest]
      cases mb <;> rfl
  · change execMbLate mb s = _
    have kept : (s.mbTake mb c).mb? mb = some { m with
        cmd := if m.cmd = some c then none else m.cmd, late := m.late.filter (fun l => l.ticket != c.ticket) } := by
      rw [mb?_mbTake, holds]
      rfl
    simp only [execMbLate, holds, late, State.mbFinish]
    rw [mbReply_late kept notOwed]
  · change execSbMailbox data.length desc data s = _
    rw [execSbMailbox, sbWhen_answers answers]
    simp only [Nat.not_lt.2 short, bne_self_eq_false, fetches, idle, decide_false, Bool.or_self, Bool.not_true,
      Bool.false_eq_true, if_false]

/-! ### The Crier -/

theorem crierPenWrite_takes {s : State} {q : Req} {p o : Nat} (inRange : p < 1024)
    (taken : hostTakes s q (.crier p o) (crierOff p o) 8) (effect : State → State) :
    crierPenWrite s q p o effect = .next (effect (hostTaken s q (crierOff p o))) := by
  rw [crierPenWrite, if_neg (by omega), hostWrite_takes taken]

theorem crierRingWrite_takes {s : State} {q : Req} {p r o : Nat} (inRange : p < 1024) (ringInRange : r < 16)
    (taken : hostTakes s q (.crier p (evRingOff r o)) (crierOff p (evRingOff r o)) 8) (effect : State → State) :
    crierRingWrite s q p r o effect = .next (effect (hostTaken s q (crierOff p (evRingOff r o)))) := by
  rw [crierRingWrite, if_neg (by omega), crierPenWrite_takes inRange taken]

theorem moderationOk_iff (v : BitVec 64) :
    moderationOk v = true ↔ v.toNat % 2 ^ 13 ≤ 4096 ∧ v.toNat / 2 ^ 16 % 2 ^ 25 ≤ 16777216 := by
  simp only [moderationOk, Bool.and_eq_true, decide_eq_true_eq]
  rw [bitsOf, bitsOf, Nat.pow_zero, Nat.div_one]

/-- Settles O20: the carriers of the Crier's registers, and the branches of EV_CTRL (R365). -/
theorem crierWritesComplete : Obligations.CrierWritesComplete := by
  unfold Obligations.CrierWritesComplete
  refine ⟨fun q p r v s inRange ringInRange => ⟨fun taken => ?_, fun taken => ?_, fun taken => ?_, fun taken => ?_,
    fun taken => ?_, fun taken => ?_, fun t0 timer some_ => ?_⟩, fun e p v => ⟨fun off on ok => ?_, fun off on bad => ?_,
    fun off stays => ?_, fun on off => ?_⟩⟩
  · change execEventMaskWrite q p v s = _
    exact crierPenWrite_takes inRange taken _
  · change execAttnPendingWrite q p v s = _
    exact crierPenWrite_takes inRange taken _
  · change execAttnMaskWrite q p v s = _
    exact crierPenWrite_takes inRange taken _
  · change execEvBaseWrite q p r v s = _
    exact crierRingWrite_takes inRange ringInRange taken _
  · change execEvCtrlWrite q p r v s = _
    exact crierRingWrite_takes inRange ringInRange taken _
  · change execModerationWrite q p r v s = _
    rw [execModerationWrite, crierRingWrite_takes inRange ringInRange taken]
    refine congrArg _ ((ite_congr (propext (moderationOk_iff v)) (fun _ => rfl) fun _ => rfl).trans ?_)
    simp only [State.writeModeration, bitsOf, Nat.pow_zero, Nat.div_one]
  · change execModerationTimer p r s = _
    simp only [execModerationTimer, timer, some_, if_true, if_neg (Nat.not_le.2 ringInRange)]
    rfl
  · simp only [off] at ok
    simp only [EventRing.writeCtrl, bitOf_eq_testBit, bitsOf, off, on, ok, Bool.not_true, Bool.false_eq_true, if_false, if_true]
  · simp only [off] at bad
    simp only [EventRing.writeCtrl, bitOf_eq_testBit, bitsOf, off, on, bad, Bool.not_true, Bool.false_eq_true, if_false]
  · simp only [EventRing.writeCtrl, bitOf_eq_testBit, bitsOf, off, stays, Bool.not_false, Bool.false_eq_true, if_false, if_true]
  · simp only [EventRing.writeCtrl, bitOf_eq_testBit, on, off, Bool.false_eq_true, if_false, if_true, and_self]

/-! ### The Tollgate -/

theorem modRing_completionOnly (s : State) (p k : Nat) (f : Ring → Ring) : CompletionOnly s (s.modRing p k f) :=
  modPen_completionOnly s p _ fun _ => rfl

theorem rejectCmd_completionOnly (s : State) (p k : Nat) (c : RingCmd) (r : Reply) :
    CompletionOnly s (s.rejectCmd p k c r) :=
  (modRing_completionOnly s p k _).trans (complete_completionOnly _ _ _)

theorem oversizeCmd_completionOnly (s : State) (p k : Nat) (c : RingCmd) : CompletionOnly s (s.oversizeCmd p k c) :=
  (modRing_completionOnly s p k _).trans (rejectCmd_completionOnly _ _ _ _ _)

theorem colourCmd_completionOnly (s : State) (p k : Nat) (c : RingCmd) : CompletionOnly s (s.colourCmd p k c) := by
  unfold State.colourCmd
  split
  · exact .refl s
  · split
    · split
      · exact modRing_completionOnly s p k _
      · exact (modRing_completionOnly s p k _).trans (complete_completionOnly _ _ _)
    · exact modRing_completionOnly s p k _

/-- A ring's part of a tick changes nothing but what completions may. -/
theorem tickRing_completionOnly (s : State) (p k : Nat) : CompletionOnly s (s.tickRing p k) := by
  have refilled := modRing_completionOnly s p k Ring.refill
  unfold State.tickRing
  extract_lets s1 s2
  have coloured : CompletionOnly s s2 := by
    unfold s2
    split
    · exact refilled
    · split
      · exact refilled
      · split
        · exact refilled
        · split
          · exact refilled.trans (oversizeCmd_completionOnly _ _ _ _)
          · exact refilled.trans (colourCmd_completionOnly _ _ _ _)
  split
  · exact coloured
  · refine coloured.trans ((modRing_completionOnly _ _ _ _).trans (foldl_completionOnly _ (fun t c => ?_) _ _))
    exact (modRing_completionOnly _ _ _ _).trans (mbFinish_completionOnly _ _ _)

theorem sample_samples (g : Ring) (now : Nat) :
    tallyGet (g.sample now).ctrs .samples = min (2 ^ 32 - 1) (tallyGet g.ctrs .samples + 1) := by
  simp [Ring.sample, Ring.bump, tallyMax, tallyGet, tallyAdd, ringCtrWidth, assocGet_set_ne]

theorem sample_depthLast (g : Ring) (now : Nat) : tallyGet (g.sample now).ctrs .depthLast = g.depth := by
  simp [Ring.sample, Ring.bump, tallyMax, tallyGet, tallyAdd, assocGet_set_ne]

/-- Settles O21: the branches of a fetch and a dispatch, the clock of a tick, and the buckets. -/
theorem tollgateCompletes : Obligations.TollgateCompletes := by
  unfold Obligations.TollgateCompletes
  refine ⟨fun p k d s g there => ⟨fun arb turn fetches fetchable => ?_, fun u lc be n c turn fetches awake ready => ?_, ?_, ?_⟩,
    fun g b => ⟨fun cir pir => ?_, fun paused => ?_, fun red => ?_, fun enough yellow => ?_, fun enough noYellow green => ?_⟩⟩
  · refine ⟨fun none_ passes fits => ?_, fun n hint run => ?_⟩
    · change execFetch p k d s = _
      simp only [execFetch, there, turn, fetches, fetchable, none_, passes, Bool.not_true, Bool.or_self, Bool.false_eq_true,
        if_false, if_neg (Nat.not_lt.2 fits)]
    · change execFetch p k d s = _
      simp only [execFetch, there, turn, fetches, fetchable, run, Bool.not_true, Bool.or_self, Bool.false_eq_true, if_false]
  · change execDispatch u p k s = _
    have first : (s.ring? p k).bind (·.ready) = some c := by rw [there]; exact ready
    simp only [execDispatch, turn, fetches, awake, first, bne_self_eq_false, Bool.not_true, Bool.or_self,
      Bool.false_eq_true, if_false]
  · change ∃ t, execTollgateTick s = .next t ∧ _
    refine ⟨_, rfl, ?_⟩
    rw [(foldl_completionOnly _ (fun t (x : Nat × Nat) => tickRing_completionOnly t x.1 x.2) _ _).rest]
    exact ⟨rfl, rfl⟩
  · change ∃ t, execTollgateSample p k s = .next t ∧ _
    simp only [execTollgateSample, there]
    have same : (s.at_ g.nextSample).ring? p k = some g := there
    refine ⟨_, rfl, ?_⟩
    rw [ring?_modRing, same]
    simp only [Option.map_some, sample_samples, sample_depthLast, Ring.depth]
    cases g.held <;> rfl
  · have runs : g.paused = false := by simp [Ring.paused, cir, pir]
    simp only [Ring.refill, runs, Bool.false_eq_true, if_false]
  · have stops : g.paused = true := by simp only [Ring.paused, Bool.or_eq_true, beq_iff_eq, paused]
    simp only [Ring.refill, stops, if_true]
  · simp only [Ring.colourOf, red, if_true]
  · rw [Ring.colourOf, if_neg (Nat.not_lt.2 enough), if_pos (by simpa using yellow)]
  · have plain : ((g.toll.colourAware && g.toll.preColourYellow) || decide (g.tc < b)) = false := by
      simp only [Bool.or_eq_false_iff, decide_eq_false_iff_not, Nat.not_lt, green, and_true]
      exact Bool.eq_false_iff.2 fun both => noYellow (Bool.and_eq_true_iff.1 both)
    rw [Ring.colourOf, if_neg (Nat.not_lt.2 enough), plain]
    rfl

end Sys2Proof.Proofs
end

section
/-!
SUPPORT. The completion statements of the mailbox commands (O22 to O31): the carrier's law, the checks that pass, and the
branch that the hypotheses choose.
-/
namespace Sys2Proof.Proofs
open Sys2Proof.Machine Sys2Proof.Safety Sys2Proof.Laws

/-! ### Checks that pass -/

theorem badAmong_cons {k : Nat} {b : Bool} {l : List (Nat × Bool)} (passes : b = false) (rest : badAmong l = none) :
    badAmong ((k, b) :: l) = none := by
  rw [passes, badAmong_cons_false, rest]

theorem badAmong_append {l m : List (Nat × Bool)} (first : badAmong l = none) (rest : badAmong m = none) :
    badAmong (l ++ m) = none := by
  rw [badAmong_none_iff] at *
  exact fun x listed => (List.mem_append.1 listed).elim (first x) (rest x)

theorem unlessBad_none {s : State} {l others : List (Nat × Bool)} (fields : badAmong l = none)
    (rest : badAmong others = none) (body : MbDone) : unlessBad s l body others = body := by
  simp only [unlessBad, badFirst, fields, rest]

/-- A mailbox command whose meaning finishes at once. -/
theorem mbRun_now {s t : State} {mb : Mb} {op : Nat} {c : MbCmd} {body : State → MbCmd → MbDone} {r : Reply}
    (begins : reeveBegins s mb op c) (meant : body (s.mbTake mb c) c = .now t r) :
    mbRun s mb op body = .next (t.mbFinish ⟨mb, c⟩ r) := by
  rw [mbRun_begins begins, meant]
  rfl

/-- A mailbox command whose meaning answers later. -/
theorem mbRun_later {s t : State} {mb : Mb} {op : Nat} {c : MbCmd} {body : State → MbCmd → MbDone}
    (begins : reeveBegins s mb op c) (meant : body (s.mbTake mb c) c = .later t) :
    mbRun s mb op body = .next t.reeveNext := by
  rw [mbRun_begins begins, meant]
  rfl

/-- A ring command whose meaning finishes at once. -/
theorem ringRun_now {s t : State} {p k op : Nat} {c : RingCmd} {body : State → RingCmd → RingDone} {r : Reply}
    (begins : unitBegins s p k op c) (meant : body (s.ringTake c) c = .now t r) :
    ringRun s p k op body = .next (t.complete c r) := by
  rw [ringRun_begins begins, meant]
  rfl

/-- A ring command whose meaning answers later. -/
theorem ringRun_later {s t : State} {p k op : Nat} {c : RingCmd} {body : State → RingCmd → RingDone}
    (begins : unitBegins s p k op c) (meant : body (s.ringTake c) c = .later t) :
    ringRun s p k op body = .next t := by
  rw [ringRun_begins begins, meant]
  rfl

/-! ### Pens -/

/-- Settles O22. -/
theorem penCommandsComplete : Obligations.PenCommandsComplete := by
  unfold Obligations.PenCommandsComplete
  intro mb s c
  refine ⟨fun begins => ?_, fun begins inRange absent cfg now next rings sessions gen => ?_,
    fun begins notZero x there noRings noneCounted noneOpen => ?_, fun begins there cfg next => ?_,
    fun begins inRange absent cfg gen => ?_, fun begins zero => ?_⟩
  · change execNirvexCaps mb s = _
    exact mbRun_now begins rfl
  · change execPenCreate mb s = _
    refine mbRun_now begins ?_
    dsimp only
    rw [unlessBad_none (badAmong_cons (by rw [absent]; simp [inRange]) cfg) rfl, if_neg, mbTake_clock]
    simp only [now, next, Bool.or_eq_true, Bool.false_eq_true, false_or, decide_eq_true_eq]
    omega
  · change execPenDestroy mb s = _
    refine mbRun_now begins ?_
    dsimp only
    rw [if_neg notZero, unlessBad_none (badAmong_cons ?_ rfl) rfl]
    simp only [there, noRings, noneCounted, noneOpen]
    rfl
  · change execPenConfig mb s = _
    refine mbRun_later begins ?_
    dsimp only
    rw [unlessBad_none (badAmong_cons (Option.isNone_eq_false_iff.2 there) cfg) rfl, if_neg (by rw [next]; decide)]
  · change execPenCreate mb s = _
    refine mbRun_now begins ?_
    dsimp only
    rw [unlessBad_none (badAmong_cons (by rw [absent]; simp [inRange]) cfg) rfl, if_pos]
    simp only [gen, decide_true, Bool.or_true]
  · change execPenDestroy mb s = _
    refine mbRun_now begins ?_
    dsimp only
    rw [if_pos zero]

/-! ### Rings -/

theorem hasRing_live {q : Pen} {k : Nat} {g : Ring} (there : assocGet k q.rings = some g) (live : g.destroying = none) :
    q.hasRing k = true := by
  simp only [Pen.hasRing, there, live, Option.isNone_none]

/-- Settles O24. -/
theorem ringCommandsComplete : Obligations.RingCommandsComplete := by
  unfold Obligations.RingCommandsComplete
  intro mb s c q
  dsimp only
  intro there
  refine ⟨fun begins sqBase cqBase sqLow sqHigh cqLow cqHigh evRing critical ring absent tolls below total =>
    ⟨?_, rfl, rfl, rfl, rfl, rfl, rfl⟩, fun begins g listed live => ?_, fun begins g listed live critical tolls => ?_⟩
  · change execRingCreate mb s = _
    refine mbRun_now begins ?_
    dsimp only
    rw [withPen_some there]
    rw [unlessBad_none (badAmong_append ?_ tolls) rfl, if_neg, mbTake_clock]
    · simp only [Bool.or_eq_true, decide_eq_true_eq]
      omega
    · refine badAmong_cons ?_ (badAmong_cons ?_ (badAmong_cons ?_ (badAmong_cons ?_ (badAmong_cons ?_ (badAmong_cons ?_
        (badAmong_cons ?_ rfl))))))
      · rw [sqBase]; rfl
      · rw [cqBase]; rfl
      · simp only [Bool.or_eq_false_iff, decide_eq_false_iff_not]; omega
      · simp only [Bool.or_eq_false_iff, decide_eq_false_iff_not]; omega
      · simp only [Bool.and_eq_false_iff, decide_eq_false_iff_not, bne_eq_false_iff_eq]; omega
      · exact decide_eq_false (Nat.not_lt.2 critical)
      · rw [assocHas, absent, decide_eq_false (Nat.not_lt.2 ring)]; rfl
  · have found : (s.mbTake mb c).ring? (mbTarget mb c.desc 22) (operand c.desc 20 2) = some g := by
      rw [State.ring?, there]
      exact listed
    have passes := badAmong_cons (k := 36) (b := !q.hasRing (operand c.desc 20 2)) (l := [])
      (by rw [hasRing_live listed live]; rfl) rfl
    refine ⟨fun empty => ?_, fun x held => ?_⟩
    · change execRingDestroy mb s = _
      refine mbRun_later begins ?_
      dsimp only
      rw [withPen_some there, unlessBad_none passes rfl, found]
      simp only [Option.bind_some, empty]
    · change execRingDestroy mb s = _
      refine mbRun_later begins ?_
      dsimp only
      rw [withPen_some there, unlessBad_none passes rfl, found]
      simp only [Option.bind_some, held]
  · change execRingConfig mb s = _
    refine mbRun_later begins ?_
    dsimp only
    rw [withPen_some there]
    rw [unlessBad_none (badAmong_append (badAmong_cons (decide_eq_false (Nat.not_lt.2 critical))
      (badAmong_cons (by rw [hasRing_live listed live]; rfl) rfl)) tolls) rfl]

/-! ### Layouts and constraint sets -/

/-- Settles O25. -/
theorem layoutsAndConstraintsComplete : Obligations.LayoutsAndConstraintsComplete := by
  unfold Obligations.LayoutsAndConstraintsComplete
  intro mb s c src
  dsimp only
  refine ⟨fun begins absent checks => ?_, fun begins there unused => ?_,
    fun begins q set there len nonempty short notNull absent boundary compiles room => ?_,
    fun begins q there listed unused => ?_⟩
  · change execLayoutLoad mb s = _
    refine mbRun_now begins ?_
    dsimp only
    rw [badAmong_cons (by rw [absent]; rfl) checks]
  · change execLayoutUnload mb s = _
    refine mbRun_now begins ?_
    dsimp only
    rw [unlessBad_none (badAmong_cons ?_ rfl) rfl]
    rw [unused, Bool.or_false]
    exact Option.isNone_eq_false_iff.2 there
  · change execConstraintLoad mb src s = _
    have whole : src.take src.length ++ List.replicate (src.length - src.length) 0 = src := by
      rw [List.take_length, Nat.sub_self, List.replicate_zero, List.append_nil]
    have notEmpty : src.length ≠ 0 := fun zero => nonempty (List.eq_nil_of_length_eq_zero zero)
    rw [execConstraintLoad, mbRun_begins begins]
    dsimp only
    rw [withPen_some there, ← len, whole, if_neg notEmpty, unlessBad_none (badAmong_cons ?_ (badAmong_cons ?_ rfl))
      (badAmong_cons (by rw [compiles]; rfl) rfl), if_neg (Nat.not_le.2 room), compiles]
    · dsimp only
      by_cases fits : (q.constraints.map fun x => x.2.states).sum + set.states ≤ 16384
          ∧ (s.mbTake mb c).used (mbTarget mb c.desc 2) .t1 + set.bytes ≤ (s.mbTake mb c).quota (mbTarget mb c.desc 2) .t1
      · rw [if_pos fits, if_neg]
        · rfl
        · simp only [Bool.or_eq_true, decide_eq_true_eq]
          omega
      · rw [if_neg fits, if_pos]
        · rfl
        · simp only [Bool.or_eq_true, decide_eq_true_eq]
          omega
    · rw [assocHas, absent, Option.isSome_none, Bool.or_false]
      exact beq_eq_false_iff_ne.2 notNull
    · rw [boundary, decide_eq_false (Nat.not_lt.2 short)]
      rfl
  · change execConstraintUnload mb s = _
    refine mbRun_now begins ?_
    rw [withPen_some there]
    rw [unlessBad_none (badAmong_cons ?_ rfl) rfl]
    rw [assocHas, listed, unused]
    rfl

/-! ### Flocks -/

/-- Settles O26. -/
theorem flockCommandsComplete : Obligations.FlockCommandsComplete := by
  unfold Obligations.FlockCommandsComplete
  intro mb s c pen ring e
  dsimp only
  refine ⟨fun begins inRange absent some_ free => ?_, fun begins k there rests => ?_, fun begins k there checks => ?_,
    fun begins x k there on flock layout room => ?_, fun begins x k there flock layout state => ?_⟩
  · change execFlockCreate mb s = _
    refine mbRun_now begins ?_
    dsimp only
    rw [unlessBad_none (badAmong_cons ?_ (badAmong_cons ?_ rfl)) rfl, if_neg]
    · simp only [List.any_eq_true, Bool.not_eq_true', not_exists, not_and, Bool.not_eq_false]
      exact fun p listed => (free p listed).2
    · rw [assocHas, absent, decide_eq_false (Nat.not_lt.2 inRange)]
      rfl
    · rw [Bool.or_eq_false_iff, List.any_eq_false]
      refine ⟨beq_eq_false_iff_ne.2 some_, fun p listed => ?_⟩
      rw [(free p listed).1]
      decide
  · change execFlockDestroy mb s = _
    refine mbRun_later begins ?_
    simp only [there, rests, Bool.false_eq_true, if_false]
  · have passes := badAmong_cons (k := 16) (b := ((s.mbTake mb c).flock? (operand c.desc 0 1)).isNone)
      (by rw [there]; rfl) checks
    refine ⟨fun rests => ?_, fun steps => ?_⟩
    · change execFlockPlanConfig mb s = _
      refine mbRun_now begins ?_
      dsimp only
      rw [unlessBad_none passes rfl]
      simp only [there, rests, Bool.false_eq_true, if_false]
    · change execFlockPlanConfig mb s = _
      refine mbRun_later begins ?_
      dsimp only
      rw [unlessBad_none passes rfl]
      simp only [there, steps, if_true]
  · have listed : assocGet (operand c.desc 1 1) (s.mbTake mb c).flocks = some k := by
      obtain ⟨k', listed, live⟩ := Option.bind_eq_some_iff.1 flock
      split at live
      · cases live
      · exact live ▸ listed
    have passes : badAmong [(16, decide (1 < operand c.desc 0 1)),
        (17, match (s.mbTake mb c).flock? (operand c.desc 1 1) with
          | none => true
          | some k => k.params.layout != x.layout)] = none := by
      rw [flock]
      exact badAmong_cons (by rw [on]; rfl) (badAmong_cons ((congrArg (· != x.layout) layout).trans (bne_self_eq_false _)) rfl)
    have free : decide (64 ≤ (s.mbTake mb c).anchors (operand c.desc 1 1) (descHandle c.desc)) = false :=
      decide_eq_false (Nat.not_le.2 room)
    refine ⟨fun rests => ?_, fun steps => ?_⟩
    · change execAnchorSet mb s = _
      refine mbRun_now begins ?_
      simp only [there]
      refine (unlessBad_none passes rfl _).trans ?_
      simp only [on, free, listed, rests, Bool.and_false, Bool.false_eq_true, if_false, beq_self_eq_true, if_true]
    · change execAnchorSet mb s = _
      refine mbRun_later begins ?_
      simp only [there]
      refine (unlessBad_none passes rfl _).trans ?_
      simp only [on, free, listed, steps, Bool.and_false, Bool.false_eq_true, if_false, beq_self_eq_true, if_true]
  · change execLeaseStage pen ring s = _
    have named : (s.ringTake e).noFlockFor x (operand e.desc 0 1) = false := by
      simp only [State.noFlockFor, flock, layout, bne_self_eq_false]
    have rests : (decide (x.state = .opened) || decide (x.state = .running) || decide (x.state = .faulted)) = false := by
      obtain at_ | at_ | at_ := state <;> rw [at_] <;> rfl
    refine ringRun_now begins ?_
    simp only [there, named, rests, Bool.false_eq_true, if_false]

/-! ### The fabric -/

/-- Settles O27. -/
theorem fabricCommandsComplete : Obligations.FabricCommandsComplete := by
  unfold Obligations.FabricCommandsComplete
  intro mb s c map
  dsimp only
  refine ⟨fun begins inRange other empty => ?_, fun begins inRange other nonempty distinct ports known => ?_,
    fun begins newer whole short good => ?_, fun begins => ⟨fun solo => ?_, fun inRange other new => ?_⟩,
    fun begins partner => ?_⟩
  · change execRouteSet mb s = _
    refine mbRun_now begins ?_
    dsimp only
    rw [empty, unlessBad_none (badAmong_cons ?_ (badAmong_cons ?_ rfl)) rfl]
    · rfl
    · rw [decide_eq_false (Nat.not_lt.2 inRange)]
      exact beq_eq_false_iff_ne.2 other
    · rfl
  · change execRouteSet mb s = _
    refine mbRun_now begins ?_
    dsimp only
    rw [unlessBad_none (badAmong_cons ?_ (badAmong_cons ?_ rfl)) rfl, if_neg (by simpa using nonempty), assocHas, known,
      if_pos rfl]
    · rw [decide_eq_false (Nat.not_lt.2 inRange)]
      exact beq_eq_false_iff_ne.2 other
    · rw [distinct, Bool.false_or, List.any_eq_false]
      intro p listed
      rw [decide_eq_true_eq]
      exact Nat.not_le.2 (ports p listed)
  · change execCompositionSet mb map s = _
    refine mbRun_now begins ?_
    dsimp only
    rw [unlessBad_none (badAmong_cons (decide_eq_false (Nat.not_le.2 newer)) (badAmong_cons ?_ rfl)) (badAmong_cons good rfl)]
    rw [whole, decide_eq_false (Nat.not_lt.2 short)]
    rfl
  · change execLedgerPartnerSet mb s = _
    refine mbRun_now begins ?_
    dsimp only
    rw [if_pos solo]
  · change execLedgerPartnerSet mb s = _
    refine mbRun_now begins ?_
    dsimp only
    rw [if_neg (by omega), decide_eq_false (Nat.not_lt.2 inRange), decide_eq_false other,
      Bool.or_false, if_neg Bool.false_ne_true, if_neg new]
  · change execNodeDown mb s = _
    refine mbRun_now begins ?_
    rw [if_pos partner]

/-! ### The Ledger and the Harvest -/

/-- Settles O28. -/
theorem ledgerAndHarvestComplete : Obligations.LedgerAndHarvestComplete := by
  unfold Obligations.LedgerAndHarvestComplete
  refine ⟨fun mb s c name part0 certOk => ?_, fun h s => ⟨fun may => ?_, ?_, ?_, fun t0 fence drained => ?_⟩⟩
  · dsimp only
    intro gateway noCheckpoint noRestore len nonempty
    have notEmpty : (operand c.desc 16 4 == 0) = false := by
      rw [← len]
      exact beq_eq_false_iff_ne.2 fun zero => nonempty (List.eq_nil_of_length_eq_zero zero)
    have whole : name.take (operand c.desc 16 4) = name := by rw [← len, List.take_length]
    have padded : name ++ List.replicate (operand c.desc 16 4 - name.length) 0 = name := by
      rw [← len, Nat.sub_self, List.replicate_zero, List.append_nil]
    refine ⟨fun begins short => ?_, fun begins short genuine node serial noSession noEntry => ?_⟩
    · change execCheckpoint mb name s = _
      refine mbRun_now begins ?_
      dsimp only
      rw [unlessBad_none (badAmong_cons (by rw [gateway]; rfl) (badAmong_cons ?_ rfl)) rfl, whole, padded, noCheckpoint,
        noRestore]
      · rfl
      · rw [notEmpty, ← len, decide_eq_false (Nat.not_lt.2 short)]
        rfl
    · change execRestore mb name part0 certOk s = _
      have ours : ((parsePart0 part0).node != (s.mbTake mb c).node
          || (parsePart0 part0).serial != 0 && (parsePart0 part0).serial != Config.serial.toNat) = false := by
        rw [node, bne_self_eq_false, Bool.false_or]
        obtain zero | own := serial
        · rw [zero]
          rfl
        · rw [own, bne_self_eq_false, Bool.and_false]
      refine mbRun_now begins ?_
      dsimp only
      rw [unlessBad_none (badAmong_cons (by rw [gateway]; rfl) (badAmong_cons ?_ rfl)) rfl, whole, noCheckpoint, noRestore]
      · simp only [genuine, ours, noSession, noEntry, Option.isSome_none, Bool.or_self, Bool.false_eq_true, if_false,
          List.isEmpty_nil, Bool.not_true]
      · rw [notEmpty, ← len, decide_eq_false (Nat.not_lt.2 short)]
        rfl
  · change execLedgerCommit h s = _
    rw [execLedgerCommit, if_pos may]
  · rfl
  · have partner : (s.at_ (s.clock.partnerRetry + 2 ^ 26)).partner = s.partner := rfl
    refine ⟨fun quiet => ?_, fun idle => ⟨fun new => ?_, fun n settled named => ?_⟩⟩
    · change execPartnerRetry s = _
      simp only [execPartnerRetry, partner]
      obtain syncing | ⟨none_, alone⟩ := quiet
      · rw [if_pos syncing]
      · rw [none_, alone, ite_self]
    · change execPartnerRetry s = _
      obtain ⟨x, pending⟩ := Option.isSome_iff_exists.1 new
      simp only [execPartnerRetry, partner, idle, pending, Bool.false_eq_true, if_false]
    · change execPartnerRetry s = _
      simp only [execPartnerRetry, partner, idle, settled, named, Bool.false_eq_true, if_false]
      split <;> rfl
  · change execDrainFenceEnd s = _
    simp only [execDrainFenceEnd, fence, drained, Bool.false_eq_true, if_false]
    rfl

/-! ### Firmware -/

/-- Settles O29. -/
theorem firmwareCompletes : Obligations.FirmwareCompletes := by
  unfold Obligations.FirmwareCompletes
  intro mb s c image i blown t0
  dsimp only
  refine ⟨fun begins none_ => ?_, fun begins none_ staged allowed => ?_, fun live active inTime => ?_, fun live => ?_,
    fun writing => ⟨?_, ?_⟩⟩
  · change execFwStage mb image true s = _
    have done : s.stillWriting mb image true = false := by simp only [State.stillWriting, Bool.not_true, Bool.false_and]
    rw [execFwStage, done, if_neg Bool.false_ne_true, mbRun_begins begins]
    simp only [none_, Option.isSome_none, Bool.false_eq_true, if_false]
    cases checkImage (s.mbTake mb c).security.rollback (operand c.desc 8 4) (stagedBytes c.desc image) <;> rfl
  · change execFwActivate mb s = _
    refine mbRun_now begins ?_
    simp only [none_, staged, decide_eq_false (Nat.not_lt.2 allowed), Option.isSome_none, Bool.false_eq_true, if_false]
  · change execLiveUpdateDone blown s = _
    simp only [execLiveUpdateDone, live, active, if_neg (Nat.not_lt.2 inTime)]
  · change execLiveUpdateAbandon s = _
    simp only [execLiveUpdateAbandon, live]
  · change execWatchmanImageWritten true s = _
    simp only [execWatchmanImageWritten, writing, if_true]
  · change execWatchmanImageWritten false s = _
    simp only [execWatchmanImageWritten, writing, Bool.false_eq_true, if_false]

/-! ### Power and counters -/

/-- The power limits with new ones in force (R375). -/
def limitsTaken (h : Hearth) (sustained burst : Nat) : Hearth :=
  let taken := { h with sustained := sustained, burst := burst, limitsApplied := true }
  { taken with store := if h.limitsApplied then min taken.store taken.capacity else taken.capacity }

/-- Settles O30. -/
theorem powerAndCountersComplete : Obligations.PowerAndCountersComplete := by
  unfold Obligations.PowerAndCountersComplete
  intro mb s c
  dsimp only
  refine ⟨fun begins sustainedLow sustainedHigh burstLow burstHigh floors => ?_,
    fun begins q there keep fits some_ => ?_, ?_⟩
  · have passes : badAmong [(16, decide (operand c.desc 0 2 < 600) || decide (1400 < operand c.desc 0 2)
          || decide ((operand c.desc 0 2 - 400) * 1000 < ((s.mbTake mb c).pens.map fun q => q.2.cfg.energyFloor).sum)),
        (18, decide (operand c.desc 2 2 < operand c.desc 0 2) || decide (1650 < operand c.desc 2 2))] = none := by
      rw [decide_eq_false (Nat.not_lt.2 sustainedLow), decide_eq_false (Nat.not_lt.2 sustainedHigh),
        decide_eq_false (Nat.not_lt.2 floors), decide_eq_false (Nat.not_lt.2 burstLow),
        decide_eq_false (Nat.not_lt.2 burstHigh)]
      rfl
    refine ⟨limitsTaken (s.mbTake mb c).hearth (operand c.desc 0 2) (operand c.desc 2 2), ?_, rfl, rfl, rfl, ?_, ?_⟩
    · change execPowerLimitSet mb s = _
      refine mbRun_now begins ?_
      dsimp only
      rw [unlessBad_none passes rfl]
      rfl
    · rw [mbTake_hearth]
      rfl
    · rw [mbTake_hearth]
      rfl
  · change execCountersRead mb s = _
    refine mbRun_now begins ?_
    dsimp only
    rw [withPen_some there, unlessBad_none (badAmong_cons (by rw [keep]; rfl) rfl) rfl, if_neg (by omega),
      if_neg (Nat.not_lt.2 fits), keep, if_neg (by decide)]
  · change ∃ t, execOverrunWindow s = .next t ∧ _
    simp only [execOverrunWindow]
    split
    · refine ⟨_, rfl, ?_⟩
      rw [(raise_crierOnly _ _ _ _ _).rest]
      exact ⟨rfl, rfl, rfl, rfl⟩
    · exact ⟨_, rfl, rfl, rfl, rfl, rfl⟩

/-! ### Vector indexes -/

/-- What a commit numbered `seq` makes of its index at cycle `now` (R203). -/
def committedIndex (now p id seq : Nat) (x : Index) : Index :=
  ({ x with commitSeq := seq, versions := x.pending.foldl (x.apply p id seq) x.versions, pending := []
            waiting := some (x.waiting.getD now) }).checkCompact

theorem committedIndex_fields (now p id seq : Nat) (x : Index) :
    (committedIndex now p id seq x).commitSeq = seq ∧ (committedIndex now p id seq x).pending = []
      ∧ (committedIndex now p id seq x).params = x.params
      ∧ (committedIndex now p id seq x).versions = x.pending.foldl (x.apply p id seq) x.versions := by
  unfold committedIndex Index.checkCompact
  split <;> exact ⟨rfl, rfl, rfl, rfl⟩

/-- Settles O31. -/
theorem indexesComplete : Obligations.IndexesComplete := by
  unfold Obligations.IndexesComplete
  refine ⟨fun mb s c p id x t0 => ⟨fun begins q there absent checks room total => ?_, fun begins there index => ?_,
    fun there waits idle => ?_⟩, fun pen ring s c recs x => ⟨fun there count => ⟨fun begins none_ => ?_,
      fun begins clean side some_ => ?_, fun begins clean => ?_⟩, fun begins there => ⟨fun none_ => ?_, fun some_ bound => ?_⟩,
      fun begins snap gen n there snapshot checks => ⟨fun empty => ?_, fun k strips => ?_⟩⟩⟩
  · change execIndexCreate mb s = _
    refine mbRun_now begins ?_
    dsimp only
    rw [withPen_some there, unlessBad_none (badAmong_cons (by rw [assocHas, absent]; rfl) checks) rfl,
      decide_eq_false (Nat.not_le.2 room), decide_eq_false (Nat.not_le.2 total)]
    rfl
  · change execIndexDestroy mb s = _
    obtain ⟨q, here⟩ := Option.isSome_iff_exists.1 there
    refine mbRun_later begins ?_
    dsimp only
    rw [withPen_some here, unlessBad_none (badAmong_cons (Option.isNone_eq_false_iff.2 index) rfl) rfl, mbTake_clock]
  · change execCompactionTimer p id s = _
    simp only [execCompactionTimer, there, waits, idle, Bool.false_eq_true, if_false]
  · change execIndexInsert pen ring recs s = _
    refine ringRun_now begins ?_
    have noRecord (m : Nat) : batchRecords m 0 recs = [] := rfl
    simp only [there, none_, noRecord, List.any_nil, decide_false, Nat.lt_irrefl, Nat.not_lt_zero, Bool.false_and,
      Bool.false_eq_true, if_false, if_true]
  · change execIndexInsert pen ring recs s = _
    have sideFits : (decide (0 < operand c.desc 16 4) && decide (2 ^ 24 < x.sideCount + operand c.desc 16 4)) = false := by
      rw [decide_eq_false (Nat.not_lt.2 side), Bool.and_false]
    rw [execIndexInsert, ringRun_begins begins]
    simp only [there, if_neg (Nat.not_lt.2 count), clean, sideFits, if_neg some_, Bool.false_eq_true, if_false]
    by_cases fits : (s.ringTake c).used pen .t1 + operand c.desc 16 4 * Config.sideEntryBytes x.params.toNat
          ≤ (s.ringTake c).quota pen .t1 ∧ (s.ringTake c).versionCount + operand c.desc 16 4 ≤ 2 ^ 36
    · rw [if_pos fits, if_neg]
      · rfl
      · simp only [Bool.or_eq_true, decide_eq_true_eq]
        omega
    · rw [if_neg fits, if_pos]
      · rfl
      · simp only [Bool.or_eq_true, decide_eq_true_eq]
        omega
  · change execIndexDelete pen ring recs s = _
    refine ringRun_now begins ?_
    simp only [there, clean, if_neg (Nat.not_lt.2 count), Bool.false_eq_true, if_false]
  · change execIndexCommit pen ring s = _
    refine ringRun_now begins ?_
    simp only [there, none_, List.isEmpty_nil, if_true]
  · refine ⟨committedIndex s.clock.now pen (operand c.desc 0 4) (x.commitSeq + 1), ?_, committedIndex_fields _ _ _ _⟩
    change execIndexCommit pen ring s = _
    refine ringRun_now begins ?_
    simp only [there, List.isEmpty_eq_false_iff.2 some_, if_neg (Nat.not_le.2 bound), Bool.false_eq_true, if_false]
    rfl
  · change execSearch pen ring recs s = _
    refine ringRun_now begins ?_
    have none_ := Bool.or_eq_true_iff.2 (empty.imp decide_eq_true decide_eq_true)
    simp only [there, snapshot, Option.isNone_some, Bool.or_self, checks, none_, if_true]
  · change execSearch pen ring recs s = _
    refine ringRun_later begins ?_
    simp only [there, snapshot, Option.isNone_some, Bool.or_self, checks, decide_eq_false k, decide_eq_false strips,
      Bool.false_eq_true, if_false]

end Sys2Proof.Proofs
end

section
/-!
SUPPORT. The completion statements of the ring commands over sessions and text (O32 to O34).
-/
namespace Sys2Proof.Proofs
open Sys2Proof.Machine Sys2Proof.Safety Sys2Proof.Laws

/-- The command that a unit begins came from the ring. -/
theorem pen_of_unitBegins {s : State} {p k op : Nat} {c : RingCmd} (begins : unitBegins s p k op c) : c.pen = p := by
  have found := List.find?_some begins.1
  simp only [Bool.and_eq_true, beq_iff_eq] at found
  exact found.1.1

/-- A command of a session not offered away that finishes at once. -/
theorem ringRunHome_now {s t : State} {p k op : Nat} {c : RingCmd} {body : State → RingCmd → RingDone} {r : Reply}
    (begins : unitBegins s p k op c) (home : notOffered s c) (meant : body (s.ringTake c) c = .now t r) :
    ringRunHome s p k op body = .next (t.complete c r) := by
  rw [ringRunHome_begins begins home, meant]
  rfl

/-- A command of a session not offered away that answers later. -/
theorem ringRunHome_later {s t : State} {p k op : Nat} {c : RingCmd} {body : State → RingCmd → RingDone}
    (begins : unitBegins s p k op c) (home : notOffered s c) (meant : body (s.ringTake c) c = .later t) :
    ringRunHome s p k op body = .next t := by
  rw [ringRunHome_begins begins home, meant]
  rfl

/-! ### The life of a session -/

theorem forkInTurn_now {s : State} {c : RingCmd} {x : Session} (sound : x.state ≠ .faulted) (rests : x.state ≠ .running)
    (here : x.inHandover = false) (settled : x.region.waiting = []) (now : RingDone) :
    s.forkInTurn c x false now = now := by
  simp only [State.forkInTurn, if_neg sound, if_neg rests, here, settled, List.isEmpty_nil, Bool.or_true,
    Bool.false_eq_true, if_false, if_true]

theorem openFork_issued {s v : State} {c : RingCmd} {x : Session} {sampler : Sampler} {lc isPrefix : Bool} {hd : Handle}
    (allowed : forkRefusal s c.pen x = none) (issued : s.issue c.pen isPrefix = some (hd, v)) :
    s.openFork c x sampler lc isPrefix = .later (v.fork (descHandle c.desc) hd sampler lc isPrefix c) := by
  simp only [State.openFork, allowed, issued]

/-- Settles O32. -/
theorem sessionLifeCompletes : Obligations.SessionLifeCompletes := by
  unfold Obligations.SessionLifeCompletes
  intro pen ring s c
  dsimp only
  refine ⟨fun begins q hd v there running passes fresh room ledger t1 issued => ?_,
    fun begins own q x hd v there running passes parent sound rests here settled allowed issued => ?_,
    fun begins x hd v parent own => ⟨fun sound rests here settled allowed issued => ?_, fun runs => ?_,
      fun sound rests here waits => ?_⟩, fun begins home x there => ⟨?_, fun w y output kept live => ?_⟩⟩
  · change execSessionOpen pen ring s = _
    obtain rfl := pen_of_unitBegins begins
    refine ringRun_later begins ?_
    simp only [there, running, passes, fresh, State.openEmpty, room, ledger, t1, issued, Bool.false_eq_true, if_false]
  · change execSessionOpen pen ring s = _
    subst own
    refine ringRun_later begins ?_
    simp only [there, running, passes, parent, Bool.false_eq_true, if_false]
    rw [forkInTurn_now sound rests here settled]
    simp only [State.openPrefix, there, parent, passes]
    exact openFork_issued allowed issued
  · change execSessionFork pen ring s = _
    subst own
    refine ringRun_later begins ?_
    simp only [parent]
    rw [forkInTurn_now sound rests here settled]
    simp only [State.forkNow, parent]
    exact openFork_issued allowed issued
  · change execSessionFork pen ring s = _
    refine ringRun_later begins ?_
    simp only [parent, State.forkInTurn, runs, if_true]
    rfl
  · change execSessionFork pen ring s = _
    refine ringRun_later begins ?_
    simp only [parent, State.forkInTurn, if_neg sound, if_neg rests, here, List.isEmpty_eq_false_iff.2 waits, Bool.or_self,
      Bool.false_eq_true, if_false]
  · change execSessionClose pen ring s = _
    refine ringRunHome_later begins home ?_
    simp only [there]
    split <;> rfl
  · subst output
    simp only [State.closeNow, kept, if_neg live, List.isEmpty_iff]

/-- Settles O33. -/
theorem sessionStatesComplete : Obligations.SessionStatesComplete := by
  unfold Obligations.SessionStatesComplete
  intro pen ring s c x
  dsimp only
  refine ⟨fun there home => ⟨fun begins => ⟨fun rests runnable => ?_, fun runs => ?_, fun rests parked => ?_⟩,
      fun begins plain => ⟨fun parked host => ?_, fun parked other => ?_, fun goes => ?_⟩, fun begins q l pen_ layout passes => ?_⟩,
    fun begins => ⟨fun record there => ?_, fun e entry there => ?_⟩⟩
  · change execSessionPark pen ring s = _
    refine ringRunHome_later begins home ?_
    simp only [there, if_neg rests, State.parkNow, runnable]
  · change execSessionPark pen ring s = _
    refine ringRunHome_later begins home ?_
    simp only [there, if_pos runs]
  · change execSessionPark pen ring s = _
    refine ringRunHome_now begins home ?_
    simp only [there, if_neg rests, State.parkNow, parked]
  · change execSessionResume pen ring s = _
    refine ringRunHome_later begins home ?_
    simp only [there, plain, parked, host, Bool.false_eq_true, if_false, if_true]
  · change execSessionResume pen ring s = _
    refine ringRunHome_now begins home ?_
    simp only [there, plain, parked, other, Bool.false_eq_true, if_false]
  · change execSessionResume pen ring s = _
    refine ringRunHome_now begins home ?_
    obtain state | state := goes <;> simp only [there, plain, state, Bool.false_eq_true, if_false]
  · change execSessionConfig pen ring s = _
    refine ringRunHome_later begins home ?_
    simp only [there, pen_, layout, passes]
  · change execSessionQuery pen ring s = _
    refine ringRun_now begins ?_
    simp only [record, there, Bool.false_eq_true, if_false]
  · change execSessionQuery pen ring s = _
    refine ringRun_now begins ?_
    simp only [entry, there, if_true]

/-! ### Text -/

/-- Settles O34. -/
theorem textCommandsComplete : Obligations.TextCommandsComplete := by
  unfold Obligations.TextCommandsComplete
  intro pen ring s c src x l
  dsimp only
  intro there layout
  refine ⟨fun begins home ledger passes some_ same short held grows => ?_,
    fun begins home ledger some_ short checks ids held nonempty grows => ?_, fun begins length some_ stays => ?_⟩
  · change execAppendText pen ring src s = _
    refine ringRunHome_later begins home ?_
    simp only [there, layout, passes]
    generalize x.stream? (operand c.desc 14 1) = open_ at some_ same short held grows ⊢
    generalize (authorOf (operand c.desc 13 1)).getD Author.user = author at same short held grows ⊢
    generalize open_.getD { segment := operand c.desc 12 1, author := author } = old at short held grows ⊢
    generalize tokenize _ _ _ _ _ _ _ = t at short held grows ⊢
    have work : (decide (operand c.desc 8 4 = 0) && (!descFlag c.desc 24 || open_.isNone)) = false := by
      obtain len | ⟨fin, opened⟩ := some_
      · rw [decide_eq_false len, Bool.false_and]
      · rw [fin, Option.isNone_eq_false_iff.2 opened]
        exact Bool.and_false _
    have fits : (decide (4194304 < (old.staged ++ t.staged).length) || descFlag c.desc 24
        && decide (2 ^ 27 < x.region.heldTokens x.positions + (old.staged ++ t.staged).length)) = false :=
      Bool.or_eq_false_iff.2 ⟨decide_eq_false (Nat.not_lt.2 short),
        Bool.and_eq_false_imp.2 fun fin => decide_eq_false (Nat.not_lt.2 (held fin))⟩
    rw [work, if_neg Bool.false_ne_true, if_neg, if_neg, fits, if_neg Bool.false_ne_true, ledger, if_neg Bool.false_ne_true]
    · simp only [Bool.not_eq_true', List.isEmpty_iff, grows]
    · cases open_ with
      | none => exact Bool.false_ne_true
      | some o => simp [(same o rfl).2]
    · cases open_ with
      | none => exact Bool.false_ne_true
      | some o => simp [(same o rfl).1]
  · change execAppendTokens pen ring src s = _
    refine ringRunHome_later begins home ?_
    simp only [there, layout, if_neg (Nat.not_lt.2 short), badFirst, checks, badAmong_cons_false, ids, if_neg some_,
      if_neg (Nat.not_lt.2 held), ledger, List.isEmpty_iff, if_neg nonempty, grows, Bool.false_eq_true, if_false]
    rfl
  · change execOutputPost pen ring s = _
    refine ringRun_later begins ?_
    simp only [there, layout, length, if_neg some_, stays, Bool.false_eq_true, if_false]

end Sys2Proof.Proofs
end

section
/-!
SUPPORT. The completion statements of flocks, steps and moves (O35 to O37).
-/
namespace Sys2Proof.Proofs
open Sys2Proof.Machine Sys2Proof.Safety Sys2Proof.Laws

/-! ### Steps -/

/-- A boundary that waits for its commits stays where it is (R456). -/
theorem boundary_waits {s : State} {f : Nat} {l : Layout} {k : Flock} {r : StepRun} (listed : assocGet f s.flocks = some k)
    (runs : k.run = some r) (phase : r.phase = .tokens ∨ r.phase = .changed)
    (owed : (s.commitOwed r.owed).groupsWait r.owed = true) (n : Nat) : s.boundary f l (n + 1) = s.commitOwed r.owed := by
  obtain at_ | at_ := phase <;> simp only [State.boundary, listed, runs, at_, owed, if_true]

/-- A snapshot that may come takes itself, and delivers its plan where no step runs. -/
theorem snapshot_comes {f at_ : Nat} {table : List LayerTiming} {s t : State} {k : Flock} {deliver : Bool}
    (inRange : f < 8) (listed : assocGet f s.flocks = some k) (goesOn : k.stopped = false) (stays : k.destroying = none)
    (noNext : k.next = none) (noDelivered : k.delivered = none)
    (when_ : (∃ r, k.run = some r ∧ r.built = false ∧ r.truncating = false ∧ deliver = false
        ∧ at_ = r.go + r.plan.period - 1024 * k.params.planLead)
      ∨ (k.run = none ∧ k.params.enable = true ∧ s.flockUp k = true ∧ deliver = true ∧ at_ = nextMultiple 1024 s.clock.now
        ∧ (s.sessions.any fun x => candidate f k x.2 && !s.claimedElsewhere f x.1) = true))
    (taken : (s.at_ at_).takeSnapshot f table = some t) : exec (.snapshot f table) s
      = .next (if deliver then (t.modFlock f fun k => { k with goAt := 0 }).deliverPlan f else t) := by
  have notOut : ¬8 ≤ f := Nat.not_le.2 inRange
  change execSnapshot f table s = _
  obtain ⟨r, runs, notBuilt, noCut, rfl, rfl⟩ | ⟨rests, enabled, up, rfl, rfl, planned⟩ := when_
  · simp only [execSnapshot, if_neg notOut, listed, goesOn, stays, noNext, noDelivered, runs, notBuilt, noCut, taken,
      Option.isSome_none, Bool.or_self, Bool.false_eq_true, if_false]
  · simp only [execSnapshot, if_neg notOut, listed, goesOn, stays, noNext, noDelivered, rests, enabled, up, planned, taken,
      Option.isSome_none, Bool.or_self, Bool.and_self, Bool.false_eq_true, if_false, if_true]

/-- Settles O35. -/
theorem stepsComplete : Obligations.StepsComplete := by
  unfold Obligations.StepsComplete
  intro f table s k inRange listed
  have notOut : ¬8 ≤ f := Nat.not_le.2 inRange
  refine ⟨fun goesOn stays noNext noDelivered at_ deliver when => ?_, fun p t0 next delivered => ?_,
    fun r l runs layout ready => ⟨?_, fun phase owed => boundary_waits listed runs phase owed 3⟩⟩
  · have comes {t : State} := snapshot_comes (t := t) (table := table) inRange listed goesOn stays noNext noDelivered when
    dsimp only
    intro k1 here
    refine ⟨fun disabled => comes ?_, fun l enabled layout good => ⟨fun empty rests => comes ?_, fun work timed => comes ?_⟩⟩
    · simp only [State.takeSnapshot, here, disabled, Bool.not_false, if_true]
    · simp only [State.takeSnapshot, here, enabled, layout, good, empty, rests, List.isEmpty_nil, Option.isNone_none,
        Bool.not_true, Bool.false_and, Bool.and_self, Bool.false_eq_true, if_false, if_true]
    · by_cases empty : (((s.at_ at_).applyPending f).buildPlan f (8 * (k1.planCount + 1) + f) k1 l table).1.entries = []
      · have runs : k1.run.isNone = false := by
          rw [Option.isNone_eq_false_iff, Option.isSome_iff_ne_none]
          exact work empty
        simp only [State.takeSnapshot, here, enabled, layout, good, empty, runs, List.isEmpty_nil, Bool.not_true,
          Bool.false_and, Bool.and_false, Bool.false_eq_true, if_false, if_true]
      · simp only [State.takeSnapshot, here, enabled, layout, good, timed empty, List.isEmpty_eq_false_iff.2 empty, if_neg empty,
          Bool.not_true, Bool.and_false, Bool.false_and, Bool.false_eq_true, if_false]
  · change execGo f s = _
    simp only [execGo, if_neg notOut, listed, next, delivered] <;> rfl
  · change execStepBoundary f s = _
    simp only [execStepBoundary, if_neg notOut, listed, runs, layout]
    by_cases running : r.phase = .running
    · obtain begun | ⟨done, noStall, noCut, goesOn⟩ := ready
      · exact absurd running begun
      · have built : (r.built || k.destroying.isSome) = true := Bool.or_eq_true_iff.2 goesOn
        simp only [running, bne_self_eq_false, done, noStall, noCut, built, Option.isNone_none, Bool.and_false, Bool.and_self,
          Bool.false_eq_true, if_false, if_true]
    · rw [if_pos (bne_iff_ne.2 running)]

/-! ### Deadlines -/

/-- Settles O36. -/
theorem stepDeadlinesComplete : Obligations.StepDeadlinesComplete := by
  unfold Obligations.StepDeadlinesComplete
  intro f i ly d fits s k inRange listed
  have notOut : ¬8 ≤ f := Nat.not_le.2 inRange
  refine ⟨fun r e x l runs entry session layout inLayers noStall noCut seated stream => ?_, fun r runs open_ => ?_,
    fun r j d0 t0 runs stall => ?_, fun t0 p ps n delivered next => ?_⟩
  · have bound : decide (l.layers ≤ ly) = false := decide_eq_false (Nat.not_le.2 inLayers)
    have waits : (d == .stream && (e.fallback.contains ly || s.earlierLate f i ly l r)) = false := by
      refine Bool.and_eq_false_imp.2 fun isStream => ?_
      obtain ⟨noFallback, first⟩ := stream (beq_iff_eq.1 isStream)
      rw [noFallback, first]
      rfl
    have run : exec (.dueCheck f i ly d fits) s = .next (
        let u := s.at_ (r.go + dueOffset r ly d)
        if u.arrived f e x l ly d then u else u.onDue f i ly l r e x d fits) := by
      change execDueCheck f i ly d fits s = _
      simp only [execDueCheck, if_neg notOut, runs, entry, session, layout, noStall, bound, noCut, seated, waits,
        Option.isSome_none, Bool.or_self, Bool.false_and, Bool.false_eq_true, if_false]
      split <;> rfl
    dsimp only
    rw [run]
    refine ⟨fun arrived => ?_, fun missing anchored below => ?_, fun missing plain noStream => ?_⟩
    · simp only [arrived, if_true]
    · have some_ : decide (0 < r.plan.stallMax) = true := decide_eq_true (by omega)
      simp only [missing, State.onDue, anchored, some_, decide_eq_true below, Bool.and_self, Bool.false_eq_true, if_false, if_true]
    · simp only [missing, State.onDue, plain, decide_eq_false noStream, Bool.false_and, Bool.false_eq_true, if_false]
  · change execStepAbandon f s = _
    simp only [execStepAbandon, if_neg notOut, listed, runs, open_, Bool.false_eq_true, if_false]
  · change execAnchorTimeout f s = _
    simp only [execAnchorTimeout, if_neg notOut, runs, stall]
  · change execPlanAckTimeout f s = _
    simp only [execPlanAckTimeout, if_neg notOut, listed, delivered, next]

/-! ### Moves -/

/-- Whether an entry of the service plan is a scan. -/
def isScan : ServiceEntry → Bool
  | .scan .. => true
  | _ => false

/-- A step of the service plan after its upkeep, with the entries that `scans` takes counted as scans. -/
def servicePlanOf (scans : ServiceEntry → Bool) (u : State) : Out :=
  let entries := u.serviceEntries
  let fixed := Config.fixedPrice 0 (entries.filter scans).length (u.wakesFor (entries.flatMap serviceDomains).eraseDups)
  let g := u.grant serviceKey (2 ^ 15) 512 (fixed + (entries.map u.servicePrice).sum) fixed
  .next (if g.2.hearth.truncated then g.2.tryEndStalls else (g.2.serviceWork (g.1 - fixed)).tryEndStalls)

/-- The service plan's upkeep, 2^15 cycles after its last step. -/
def servicePlanDue (s : State) : State :=
  let due := s.clock.serviceStep + 2 ^ 15
  ({ s.at_ due with clock := { (s.at_ due).clock with serviceStep := due } }).serviceUpkeep

/-- The service plan's step in two parts: its upkeep, and its entries' work within the grant. -/
theorem execServicePlanStep_eq (s : State) : execServicePlanStep s = servicePlanOf isScan (servicePlanDue s) := by
  unfold execServicePlanStep
  extract_lets _ s1 _ u entries scans fixed request g
  have same : scans = isScan := by
    funext e
    cases e <;> rfl
  have upkept : servicePlanDue s = u := rfl
  rw [upkept]
  clear_value u scans
  subst same
  exact (apply_ite Host.Outcome.next _ _ _).symm

/-- Only what counts as a scan matters, not how it is told. -/
theorem servicePlanOf_congr {p q : ServiceEntry → Bool} (same : ∀ e, p e = q e) (u : State) :
    servicePlanOf p u = servicePlanOf q u := by
  rw [funext same]

/-- Settles O37. -/
theorem movesComplete : Obligations.MovesComplete := by
  unfold Obligations.MovesComplete
  intro s mv drover m h
  refine ⟨?_, fun found => ⟨fun inRange queued here may planned free lets => ?_, fun copying quiet => ?_,
    fun freeing unread => ?_⟩, fun x there parked tier quota => ?_⟩
  · intro due u entries fixed g
    change execServicePlanStep s = _
    have runs : execServicePlanStep s = servicePlanOf isScan u := execServicePlanStep_eq s
    rw [runs]
    clear_value u
    exact servicePlanOf_congr (fun e => by cases e <;> rfl) u
  · have refused : (m.state != .queued || !s.recovery.drovers.contains drover || !s.mayStart m || !s.movePlanned m
        || (s.moves.any fun q => q.state == .copying && q.drover == some drover)
        || (s.hearth.truncated && m.forPlan.isNone)) = false := by
      have cut : (s.hearth.truncated && m.forPlan.isNone) = false := by
        obtain whole | planned := lets
        · rw [whole, Bool.false_and]
        · rw [Option.isNone_eq_false_iff.2 planned, Bool.and_false]
      rw [queued, here, may, planned, free, cut]
      rfl
    refine ⟨fun runs => ?_, fun sleeps => ?_⟩
    · change execMoveStart mv drover s = _
      simp only [execMoveStart, if_neg (Nat.not_le.2 inRange), found, refused, runs, Bool.not_true, Bool.false_eq_true, if_false]
    · change execMoveStart mv drover s = _
      simp only [execMoveStart, if_neg (Nat.not_le.2 inRange), found, refused, sleeps, Bool.not_false, Bool.false_eq_true,
        if_false, if_true]
  · have ends (how : PassEnd) : exec (.moveWriteDone mv how) s
        = .next (((s.passEnd m how).demote (s.movePen m.subject)).tryEndStalls) := by
      change execMoveWriteDone mv how s = _
      simp only [execMoveWriteDone, found, copying, quiet, beq_self_eq_true, Bool.and_self, if_true]
    exact ⟨ends .ok, fun place => ends (.sourceTagFail place), ends .writeFail, ends .readBackFail⟩
  · change execMoveFree mv s = _
    have done : (m.state != .freeing || (m.src == .t1 && (s.subjectSheaves m.subject).any s.oxReads)) = false := by
      rw [freeing, bne_self_eq_false, Bool.false_or]
      exact Bool.and_eq_false_imp.2 fun t1 => unread (beq_iff_eq.1 t1)
    simp only [execMoveFree, found, done, Bool.false_eq_true, if_false]
  · change execParkedDemote h s = _
    simp only [execParkedDemote, there, parked, tier, decide_eq_true quota, decide_true, Bool.and_self, if_true]

end Sys2Proof.Proofs
end

section
/-!
SUPPORT. The completion statements of the Step Link's messages, the links and the census (O38 to O43): the carrier's law, then
the branch that the hypotheses choose.
-/
namespace Sys2Proof.Proofs
open Sys2Proof.Machine Sys2Proof.Safety Sys2Proof.Laws

/-! ### Messages -/

/-- Settles O38. -/
theorem leaseMessagesComplete : Obligations.LeaseMessagesComplete := by
  unfold Obligations.LeaseMessagesComplete
  intro p m s f k l n t0 id ps
  refine ⟨fun takes flock delivered next same => ?_, fun takes flock lease => ⟨fun grant => ?_, fun extend => ?_⟩,
    fun takes flock lease cancelled => ?_, fun inRange flock lease reclaims free => ?_, fun takes => ?_⟩
  · change execPlanAck p m s = _
    rw [execPlanAck, slReceive_takes takes]
    simp only [flock, delivered, next, same, if_true]
  · change execLeaseAck p m s = _
    rw [execLeaseAck, slReceive_takes takes]
    simp only [flock, lease, Option.bind_some, Option.map_some, grant, if_true]
  · change execLeaseAck p m s = _
    rw [execLeaseAck, slReceive_takes takes]
    simp only [flock, lease, Option.bind_some, Option.map_some, extend, if_true, Bool.and_eq_true, decide_eq_true_eq,
      List.isEmpty_iff]
    rfl
  · change execReclaimed p m s = _
    rw [execReclaimed, slReceive_takes takes]
    simp only [flock, lease, Option.bind_some, Option.map_some, cancelled, if_true]
  · change execReclaimTimeout p id s = _
    simp only [execReclaimTimeout, if_neg (Nat.not_le.2 inRange), flock, lease, Option.bind_some, Option.map_some, reclaims,
      free, Bool.false_eq_true, if_false]
  · change execLanded p m s = _
    rw [execLanded, slReceive_takes takes]
    dsimp only
    generalize State.flockOf (State.modStepPort _ _ _) _ = home
    cases home <;> rfl

/-- Settles O39. -/
theorem stepMessagesComplete : Obligations.StepMessagesComplete := by
  unfold Obligations.StepMessagesComplete
  intro p m s f k r l e
  dsimp only
  refine ⟨fun takes runs layout entry seated good e1 listed => ?_, fun takes runs layout entry seated many good => ?_,
    fun x takes runs layout long entry seated session good => ?_, fun takes runs => ?_,
    fun ly tile j x t inRange runs entry session layout inLayers turn scores ready inT1 => ?_⟩
  · change execQuery p m s = _
    rw [execQuery, slReceive_takes takes, stepMessage_runs runs]
    simp only [layout, entry, seated, good, listed, Option.isSome_none, Bool.false_eq_true, if_false]
  · change execAppendData p m s = _
    rw [execAppendData, slReceive_takes takes, stepMessage_runs runs]
    simp only [layout, entry, seated, many, good, Option.isSome_none, Bool.or_self, Bool.false_eq_true, if_false]
  · change execRows p m s = _
    rw [execRows, slReceive_takes takes, stepMessage_runs runs]
    simp only [layout, entry, seated, good, session, if_neg (Nat.not_lt.2 long), Option.isSome_none, Bool.false_eq_true, if_false]
  · change execStepDone p m s = _
    rw [execStepDone, slReceive_takes takes, stepMessage_runs runs]
  · change execOxPassDone f j ly tile none s = _
    have stands : (!t.scoring && e.reuses ly && (assocGet t.ox s.recovery.lofts != some (r.plan.step, j, ly)
        || !s.recovery.oxen.contains t.ox)) = false := by
      obtain scoring | fresh | ⟨kept, here⟩ := scores
      · rw [scoring]
        rfl
      · rw [fresh, Bool.and_false, Bool.false_and]
      · rw [kept, here, bne_self_eq_false]
        exact Bool.and_false _
    simp only [execOxPassDone, if_neg (Nat.not_le.2 inRange), runs, entry, session, layout, if_neg (Nat.not_le.2 inLayers),
      turn, stands, ready, inT1, Bool.not_true, Bool.or_self, Bool.false_eq_true, if_false]
    split
    · rfl
    · split <;> rfl

/-- Settles O40. -/
theorem bringUpMessagesComplete : Obligations.BringUpMessagesComplete := by
  unfold Obligations.BringUpMessagesComplete
  intro p m grants s f k t0
  refine ⟨fun takes => ?_, fun takes => ?_, fun takes => ?_, fun takes flock => ?_, fun inRange flock waits => ?_, fun takes => ?_⟩
  · dsimp only
    intro first version role enough
    have grantsFit : ((List.range 4).any fun v => decide (grants.getD v 0 < (partnerGrants (.step p)).getD v 0)) = false := by
      simp only [List.any_eq_false, List.mem_range, decide_eq_true_eq, Nat.not_lt]
      exact enough
    change execStepLinkHello p m grants s = _
    rw [execStepLinkHello, slReceive_takes takes]
    simp only [first, version, role, grantsFit, bne_self_eq_false, Bool.false_eq_true, if_false]
  · dsimp only
    intro seen fresh
    change execSlotTable p m s = _
    rw [execSlotTable, slReceive_takes takes]
    simp only [seen, fresh, Option.isSome_none, Bool.not_true, Bool.or_self, Bool.false_eq_true, if_false]
    generalize State.flockOf (State.modStepPort _ _ _) _ = home
    cases home <;> rfl
  · dsimp only
    intro sent
    change execReady p m s = _
    rw [execReady, slReceive_takes takes]
    simp only [sent, Bool.not_true, Bool.false_eq_true, if_false]
    generalize State.flockOf (State.modStepPort _ _ _) _ = home
    cases home <;> rfl
  · change execResyncDone p m s = _
    rw [execResyncDone, slReceive_takes takes]
    simp only [flock]
  · change execResyncTimeout p s = _
    simp only [execResyncTimeout, if_neg (Nat.not_le.2 inRange), flock, Option.bind_some, waits]
  · change execStepLinkError p m s = _
    rw [execStepLinkError, slReceive_takes takes]

/-! ### Flits -/

/-- Settles O41. -/
theorem flitsComplete : Obligations.FlitsComplete := by
  unfold Obligations.FlitsComplete
  intro k h payload s exists_ up
  dsimp only
  refine ⟨fun long => ⟨?_, fun x control => ⟨fun idle empty => ?_, fun data some_ short => ?_⟩⟩,
    fun nak empty x control fresh => ?_, fun r rs replay => ?_⟩
  · change execFlit k false h payload s = _
    simp only [execFlit, exists_, up, long, bne_self_eq_false, Bool.not_true, Bool.not_false, Bool.false_and, Bool.or_self,
      Bool.false_eq_true, if_false, if_true]
  · change execFlit k true h payload s = _
    simp only [execFlit, exists_, up, long, idle, empty, control, Nat.reduceBEq, Nat.reduceEqDiff, Nat.zero_ne_one, decide_false,
      bne_self_eq_false, Bool.not_true, Bool.or_self, Bool.and_false, Bool.false_and, Bool.false_eq_true, if_false, if_true]
  · change execFlit k true h payload s = _
    have some_ : flitField h 56 8 ≠ 0 := by omega
    simp only [execFlit, exists_, up, long, data, control, decide_eq_false some_, decide_eq_false (Nat.not_lt.2 short),
      Nat.reduceBEq, Nat.reduceEqDiff, Nat.one_ne_zero, decide_false, decide_true, bne_self_eq_false, Bool.not_true, Bool.or_self,
      Bool.and_false, Bool.false_and, Bool.false_eq_true, if_false]
    split
    · rfl
    · split <;> rfl
  · change execNak k h s = _
    simp only [execNak, exists_, up, nak, empty, control, if_neg fresh, bne_self_eq_false, Bool.not_true, Bool.or_self,
      Bool.false_eq_true, if_false]
  · change execReplayTimer k s = _
    simp only [execReplayTimer, exists_, up, replay, Bool.not_true, Bool.false_eq_true, if_false]

/-! ### Training -/

/-- Settles O42. -/
theorem linkTrainingCompletes : Obligations.LinkTrainingCompletes := by
  unfold Obligations.LinkTrainingCompletes
  intro k usable s exists_
  refine ⟨fun retrains => ⟨fun w0 width => ⟨fun p step => ?_, fun p commons => ?_⟩, ?_⟩,
    fun trains => ⟨fun none_ => ?_, fun w width => ?_, ?_⟩, fun b bound => ⟨fun few => ?_, fun many => ?_⟩, fun failed => ?_,
    fun up => ?_⟩
  · change execRetrainDone k usable s = _
    subst step
    simp only [execRetrainDone, exists_, retrains, width, bne_self_eq_false, Bool.not_true, Bool.false_eq_true, if_false]
    rfl
  · change execRetrainDone k usable s = _
    subst commons
    simp only [execRetrainDone, exists_, retrains, width, bne_self_eq_false, Bool.not_true, Bool.false_eq_true, if_false]
  · change execRetrainTimeout k s = _
    simp only [execRetrainTimeout, exists_, retrains, Bool.not_true, Bool.false_eq_true, if_false, if_true]
  · change execTrainingDone k usable s = _
    simp only [execTrainingDone, exists_, trains, none_, bne_self_eq_false, Bool.not_true, Bool.false_eq_true, if_false]
  · change execTrainingDone k usable s = _
    have comesBack : (!(s.port k).census && (s.port k).retried && s.ident.devState != .boot) = true
        ↔ (s.port k).census = false ∧ (s.port k).retried = true ∧ s.ident.devState ≠ .boot := by
      simp only [Bool.and_eq_true, Bool.not_eq_true', bne_iff_ne, and_assoc]
    simp only [execTrainingDone, exists_, trains, width, bne_self_eq_false, Bool.not_true, Bool.false_eq_true, if_false,
      comesBack]
    exact (apply_ite Host.Outcome.next _ _ _).symm
  · change execTrainingTimeout k s = _
    simp only [execTrainingTimeout, exists_, trains, Bool.not_true, Bool.false_eq_true, if_false, if_true]
  · change execBringupOverrun k s = _
    have port : (s.at_ ((s.port k).since + b)).port k = s.port k := by cases k <;> rfl
    simp only [execBringupOverrun, exists_, bound, port, if_neg (Nat.not_le.2 few), Bool.not_true, Bool.false_eq_true, if_false]
  · change execBringupOverrun k s = _
    have port : (s.at_ ((s.port k).since + b)).port k = s.port k := by cases k <;> rfl
    simp only [execBringupOverrun, exists_, bound, port, if_pos many, Bool.not_true, Bool.false_eq_true, if_false]
  · change execPortRetry k s = _
    simp only [execPortRetry, exists_, failed, Bool.not_true, Bool.false_eq_true, if_false, if_true]
    rfl
  · change execLockOrAlignmentLost k s = _
    simp only [execLockOrAlignmentLost, exists_, up, Bool.not_true, Bool.false_eq_true, if_false, if_true]

/-! ### The census -/

/-- Settles O43. -/
theorem censusLossesComplete : Obligations.CensusLossesComplete := by
  unfold Obligations.CensusLossesComplete
  intro n unit ok s
  refine ⟨fun inRange here => ?_, fun inRange here lost => ?_, fun exists_ served holds => ⟨fun none_ => ?_, fun some_ => ?_⟩⟩
  · change execFlashChannelSilent n s = _
    rw [execFlashChannelSilent, if_neg (Nat.not_le.2 inRange), if_pos (List.contains_iff_mem.2 here)]
  · change execHbmStackFail n lost s = _
    rw [execHbmStackFail, if_neg (Nat.not_le.2 inRange), List.contains_iff_mem.2 here]
    rfl
  · change execUnitReset unit ok s = _
    subst none_
    simp only [execUnitReset, exists_, served, holds, decide_false, Bool.not_true, Bool.or_self, Bool.false_eq_true,
      if_false, if_true]
  · change execUnitReset unit ok s = _
    simp only [execUnitReset, exists_, served, holds, if_neg some_, decide_false, Bool.not_true, Bool.or_self,
      Bool.false_eq_true, if_false, Bool.and_eq_true, decide_eq_true_eq]
    split <;> rfl

end Sys2Proof.Proofs
end

section
/-!
SUPPORT. The completion statements of packets between nodes (O44 to O46): the packet carriers' laws, then the branch that the
hypotheses choose.
-/
namespace Sys2Proof.Proofs
open Sys2Proof.Machine Sys2Proof.Safety Sys2Proof.Laws

/-- A packet that a carrier takes has the operation that it takes. -/
theorem pktTakes_op {s : State} {p : Pkt} {op : Nat} (takes : pktTakes s p op) : pktOp p = op := by
  obtain ⟨_, _, _, _, same, _⟩ := takes
  exact same

/-- The same, of a service that also asks something of the packet's body. -/
theorem serviceReceive_takes_and {s : State} {p : Pkt} {op : Nat} {mine : Bool} (takes : serviceTakes s p op)
    (asked : mine = true) (body : State → Out) : serviceReceive s p (pktOp p == op && mine) body = body (pktTaken s p) := by
  rw [asked, Bool.and_true]
  exact serviceReceive_takes takes body

/-! ### Memory packets and services -/

/-- The next request in order is applied, and what was held behind it follows. -/
theorem memoryArrives_next {u v : State} {h : BitVec 512} {body : List Byte} {ok moves : Bool}
    (next : hdrField h 64 48 = (u.inStream (hdrField h 32 13)).applied + 1) (applied : u.applyMemory h body ok = (moves, v)) :
    u.memoryArrives h body ok
      = if moves then v.drainHeld (hdrField h 32 13) ((u.inStream (hdrField h 32 13)).heldReqs.length + 1) else v := by
  have later : ¬hdrField h 64 48 ≤ (u.inStream (hdrField h 32 13)).applied := by omega
  rw [State.memoryArrives, if_neg later, if_pos next, applied]

/-- Settles O44. -/
theorem packetsComplete : Obligations.PacketsComplete := by
  unfold Obligations.PacketsComplete
  refine ⟨fun p dataOk port m id s r => ?_, fun p failed s g => ?_⟩
  · dsimp only
    refine ⟨fun takes => ?_, fun takes => ?_, fun takes => ?_, fun takes => ?_,
      ⟨fun next moves v applied => memoryArrives_next next applied, fun old => ?_⟩, fun takes long asked dest => ?_,
      fun inRange carries cls op vc len body rsvd bit seen version role => ?_,
      fun asked => ⟨fun sent => ⟨fun free few => ?_, fun free many => ?_, fun t busy => ?_⟩, fun t0 waiting => ?_⟩⟩
    · change execWrite p s = _
      rw [execWrite, pktReceive_takes takes]
    · change execRead p dataOk s = _
      rw [execRead, pktReceive_takes takes]
    · change execAtomic p s = _
      rw [execAtomic, pktReceive_takes takes]
    · change execCopy p dataOk s = _
      rw [execCopy, pktReceive_takes takes]
    · simp only [State.memoryArrives, if_pos old]
    · change execCommonsResponse p s = _
      rw [execCommonsResponse, pktReceive_takes takes]
      simp only [if_neg (Nat.not_lt.2 long), asked, dest, bne_self_eq_false, Bool.false_eq_true, if_false]
    · change execCommonsHello port m s = _
      obtain switch | ⟨node, other, unshared⟩ := role
      · simp only [execCommonsHello, if_neg (Nat.not_le.2 inRange), carries, cls, op, vc, len, body, rsvd, bit, seen, version,
          switch, bne_self_eq_false, Bool.not_true, Bool.or_self, Bool.false_eq_true, if_false, if_true, Nat.reduceBEq,
          Bool.false_and]
      · have known : (msgField m 48 2 == 3) = false := beq_false_of_ne (by omega)
        have apart : (msgField m 51 13 == s.node) = false := beq_false_of_ne other
        simp only [execCommonsHello, if_neg (Nat.not_le.2 inRange), carries, cls, op, vc, len, body, rsvd, bit, seen, version,
          known, apart, unshared, bne_self_eq_false, Bool.not_true, Bool.or_self, Bool.false_eq_true, if_false,
          Bool.and_false]
    · change execRequestRetransmit id s = _
      simp only [execRequestRetransmit, asked, sent, free, few, Option.isSome_none, Bool.false_eq_true, if_false, if_true]
    · change execRequestRetransmit id s = _
      simp only [execRequestRetransmit, asked, sent, free, if_neg (Nat.not_lt.2 many), Option.isSome_none, Bool.false_eq_true,
        if_false]
    · change execRequestRetransmit id s = _
      simp only [execRequestRetransmit, asked, sent, busy, Option.isSome_none, Bool.false_eq_true, if_false]
    · change execRouteWaitExpiry id s = _
      simp only [execRouteWaitExpiry, asked, waiting]
  · dsimp only
    refine ⟨fun takes plain grant attends good homed => ?_, fun takes plain grant searches x index len good results strips => ?_⟩
    · change execAttendReq p failed s = _
      have none_lost : ((attendOrdinals p.body).find? fun o =>
          ((pktTaken s p).heldSheaf (hdrField p.header 32 13) (hdrField p.header 48 10)
            (BitVec.ofNat 64 (bitsOf (bytesToNat (p.body.take 64)) 64 64)) (bitsOf (bytesToNat (p.body.take 64)) 128 10) o).isNone)
          = none := by
        refine List.find?_eq_none.2 fun o listed => ?_
        rw [not_congr Option.isNone_iff_eq_none]
        exact Option.isSome_iff_ne_none.1 (homed o listed)
      rw [execAttendReq, serviceReceive_takes takes]
      simp only [plain, grant, attends, good, none_lost, Nat.reduceBEq, Bool.not_true, Bool.or_self, Bool.false_eq_true, if_false]
    · change execSearchReq p s = _
      rw [execSearchReq, serviceReceive_takes takes]
      simp only [plain, grant, searches, index, len, good, decide_eq_false results, decide_eq_false strips, Option.isSome_none,
        Nat.reduceBEq, bne_self_eq_false, Bool.not_true, Bool.or_self, Bool.false_eq_true, if_false]

/-! ### The registry of other nodes -/

/-- A registry operation that the endpoint takes, of the length that it has and a handle that this device answers for, runs. -/
theorem registryReceive_takes {s : State} {p : Pkt} {op n : Nat} (takes : serviceTakes s p op) (long : p.body.length = n)
    (stands : ((pktTaken s p).partner.deposed
      && handleNode (BitVec.ofNat 64 (bytesAt p.body 0 8)) == (pktTaken s p).node) = false)
    (answers : (pktTaken s p).isSelf (handleNode (BitVec.ofNat 64 (bytesAt p.body 0 8))) = true)
    (body : State → Handle → State) :
    registryReceive s p op n body = .next (body (pktTaken s p) (BitVec.ofNat 64 (bytesAt p.body 0 8))) := by
  rw [registryReceive, serviceReceive_takes takes]
  simp only [long, stands, answers, bne_self_eq_false, Bool.not_true, Bool.false_eq_true, if_false]

/-- A change not taken before waits for the partner's answer, or is taken into the registry's order. -/
theorem takeReg_fresh {s : State} {h : Handle} {op : Nat} {p : Pkt}
    (fresh : (s.commons.regPending.any fun r => r.origin == .remote p.header) = false) :
    s.takeReg h op p = if s.partner.asking then s.holdReg h op p else s.submitReg h op p.body (.remote p.header) := by
  simp only [State.takeReg, fresh, Bool.false_eq_true, if_false]

/-- Settles O45. -/
theorem registryPacketsComplete : Obligations.RegistryPacketsComplete := by
  unfold Obligations.RegistryPacketsComplete
  intro p s
  dsimp only
  refine ⟨fun stands answers => ⟨fun takes long => ?_, fun fresh =>
    ⟨fun takes long => ?_, fun takes long => ?_, fun takes long => ?_, fun takes long => ?_, fun takes long => ?_⟩⟩,
    fun n takes long => ?_, fun takes named long free => ?_⟩
  · change execRegRead p s = _
    rw [execRegRead, registryReceive_takes takes long stands answers]
  · change execRegOffer p s = _
    rw [execRegOffer, registryReceive_takes takes long stands answers, takeReg_fresh fresh]
  · change execRegCommit p s = _
    rw [execRegCommit, registryReceive_takes takes long stands answers, takeReg_fresh fresh]
  · change execRegWithdraw p s = _
    rw [execRegWithdraw, registryReceive_takes takes long stands answers, takeReg_fresh fresh]
  · change execRegLife p s = _
    rw [execRegLife, registryReceive_takes takes long stands answers, takeReg_fresh fresh]
  · change execRegRetire p s = _
    rw [execRegRetire, registryReceive_takes takes long stands answers, takeReg_fresh fresh]
  · change execRegRegrow p s = _
    rw [execRegRegrow, serviceReceive_takes takes]
    simp only [long, Nat.mul_div_cancel_left n (Nat.succ_pos 7), bne_self_eq_false, Bool.false_eq_true, if_false]
  · change execRegMirror p s = _
    rw [execRegMirror, serviceReceive_takes takes]
    simp only [named, long, free, bne_self_eq_false, Bool.false_eq_true, if_false]

/-! ### The partner -/

/-- A notice of a kind that the endpoint takes runs. -/
theorem noticeReceive_takes {s : State} {p : Pkt} {k : Nat} (takes : serviceTakes s p 0x27) (long : 16 ≤ p.body.length)
    (kind : bytesAt p.body 0 8 = k) (body : State → Handle → State) :
    noticeReceive s p k body = .next (body (pktTaken s p) (BitVec.ofNat 64 (bytesAt p.body 8 8))) := by
  rw [noticeReceive, serviceReceive_takes_and takes (beq_iff_eq.2 kind)]
  simp only [if_neg (Nat.not_lt.2 long)]

/-- A mirror packet of the named partner, of a kind that the endpoint takes, runs. -/
theorem mirrorReceive_takes {s : State} {p : Pkt} {mine : Nat → Bool} (takes : serviceTakes s p 0x30)
    (named : (pktTaken s p).namedPartner = some (hdrField p.header 32 13)) (long : 16 ≤ p.body.length)
    (kind : mine (bytesAt p.body 0 1 % 16) = true) (body : State → State) :
    mirrorReceive s p mine body = .next (body (pktTaken s p)) := by
  rw [mirrorReceive, serviceReceive_takes_and takes kind]
  simp only [named, if_neg (Nat.not_lt.2 long), bne_self_eq_false, Bool.false_eq_true, if_false]

/-- Settles O46. -/
theorem partnerPacketsComplete : Obligations.PartnerPacketsComplete := by
  unfold Obligations.PartnerPacketsComplete
  intro p h s
  dsimp only
  refine ⟨fun takes long => ⟨fun kind held => ?_, fun v i kind absent fresh reserved => ?_, fun kind absent => ?_,
    fun x hd kind held newer handing => ?_, fun kind partner quiet => ?_⟩,
    fun takes named long => ⟨fun kind old => ?_, fun kind next => ?_, fun kind len => ?_, fun kind len => ?_⟩,
    fun e entry same offered => ?_, fun x hd held handing final open_ fresh => ?_⟩
  · change execHandoffAsk p s = _
    rw [execHandoffAsk, noticeReceive_takes takes long kind]
    simp only [held, if_true]
  · change execHandoffAsk p s = _
    rw [execHandoffAsk, noticeReceive_takes takes long kind]
    simp only [absent, fresh, reserved, Option.isSome_none, Bool.false_eq_true, if_false]
  · change execHomeChanged p s = _
    rw [execHomeChanged, noticeReceive_takes takes long kind]
    simp only [absent]
  · change execHomeChanged p s = _
    rw [execHomeChanged, noticeReceive_takes takes long kind]
    simp only [held, if_neg (Nat.not_le.2 newer), handing]
  · change execRestarted p s = _
    rw [execRestarted, noticeReceive_takes takes long kind]
    simp only [partner, bne_self_eq_false, Bool.false_eq_true, if_false]
    exact congrArg Host.Outcome.next (if_neg (ne_true_of_eq_false quiet))
  · change execRecords p s = _
    rw [execRecords, mirrorReceive_takes takes named long (by rw [kind]; rfl)]
    simp only [kind, if_pos old, bne_self_eq_false, Bool.false_eq_true, if_false]
  · change execRecords p s = _
    have later : ¬bytesAt p.body 8 8 ≤ (pktTaken s p).partner.applied := by omega
    rw [execRecords, mirrorReceive_takes takes named long (by rw [kind]; rfl)]
    simp only [kind, if_neg later, if_pos next, bne_self_eq_false, Bool.false_eq_true, if_false]
  · change execFetchRecords p s = _
    rw [execFetchRecords, mirrorReceive_takes takes named long (by rw [kind]; rfl)]
    simp only [len, bne_self_eq_false, Bool.false_eq_true, if_false]
  · change execDrop p s = _
    rw [execDrop, mirrorReceive_takes takes named long (by rw [kind]; rfl)]
    simp only [len, bne_self_eq_false, Bool.false_eq_true, if_false]
  · change execOfferExpiry h s = _
    simp only [execOfferExpiry, entry, same, offered, beq_self_eq_true, Bool.and_self, if_true]
  · change execHandoffCheck h s = _
    simp only [execHandoffCheck, held, Option.bind_some, handing, final, open_, fresh, Bool.not_false, Bool.and_self, if_true]
end Sys2Proof.Proofs
end

section
/-!
SUPPORT. The completion statements of power, supplies, domains and heartbeats (O48, O49).
-/
namespace Sys2Proof.Proofs
open Sys2Proof.Machine Sys2Proof.Safety Sys2Proof.Laws

/-- The metered energy of a Hearth tick is taken. -/
def hearthMetered (s : State) (energy : Nat) : State :=
  { s.at_ (s.clock.hearthTick + 1024) with
    clock := { (s.at_ (s.clock.hearthTick + 1024)).clock with hearthTick := s.clock.hearthTick + 1024 }
    hearth := { (s.at_ (s.clock.hearthTick + 1024)).hearth.refill energy with lastEnergy := energy } }

/-- How `execHearthTick` ends: a device that is too hot shuts down. -/
def tickEnds (s : State) : Out := if s.hearth.shutdown && !s.board.pwrCycleLow then .next s.thermalShutdown else .next s

/-- `execHearthTick` in three parts: the metered energy, the samples with what follows from them, and the end. -/
theorem execHearthTick_ends (samples : List (Option Int)) (energy : Nat) (s : State) :
    execHearthTick samples energy s
      = tickEnds (((hearthMetered s energy).sampleSensors samples).setDerate.thermalTick) := by
  dsimp only [execHearthTick, tickEnds, hearthMetered]

/-- A Hearth tick always answers a next state. -/
theorem tickEnds_eq (s : State) :
    tickEnds s = .next (if s.hearth.shutdown && !s.board.pwrCycleLow then s.thermalShutdown else s) :=
  (apply_ite Host.Outcome.next _ _ _).symm

/-- Settles O48. -/
theorem powerAndSuppliesComplete : Obligations.PowerAndSuppliesComplete := by
  unfold Obligations.PowerAndSuppliesComplete
  refine ⟨fun s n sel b c w => ⟨fun low hold => ?_, fun t0 powering runs => ?_, fun long high => ?_, fun low => ?_,
    fun i blown lost channels hbm booting runs high slot => ?_, fun blown lost channels hbm booting runs high slot => ?_⟩,
    fun s rail energy samples => ⟨fun first last => ⟨?_, fun high cycling => ?_⟩, fun faulty => ?_, fun runs => ?_,
      fun lost => ?_, ?_⟩⟩
  · change execPwrCycleRelease s = _
    have held : (s.board.hold == 0 || s.board.hold == 3) = true := by simpa using hold
    simp only [execPwrCycleRelease, low, held, Bool.and_self, if_true]
  · change execPowerCycleTimeout s = _
    simp only [execPowerCycleTimeout, powering, runs, Bool.not_true, Bool.false_eq_true, if_false]
    exact (apply_ite Host.Outcome.next _ _ _).symm
  · change execPorstLAssert n s = _
    have heard : (decide (n < 1000) || s.board.porst) = false := by
      rw [high, decide_eq_false (by omega), Bool.or_self]
    simp only [execPorstLAssert, heard, decide_eq_true long, State.draw, Bool.true_or, Bool.false_eq_true, if_false, if_true]
  · change execPorstLRelease sel b c w s = _
    simp only [execPorstLRelease, low, Bool.not_true, Bool.false_eq_true, if_false]
  · change execBootServing channels hbm lost w blown s = _
    simp only [execBootServing, booting, runs, high, slot, Bool.not_true, Bool.or_self, Bool.false_eq_true, if_false]
  · change execBootServing channels hbm lost w blown s = _
    simp only [execBootServing, booting, runs, high, slot, Bool.not_true, Bool.or_self, Bool.false_eq_true, if_false]
  · change execRailFault rail true s = _
    have known : (decide (rail = 0) || decide (11 < rail)) = false := by
      rw [decide_eq_false (by omega), decide_eq_false (by omega), Bool.or_self]
    simp only [execRailFault, known, Bool.false_eq_true, if_false, if_true]
  · change execRailFault rail false s = _
    have known : (decide (rail = 0) || decide (11 < rail)) = false := by
      rw [decide_eq_false (by omega), decide_eq_false (by omega), Bool.or_self]
    have fed : (s.board.pwrCycleLow && decide (3 ≤ rail)) = false := by
      obtain awake | early := cycling
      · rw [awake, Bool.false_and]
      · rw [decide_eq_false (Nat.not_le.2 early), Bool.and_false]
    simp only [execRailFault, known, high, fed, Bool.or_self, Bool.false_eq_true, if_false]
  · change execRailRestored s = _
    have listed : (s.board.railFault || s.board.railOrder) = true := Bool.or_eq_true_iff.2 faulty
    simp only [execRailRestored, listed, if_true]
  · change execRefclkAoLoss s = _
    simp only [execRefclkAoLoss, runs, Bool.false_eq_true, if_false]
  · change execRefclkAoReturn s = _
    simp only [execRefclkAoReturn, lost, if_true]
  · intro _ _ w
    change execHearthTick samples energy s = _
    have same : ((hearthMetered s energy).sampleSensors samples).setDerate.thermalTick = w := rfl
    rw [execHearthTick_ends, same]
    clear_value w
    exact tickEnds_eq w

/-- Settles O49. -/
theorem domainsAndHeartbeatsComplete : Obligations.DomainsAndHeartbeatsComplete := by
  unfold Obligations.DomainsAndHeartbeatsComplete
  intro s d
  refine ⟨fun a x y rest waiting => ⟨?_, fun rests stays => ?_, fun rests goes => ?_, fun wakes => ?_⟩,
    fun inRange => ⟨?_, ?_, fun t0 due => ?_⟩, rfl, ?_⟩
  · change execWakeIssue s = _
    simp only [execWakeIssue, waiting]
    rfl
  · simp only [State.issueChange, if_neg rests, stays, Bool.false_eq_true, if_false]
  · simp only [State.issueChange, if_neg rests, goes, if_true]
    cases y <;> rfl
  · simp only [State.issueChange, if_pos wakes]
    rfl
  · change execDomainSleep d s = _
    simp only [execDomainSleep, if_neg (Nat.not_le.2 inRange)]
  · change execDomainOffTimer d s = _
    simp only [execDomainOffTimer, if_neg (Nat.not_le.2 inRange)]
  · change execDomainWoken d s = _
    simp only [execDomainWoken, if_neg (Nat.not_le.2 inRange), due]
    rfl
  · change execReeveHeartbeatTick s = _
    exact (apply_ite Host.Outcome.next _ _ _).symm
end Sys2Proof.Proofs
end

section
/-!
SUPPORT. The completion statements of the side band, SPDM and the debug port (O50 to O56): the guard's law, then the branch that
the hypotheses choose.
-/
namespace Sys2Proof.Proofs
open Sys2Proof.Machine Sys2Proof.Safety Sys2Proof.Laws

/-! ### The side band -/

/-- Settles O50. -/
theorem sideBandCompletes : Obligations.SideBandCompletes := by
  unfold Obligations.SideBandCompletes
  intro s offset count eid command ops
  refine ⟨fun answers => ⟨fun first most fits => ?_, ?_, fun other => ⟨fun waits => ?_, fun r rest waits free => ?_⟩,
    fun r t0 n out behind => ?_, ?_⟩, fun r t0 n listens out => ⟨fun few => ?_, fun many => ?_⟩, fun answers => ?_,
    fun listens => ?_⟩
  · change execStatusRead offset count s = _
    have inside : (decide (count = 0) || decide (1024 < count) || decide (0x800 < offset + count)) = false := by
      rw [decide_eq_false (by omega), decide_eq_false (by omega), decide_eq_false (by omega), Bool.or_self, Bool.or_self]
    rw [execStatusRead, sbWhen_answers answers]
    simp only [inside, Bool.false_eq_true, if_false]
    rfl
  · change execEventSubscribe 0 s = _
    rw [execEventSubscribe, sbWhen_answers answers]
    rfl
  · change execEventSubscribe eid s = _
    rw [execEventSubscribe, sbWhen_answers answers]
    simp only [if_neg other]
    split
    next => rfl
    next r rest listed =>
      have out : s.watchman.record.isSome = true :=
        waits.resolve_left fun none_ => List.cons_ne_nil r rest (listed.symm.trans none_)
      exact congrArg Host.Outcome.next (if_pos out)
  · change execEventSubscribe eid s = _
    have waiting : (s.sbReply 4 0 []).watchman.attention = r :: rest := waits
    have idle : ¬s.watchman.record.isSome = true := by simp only [free, Option.isSome_none, Bool.false_eq_true, not_false_eq_true]
    rw [execEventSubscribe, sbWhen_answers answers]
    simp only [if_neg other, waiting]
    exact congrArg Host.Outcome.next (if_neg idle)
  · change execEventRecord s = _
    have later : ¬((({ s with watchman := { s.watchman with record := none } } : State).crierOf 0).ring r).head
        = ((({ s with watchman := { s.watchman with record := none } } : State).crierOf 0).ring r).written := behind
    simp only [execEventRecord, out, sbWhen_answers answers, if_neg later]
    rfl
  · change execSbBadRequest command ops s = _
    exact sbWhen_answers answers _
  · change execEventRecordTimeout s = _
    simp only [execEventRecordTimeout, out, listens, few, Bool.not_true, Bool.false_eq_true, if_false, if_true]
  · change execEventRecordTimeout s = _
    simp only [execEventRecordTimeout, out, listens, if_neg (Nat.not_lt.2 many), Bool.not_true, Bool.false_eq_true, if_false]
    rfl
  · change execWatchmanStatus s = _
    exact sbWhen_answers answers _
  · change execWatchmanWatchdog s = _
    simp only [execWatchmanWatchdog, listens, if_true]

/-- An MCTP control command to this endpoint runs where the side band answers. -/
theorem mctpWhen_answers {s : State} {dest : BitVec 8} (answers : sbAnswers s true) (mine : s.forMe dest = true) (t : State) :
    mctpWhen s dest t = .next t := by
  rw [mctpWhen, if_pos mine, sbWhen_answers answers]

/-- Settles O51. -/
theorem mctpCompletes : Obligations.MctpCompletes := by
  unfold Obligations.MctpCompletes
  intro s dest eid ty sel command a n r
  refine ⟨fun answers mine => ⟨fun some_ one => ?_, ?_, ?_, fun known => ?_, ?_, ?_, fun other => ?_, fun unlisted => ?_⟩,
    fun listens => ?_, fun answers => ⟨?_, ?_⟩, rfl⟩
  · change execSetEndpointId dest eid s = _
    rw [execSetEndpointId, mctpWhen_answers answers mine]
    simp only [decide_eq_false some_, decide_eq_false one, Bool.or_self, Bool.false_eq_true, if_false]
  · change execGetEndpointId dest s = _
    exact mctpWhen_answers answers mine _
  · change execGetEndpointUuid dest s = _
    exact mctpWhen_answers answers mine _
  · change execGetMctpVersionSupport dest ty s = _
    have listed : (decide (ty = 0xFF) || mctpTypes.contains ty) = true := by
      rw [Bool.or_eq_true, decide_eq_true_eq, List.contains_iff_mem]
      exact known
    rw [execGetMctpVersionSupport, mctpWhen_answers answers mine, if_pos listed]
  · change execGetMessageTypeSupport dest s = _
    exact mctpWhen_answers answers mine _
  · change execGetVendorMessageSupport dest 0 s = _
    rw [execGetVendorMessageSupport, mctpWhen_answers answers mine]
    rfl
  · change execGetVendorMessageSupport dest sel s = _
    rw [execGetVendorMessageSupport, mctpWhen_answers answers mine, if_neg other]
  · change execUnsupportedMctpCmd dest command s = _
    have outside : (decide (1 ≤ command.toNat) && decide (command.toNat ≤ 6)) = false := by
      obtain rfl | above := unlisted
      · rfl
      · rw [decide_eq_false (Nat.not_le.2 above), Bool.and_false]
    simp only [execUnsupportedMctpCmd, outside, mctpWhen_answers answers mine, Bool.false_eq_true, if_false]
  · change execEntdaa a s = _
    simp only [execEntdaa, onlyIf, listens, if_true]
  · change execSetdasa a s = _
    exact sbWhen_answers answers _
  · change execRstdaa s = _
    exact sbWhen_answers answers _

/-- Settles O52. -/
theorem pldmQueriesComplete : Obligations.PldmQueriesComplete := by
  unfold Obligations.PldmQueriesComplete
  intro s ty command rec_ sensor answers
  refine ⟨?_, ?_, ?_, ?_, ?_, ?_, ?_, fun v known => ?_, fun unknown => ?_, fun unlisted => ?_⟩
  · change execGettid s = _
    exact sbWhen_answers answers _
  · change execGetpldmversion ty s = _
    exact sbWhen_answers answers _
  · change execGetpldmtypes s = _
    exact sbWhen_answers answers _
  · change execGetpldmcommands ty s = _
    exact sbWhen_answers answers _
  · change execGetpdrrepositoryinfo s = _
    exact sbWhen_answers answers _
  · change execGetpdr rec_ s = _
    exact sbWhen_answers answers _
  · change execGetsensorreading sensor s = _
    rw [execGetsensorreading, sbWhen_answers answers]
    simp only [← BitVec.toNat_inj, Bool.and_eq_true, decide_eq_true_eq]
    rfl
  · change execGetstatesensorreadings sensor s = _
    rw [execGetstatesensorreadings, sbWhen_answers answers, known]
    rfl
  · change execGetstatesensorreadings sensor s = _
    rw [execGetstatesensorreadings, sbWhen_answers answers, unknown]
  · change execUnsupportedPldmCmd ty command s = _
    have heard : sbAnswers s (ty == 5) := answers.imp_right fun recovers => Or.inr (recovers.resolve_left Bool.false_ne_true)
    simp only [execUnsupportedPldmCmd, unlisted, sbWhen_answers heard, Bool.false_eq_true, if_false]

/-- Settles O53. -/
theorem pldmUpdateCompletes : Obligations.PldmUpdateCompletes := by
  unfold Obligations.PldmUpdateCompletes
  intro s component size block u i
  refine ⟨fun answers free idle alone known may => ?_, fun running => ⟨fun may more whole answers => ?_,
    fun answers may whole staged fresh => ?_, fun answers => ?_, ?_⟩⟩
  · change execRequestupdate component size s = _
    have listed : (component.toNat == 1 || component.toNat == 2) = true := by
      obtain rfl | rfl := known <;> rfl
    rw [execRequestupdate, sbWhen_answers answers]
    simp only [free, idle, alone, listed, may, Option.isSome_none, Bool.not_true, Bool.or_self, Bool.false_eq_true, if_false]
  · change execRequestfirmwaredata block true s = _
    simp only [execRequestfirmwaredata, running, may, whole, decide_eq_false (Nat.not_le.2 more), sbWhen_answers answers,
      Bool.not_true, Bool.and_false, Bool.false_and, Bool.or_self, Bool.false_eq_true, if_false]
  · change execActivatefirmware s = _
    rw [execActivatefirmware, sbWhen_answers answers]
    simp only [running, may, whole, staged, decide_eq_false (Nat.not_lt.2 fresh), Bool.not_true, Bool.false_eq_true, if_false,
      if_true]
  · change execCancelupdate s = _
    rw [execCancelupdate, sbWhen_answers answers, running]
  · change execPldmUpdateIdle s = _
    simp only [execPldmUpdateIdle, running]

/-! ### SPDM -/

/-- A request after the algorithms, on a transport that hears it, runs. -/
theorem spdmAfter_hears {s : State} {t : Transport} (hears : s.spdmHears t = true) (agreed : (s.spdmConn t).algorithms = true)
    (body : State) : spdmAfter s t body = .next body := by
  rw [spdmAfter, spdmWhen, if_pos hears, if_pos agreed]

/-- What belongs to the session runs on the host port. -/
theorem sessionOnly_hears {s : State} (hears : s.spdmHears .hostPort = true) (body : State) :
    sessionOnly s .hostPort body = .next body := by
  rw [sessionOnly, spdmWhen, if_pos hears]

/-- A message in the open session counts as its latest and runs. -/
theorem inSession_hears {s : State} (hears : s.spdmHears .hostPort = true) (open_ : s.security.session = true)
    (body : State → State) : inSession s .hostPort body = .next (body s.sessionMessage) := by
  rw [inSession, sessionOnly_hears hears, if_pos open_]

/-- Settles O54. -/
theorem spdmRequestsComplete : Obligations.SpdmRequestsComplete := by
  unfold Obligations.SpdmRequestsComplete
  intro s tr off len nonce index code hears
  refine ⟨?_, fun version => ?_, fun capable => ?_, fun agreed valid =>
    ⟨?_, fun inside => ?_, fun entropy => ?_, fun dry => ?_, fun signed => ?_,
    fun first known => ?_⟩,
    ?_⟩
  · change execGetVersion tr s = _
    exact if_pos hears
  · change execGetCapabilities tr s = _
    simp only [execGetCapabilities, spdmWhen, hears, version, if_true]
  · change execNegotiateAlgorithms tr true s = _
    simp only [execNegotiateAlgorithms, spdmWhen, hears, capable, Bool.not_true, Bool.false_eq_true, if_false, if_true]
  · change execGetDigests tr s = _
    rw [execGetDigests, spdmAfter_hears hears agreed, if_pos valid]
  · change execGetCertificate tr 0 off len s = _
    have stands : ((0 : BitVec 8) != 0 || !s.security.certValid || decide (Config.certificate.length ≤ off.toNat)) = false := by
      rw [valid, decide_eq_false (Nat.not_le.2 inside)]
      rfl
    simp only [execGetCertificate, spdmAfter_hears hears agreed, stands, Bool.false_eq_true, if_false]
  · change execChallenge tr 0 nonce s = _
    simp only [execChallenge, spdmAfter_hears hears agreed, valid, entropy, bne_self_eq_false, Bool.not_true, Bool.false_eq_true,
      if_false, if_true]
  · change execChallenge tr 0 nonce s = _
    simp only [execChallenge, spdmAfter_hears hears agreed, valid, dry, bne_self_eq_false, Bool.not_true, Bool.false_eq_true,
      if_false]
  · change execGetMeasurements tr 0 signed nonce s = _
    rw [execGetMeasurements, spdmAfter_hears hears agreed]
    rfl
  · have runs (signed : Bool) : exec (.getMeasurements tr index signed nonce) s
        = .next (if !signed then s.spdmReply tr 0x60 (if index = 0xFF then (List.range 8).flatMap fun i => s.measurement (i + 1)
            else s.measurement index.toNat)
          else if s.security.entropyOk then s.answerMeasurements tr index nonce
          else s.holdFresh (.measurements tr index nonce)) := by
      change execGetMeasurements tr index signed nonce s = _
      have bounded : (decide (8 < index.toNat) && index != 0xFF) = false := by
        obtain few | rfl := known
        · rw [decide_eq_false (Nat.not_lt.2 few), Bool.false_and]
        · rfl
      have some_ : ¬index = 0 := by
        rintro rfl
        exact Nat.not_succ_le_zero 0 first
      simp only [execGetMeasurements, spdmAfter_hears hears agreed, bounded, if_neg some_, valid, Bool.not_true,
        Bool.false_eq_true, if_false]
    refine ⟨runs false, fun entropy => ?_, fun dry => ?_⟩
    · rw [runs, entropy]
      rfl
    · rw [runs, dry]
      rfl
  · change execUnsupportedRequest tr code s = _
    exact if_pos hears

/-- Settles O55. -/
theorem spdmSessionCompletes : Obligations.SpdmSessionCompletes := by
  unfold Obligations.SpdmSessionCompletes
  intro s q slot enrol key sig signer
  refine ⟨fun hears => ⟨fun closed agreed valid entropy => ?_, fun shaking => ?_,
    fun open_ => ⟨?_, ?_, ?_, fun secured admin accepted => ?_⟩⟩, fun open_ => ⟨?_, ?_⟩⟩
  · change execKeyExchange .hostPort s = _
    rw [execKeyExchange, sessionOnly_hears hears]
    simp only [closed, agreed, valid, entropy, Bool.not_true, Bool.false_eq_true, if_false, if_true]
  · change execFinish .hostPort true s = _
    rw [execFinish, sessionOnly_hears hears]
    simp only [shaking, Bool.not_true, Bool.false_eq_true, if_false, if_true]
  · change execEndSession .hostPort s = _
    exact inSession_hears hears open_ _
  · change execHeartbeat .hostPort s = _
    exact inSession_hears hears open_ _
  · change execKeyUpdate .hostPort s = _
    exact inSession_hears hears open_ _
  · change execOperatorKey q slot enrol key signer sig s = _
    have asked : (decide (q.ctx = 0x400) && s.sessionMessage.operatorOk slot enrol key signer sig) = true := by
      rw [accepted, decide_eq_true admin, Bool.and_self]
    simp only [execOperatorKey, spdmWhen, hears, open_, secured, asked, Bool.and_self, Bool.not_true, Bool.false_eq_true,
      if_false, if_true]
    rfl
  · change execSpdmHeartbeatTimeout s = _
    simp only [execSpdmHeartbeatTimeout, open_, if_true]
  · change execSecuredMessageTagFail s = _
    simp only [execSecuredMessageTagFail, open_, Bool.not_true, Bool.false_eq_true, if_false]
    rfl

/-! ### The debug port -/

/-- A boundary-scan instruction acts in boundary-scan mode. -/
theorem bscanOnly_acts {s : State} (runs : s.aoRuns = true) (mode : s.debugPort.bscanMode = true) (body : State) :
    bscanOnly s body = .next body := by
  rw [bscanOnly, tapWhen, onlyIf, if_pos runs, if_pos mode]

/-- An instruction of the always-on domain acts while it runs. -/
theorem tapWhen_runs {s : State} (runs : s.aoRuns = true) (t : State) : tapWhen s t = .next t := if_pos runs

/-- Settles O56. -/
theorem debugPortCompletes : Obligations.DebugPortCompletes := by
  unfold Obligations.DebugPortCompletes
  intro s token bit v data addr op
  refine ⟨rfl, rfl, rfl, rfl, fun runs => ⟨fun mode => ⟨?_, ?_, ?_⟩, fun entropy => ?_, ⟨fun locked => ?_, fun free => ?_⟩, ?_,
    fun one => ?_, fun stays => ?_, ?_, fun zero => ?_, fun level domain => ⟨fun reads => ?_, fun writes other => ?_,
    fun writes control => ?_⟩⟩, rfl, rfl⟩
  · change execExtest s = _
    exact bscanOnly_acts runs mode _
  · change execClamp s = _
    exact bscanOnly_acts runs mode _
  · change execHighz s = _
    exact bscanOnly_acts runs mode _
  · change execDbgNonce s = _
    rw [execDbgNonce, tapWhen_runs runs, if_pos entropy]
    rfl
  · change execDbgToken token s = _
    simp only [execDbgToken, tapWhen_runs runs, if_pos locked]
  · change execDbgToken token s = _
    simp only [execDbgToken, tapWhen_runs runs, if_neg (Nat.not_le.2 free)]
  · change execDbgStatus s = _
    exact tapWhen_runs runs _
  · change execDbgRelock true s = _
    simp only [execDbgRelock, tapWhen_runs runs, State.modDebug, one, Bool.true_and, beq_self_eq_true, if_true]
  · change execDbgRelock bit s = _
    have kept : (bit && s.debugPort.level == 1) = false := by
      obtain other | rfl := stays
      · rw [beq_false_of_ne other, Bool.and_false]
      · rfl
    simp only [execDbgRelock, tapWhen_runs runs, State.modDebug, kept, Bool.false_eq_true, if_false]
  · change execDtmcs v s = _
    exact tapWhen_runs runs _
  · change execDmi addr data op s = _
    simp only [execDmi, tapWhen_runs runs, zero, if_true]
  · change execDmi addr data op s = _
    simp only [execDmi, tapWhen_runs runs, if_neg level, domain, reads, Bool.not_true, Bool.false_eq_true, if_false, if_true]
  · change execDmi addr data op s = _
    simp only [execDmi, tapWhen_runs runs, if_neg level, domain, writes, if_neg other, Bool.not_true, Bool.false_eq_true,
      if_false, if_true]
    rfl
  · change execDmi addr data op s = _
    simp only [execDmi, tapWhen_runs runs, if_neg level, domain, writes, control, Bool.not_true, Bool.false_eq_true,
      if_false, if_true]
    rfl
end Sys2Proof.Proofs
end

section
/-!
SUPPORT. What a restart's parts leave alone (`Stands`): the ladder, a warm reset that stands, and the rings of a pen of whose
rings none is being destroyed. One lemma per function of the model that a pen's restart or a warm reset's rejoin uses.
-/
namespace Sys2Proof.Proofs
open Sys2Proof.Machine Sys2Proof.Safety Sys2Proof.Laws

/-- Of a pen of whose rings none is being destroyed: its reinit, and its rings with their settings. -/
def ringsStanding (x : Pen) : Option (Option Reinit × List (Nat × Tollgate)) :=
  if x.rings.all fun g => g.2.destroying.isNone then some (x.reinit, x.rings.map fun g => (g.1, g.2.toll)) else none

theorem assocGet_of_map_eq {α β : Type} {f : α → β} {l m : List (Nat × α)} (p : Nat)
    (same : l.map (fun q => (q.1, f q.2)) = m.map fun q => (q.1, f q.2)) :
    (assocGet p l).map f = (assocGet p m).map f := by
  have get (l : List (Nat × α)) : assocGet p (l.map fun q => (q.1, f q.2)) = (assocGet p l).map f := by
    induction l with
    | nil => rfl
    | cons a l ih =>
      simp only [List.map_cons, assocGet]
      split
      · rfl
      · exact ih
  rw [← get, ← get, same]

/-- A ring that is being destroyed does not stand, nor do the rings of its pen. -/
theorem ringsStanding_none {x : Pen} {k : Nat} {g : Ring} {ref : MbRef} (held : assocGet k x.rings = some g)
    (ending : g.destroying = some ref) : ringsStanding x = none := by
  have mem (l : List (Nat × Ring)) (held : assocGet k l = some g) : (k, g) ∈ l := by
    induction l with
    | nil => cases held
    | cons a l ih =>
      obtain ⟨j, w⟩ := a
      simp only [assocGet] at held
      split at held
      next same =>
        cases held
        rw [same]
        exact List.mem_cons_self
      · exact List.mem_cons_of_mem _ (ih held)
  refine if_neg fun all => ?_
  have one := List.all_eq_true.1 all _ (mem _ held)
  rw [ending] at one
  exact Bool.false_ne_true one

/-- A change to a ring's other fields leaves what stands. -/
theorem ringsStanding_mod {k : Nat} {f : Ring → Ring}
    (same : ∀ g, ((f g).destroying, (f g).toll) = (g.destroying, g.toll)) (x : Pen) :
    ringsStanding { x with rings := assocMod k f x.rings } = ringsStanding x := by
  have keys := assocMod_map k f (fun g => (g.destroying, g.toll)) x.rings same
  have all (l : List (Nat × Ring)) : (l.all fun g => g.2.destroying.isNone)
      = (l.map fun q => (q.1, q.2.destroying, q.2.toll)).all fun g => g.2.1.isNone := by
    rw [List.all_map]
    rfl
  have tolls (l : List (Nat × Ring)) : (l.map fun g => (g.1, g.2.toll))
      = (l.map fun q => (q.1, q.2.destroying, q.2.toll)).map fun g => (g.1, g.2.2) := by
    rw [List.map_map]
    rfl
  unfold ringsStanding
  rw [all, tolls, keys, ← all, ← tolls]

/-- A change to every ring's other fields leaves what stands. -/
theorem ringsStanding_mapVals {f : Ring → Ring} (same : ∀ g, ((f g).destroying, (f g).toll) = (g.destroying, g.toll))
    (x : Pen) : ringsStanding { x with rings := mapVals f x.rings } = ringsStanding x := by
  simp only [Prod.mk.injEq] at same
  simp only [ringsStanding, mapVals, List.all_map, List.map_map, Function.comp_def, (same _).1, (same _).2]

/-- What a restart's parts leave of the state they run in. -/
structure Stands (s t : State) : Prop where
  ladder : t.ladder = s.ladder
  warm : t.recovery.warm = s.recovery.warm
  rings : ∀ p v, (s.pen? p).bind ringsStanding = some v → (t.pen? p).bind ringsStanding = some v

namespace Stands

theorem refl (s : State) : Stands s s := ⟨rfl, rfl, fun _ _ => id⟩

theorem trans {s t v : State} (a : Stands s t) (b : Stands t v) : Stands s v :=
  ⟨b.ladder.trans a.ladder, b.warm.trans a.warm, fun p r held => b.rings p r (a.rings p r held)⟩

theorem of_fst {s0 a : State} {α : Type} {p : State × α} {b : α} (h : Stands s0 p.1) (e : p = (a, b)) : Stands s0 a := by
  rw [e] at h
  exact h

theorem ite {s0 x y : State} {c : Prop} [Decidable c] (hx : Stands s0 x) (hy : Stands s0 y) :
    Stands s0 (if c then x else y) := by
  split
  · exact hx
  · exact hy

section
variable {s0 s t : State} (hk : Stands s0 s)
include hk

/-- An update of other fields. -/
theorem update (same : (t.ladder, t.recovery.warm, t.pens) = (s.ladder, s.recovery.warm, s.pens)) : Stands s0 t := by
  simp only [Prod.mk.injEq] at same
  obtain ⟨l, w, q⟩ := same
  refine hk.trans ⟨l, w, fun p v held => ?_⟩
  simpa only [State.pen?, q] using held

/-- Completing a mailbox command, and raising an event. -/
theorem mailbox (only : MailboxOnly s t) : Stands s0 t := by
  refine hk.trans ⟨by rw [only.rest], by rw [only.rest], fun p v held => ?_⟩
  have same : (t.pen? p).map settled = (s.pen? p).map settled := assocGet_of_map_eq p only.pens
  have bound (o : Option Pen) : o.bind ringsStanding = (o.map settled).bind ringsStanding := by
    cases o <;> rfl
  rw [bound, same, ← bound, held]

theorem crier (only : CrierOnly s t) : Stands s0 t := hk.mailbox (.crierOnly only)

theorem modPen {p : Nat} {f : Pen → Pen} (kept : ∀ x, s.pen? p = some x → ringsStanding (f x) = ringsStanding x
    ∨ ringsStanding x = none) : Stands s0 (s.modPen p f) := by
  refine hk.trans ⟨rfl, rfl, fun j v held => ?_⟩
  by_cases same : j = p
  · subst same
    obtain ⟨x, there, stood⟩ := Option.bind_eq_some_iff.1 held
    rw [pen?_modPen, there, Option.map_some, Option.bind_some]
    obtain same | gone := kept x there
    · rw [same, stood]
    · rw [gone] at stood
      cases stood
  · simpa only [State.pen?, modPen_pens, assocGet_mod_ne same] using held

theorem foldl {α : Type} {f : State → α → State} {l : List α} (hf : ∀ {t x}, Stands s0 t → Stands s0 (f t x)) :
    Stands s0 (l.foldl f s) := by
  induction l generalizing s with
  | nil => exact hk
  | cons x l ih => exact ih (hf hk)

end

section
variable {s0 s : State}

/-! ### The shared operations -/

theorem emit {o : Output} (hk : Stands s0 s) : Stands s0 (s.emit o) := hk.update rfl

theorem bumpDev {c : DevCtr} {n : Nat} (hk : Stands s0 s) : Stands s0 (s.bumpDev c n) := hk.update rfl

theorem modSess {h : Handle} {f : Session → Session} (hk : Stands s0 s) : Stands s0 (s.modSess h f) := hk.update rfl

theorem modStepPort {p : Nat} {f : Port → Port} (hk : Stands s0 s) : Stands s0 (s.modStepPort p f) := hk.update rfl

theorem endLeases {h : Handle} (hk : Stands s0 s) : Stands s0 (s.endLeases h) := hk.update rfl

theorem setMoving (hk : Stands s0 s) : Stands s0 s.setMoving := hk.update rfl

theorem modPlanEntry {f i : Nat} {g : PlanEntry → PlanEntry} (hk : Stands s0 s) : Stands s0 (s.modPlanEntry f i g) :=
  hk.update rfl

theorem bumpPen {p : Nat} {c : PenCtr} {n : Nat} (hk : Stands s0 s) : Stands s0 (s.bumpPen p c n) :=
  hk.mailbox (.bumpPen s p c n)

theorem raise {p code p0 p1 : Nat} (hk : Stands s0 s) : Stands s0 (s.raise p code p0 p1) :=
  hk.crier (raise_crierOnly s p code p0 p1)

theorem hostOut {o : Output} (hk : Stands s0 s) : Stands s0 (s.hostOut o) := hk.crier (hostOut_crierOnly s o)

theorem mbFinish {r : MbRef} {reply : Reply} (hk : Stands s0 s) : Stands s0 (s.mbFinish r reply) :=
  hk.mailbox (.mbFinish s r reply)

theorem modRing {p k : Nat} {f : Ring → Ring} (hk : Stands s0 s)
    (same : ∀ g, ((f g).destroying, (f g).toll) = (g.destroying, g.toll)) : Stands s0 (s.modRing p k f) :=
  hk.modPen fun x _ => .inl (ringsStanding_mod same x)

/-! ### Completing a ring command -/

theorem ringGone {p k : Nat} (hk : Stands s0 s) : Stands s0 (s.ringGone p k) := by
  unfold State.ringGone
  split
  · exact hk
  next g held =>
    obtain ⟨x, there, ring⟩ := Option.bind_eq_some_iff.1 held
    split
    · exact hk
    next ref ending =>
      refine .ite ?_ hk
      have gone : Stands s0 (s.modPen p fun q => { q with rings := assocDel k q.rings }) := by
        refine hk.modPen fun y here => .inr ?_
        cases there.symm.trans here
        exact ringsStanding_none ring ending
      exact gone.mbFinish.foldl fun ht => ht.mbFinish

theorem cqAdvanced {p k r written : Nat} (hk : Stands s0 s) : Stands s0 (s.cqAdvanced p k r written) := by
  unfold State.cqAdvanced
  split
  · exact hk
  · refine .ite hk ?_
    extract_lets +onlyGivenNames _ s1
    have hs1 : Stands s0 s1 := (hk.crier (raiseTo_crierOnly _ _ _ _ _ _)).modRing fun _ => rfl
    split
    · exact hs1
    · exact .ite hs1 (hs1.crier (modEvRing_crierOnly _ _ _ _))

theorem complete {c : RingCmd} {r : Reply} (hk : Stands s0 s) : Stands s0 (s.complete c r) := by
  unfold State.complete
  split
  · exact hk
  · refine .ite ?_ hk
    extract_lets +onlyGivenNames _ _ _ s2 s3 s4
    have hs2 : Stands s0 s2 := hk.hostOut.modRing fun g => by
      split <;> rfl
    have hs3 : Stands s0 s3 := by
      unfold s3
      split
      · exact hs2.bumpPen
      · exact hs2.bumpPen
      · exact hs2.bumpDev
      · exact hs2
    have hs4 : Stands s0 s4 := by
      unfold s4
      split
      · exact hs3
      · exact .ite hs3.cqAdvanced hs3
    exact hs4.ringGone

/-! ### The fabric and the registry -/

theorem request {d op pen : Nat} {body : List Byte} {use : ReqUse} (hk : Stands s0 s) :
    Stands s0 (s.request d op pen body use) := by
  unfold State.request
  refine .ite hk ?_
  extract_lets +onlyGivenNames _ _ _ _ _ _ route _ _ s1
  cases route with
  | none => exact hk.update rfl
  | some p => exact hk.update rfl

theorem regAway {h : Handle} {op : Nat} {body : List Byte} {use : ReqUse} (hk : Stands s0 s) :
    Stands s0 (s.regAway h op body use) := hk.request

theorem freeExtent {p node off n : Nat} (hk : Stands s0 s) : Stands s0 (s.freeExtent p node off n) := hk.request

theorem oweEntry {h : Handle} (hk : Stands s0 s) : Stands s0 (s.oweEntry h) := by
  unfold State.oweEntry
  split
  · exact hk.update rfl
  · exact hk

theorem setSlice {n : Nat} {sl : Slice} (hk : Stands s0 s) : Stands s0 (s.setSlice n sl) := by
  unfold State.setSlice
  exact .ite (hk.update rfl) (hk.update rfl)

theorem modEntry {h : Handle} {f : RegEntry → RegEntry} (hk : Stands s0 s) : Stands s0 (s.modEntry h f) := by
  unfold State.modEntry
  split
  · exact hk
  · exact hk.setSlice

theorem regHere_fst {h : Handle} {op : Nat} {tail : List Byte} {use : ReqUse} (hk : Stands s0 s) :
    Stands s0 (s.regHere h op tail use).1 := by
  unfold State.regHere
  split
  · exact hk
  · extract_lets +onlyGivenNames _ q add
    have hadd : ∀ q, Stands s0 (add s q) := fun q => hk.update rfl
    split
    · exact hadd q
    · split
      · exact hk
      · split
        · dsimp only
          exact hk.modEntry.oweEntry
        · dsimp only
          exact (hadd _).request

theorem regLife_fst {h : Handle} {life : Life} (hk : Stands s0 s) : Stands s0 (s.regLife h life).1 := by
  unfold State.regLife
  extract_lets
  split
  · split
    · split
      · exact hk.modSess
      · split
        · next answer => exact (hk.regHere_fst.of_fst answer).modSess
        · next answer => exact hk.regHere_fst.of_fst answer
    · exact hk
  · dsimp only
    exact hk.regAway

/-! ### Sessions: records and output -/

theorem sendRecords {d : Nat} {h : Handle} {step : Nat} {recs : List Rec} {header : List (List Byte)}
    (hk : Stands s0 s) : Stands s0 (s.sendRecords d h step recs header) := by
  unfold State.sendRecords
  exact .request (hk.update rfl)

theorem formGroup {h : Handle} {recs : List Rec} {eff : CommitEffect} (hk : Stands s0 s) :
    Stands s0 (s.formGroup h recs eff) := by
  unfold State.formGroup
  split
  · exact hk
  · extract_lets +onlyGivenNames _ _ _ s1
    have hs1 : Stands s0 s1 := hk.update rfl
    split
    · exact hs1
    · exact hs1.sendRecords

theorem completeBuffer {h : Handle} (hk : Stands s0 s) : Stands s0 (s.completeBuffer h) := by
  unfold State.completeBuffer
  split
  · exact hk
  · split
    · exact hk
    · exact hk.modSess.bumpPen.formGroup

theorem completeWhile {p : Session → OutBuf → Bool} {n : Nat} {h : Handle} (hk : Stands s0 s) :
    Stands s0 (State.completeWhile p n s h) := by
  induction n generalizing s with
  | zero => exact hk
  | succ n ih =>
    unfold State.completeWhile
    split
    · exact hk
    · split
      · exact hk
      · exact .ite (ih hk.completeBuffer) hk

theorem settleOutput {h : Handle} {boundary park : Bool} (hk : Stands s0 s) :
    Stands s0 (s.settleOutput h boundary park) := by
  unfold State.settleOutput State.fillOutput
  split
  · exact hk
  · split
    · exact hk
    · split
      · exact hk
      · exact (hk.foldl fun ht => ht.hostOut).modSess.completeWhile

/-! ### Sessions: regrowth -/

theorem finishRegrowth {h : Handle} (hk : Stands s0 s) : Stands s0 (s.finishRegrowth h) := by
  unfold State.finishRegrowth
  split
  · exact hk
  · split
    · exact hk
    · extract_lets +onlyGivenNames _ _ s2
      have hs2 : Stands s0 s2 := hk.modSess.bumpPen.bumpPen
      split
      · exact .settleOutput (.raise hs2)
      · exact hs2

theorem endRegrowth {h : Handle} (hk : Stands s0 s) : Stands s0 (s.endRegrowth h) := by
  unfold State.endRegrowth
  split
  · exact hk
  · split
    · split
      · next answer => exact (hk.regLife_fst.of_fst answer).finishRegrowth
      · next answer => exact (hk.regLife_fst.of_fst answer).modSess
    · exact hk

theorem planRegrowth {h : Handle} (hk : Stands s0 s) : Stands s0 (s.planRegrowth h) := by
  unfold State.planRegrowth
  split
  · exact hk
  · exact hk.modSess.endRegrowth

theorem recoverFromLedger {h : Handle} (hk : Stands s0 s) : Stands s0 (s.recoverFromLedger h) := by
  unfold State.recoverFromLedger
  split
  · exact hk
  · split
    · exact hk.modSess.planRegrowth
    · exact hk.bumpPen.raise

theorem recover {h : Handle} {lost : Sheaf → Bool} (hk : Stands s0 s) : Stands s0 (s.recover h lost) := by
  unfold State.recover
  split
  · exact hk
  · split
    · exact hk.modSess.planRegrowth
    · split
      · split
        · exact hk.modSess.request
        · exact hk.recoverFromLedger
      · exact hk.recoverFromLedger

theorem finishFetch {h : Handle} {more : List Rec} {header : Option (List Byte)} (hk : Stands s0 s) :
    Stands s0 (s.finishFetch h more header) := by
  unfold State.finishFetch
  split
  · exact hk
  · exact hk.modSess.recover

theorem homeLost {h : Handle} (hk : Stands s0 s) : Stands s0 (s.homeLost h) := by
  unfold State.homeLost
  split
  · exact hk
  · refine .ite hk.modSess ?_
    unfold State.regrowAs
    extract_lets +onlyGivenNames _ s1
    have hs1 : Stands s0 s1 := .regLife_fst (.raise (.bumpPen (.bumpPen (hk.update rfl))))
    split
    · exact hs1.request
    · exact hs1.finishFetch

/-! ### Sessions: leaving a step, and faults -/

theorem slSend {p vc cls op step : Nat} {body : List Byte} (hk : Stands s0 s) :
    Stands s0 (s.slSend p vc cls op step body) := by
  unfold State.slSend
  split
  · exact hk.emit.modStepPort
  · exact hk

theorem sitOut {f i layer : Nat} {c : SitCause} (hk : Stands s0 s) : Stands s0 (s.sitOut f i layer c) := by
  unfold State.sitOut
  split
  · exact hk
  · split
    · refine .ite hk ?_
      extract_lets +onlyGivenNames s1 _ s2
      have hs2 : Stands s0 s2 := .ite hk.modPlanEntry.bumpPen hk.modPlanEntry.bumpPen
      exact hs2.foldl fun ht => ht.slSend
    · exact hk

theorem sitOutSession {h : Handle} {c : SitCause} (hk : Stands s0 s) : Stands s0 (s.sitOutSession h c) := by
  unfold State.sitOutSession
  split
  · exact hk
  · split
    · exact hk.sitOut
    · exact hk

theorem removeMove {m : Move} (hk : Stands s0 s) : Stands s0 (s.removeMove m) := by
  unfold State.removeMove
  extract_lets +onlyGivenNames s1
  have hs1 : Stands s0 s1 := hk.update rfl
  split
  · exact hs1.freeExtent
  · exact hs1

theorem offerWithdrawn {h : Handle} (hk : Stands s0 s) : Stands s0 (s.offerWithdrawn h) := by
  unfold State.offerWithdrawn
  split
  · exact hk
  · exact hk.update rfl

theorem withdrawOffer {h : Handle} (hk : Stands s0 s) : Stands s0 (s.withdrawOffer h) := by
  unfold State.withdrawOffer
  split
  · split
    · split
      · exact hk
      · split
        · exact hk.offerWithdrawn
        · split
          · next answer => exact (hk.regHere_fst.of_fst answer).offerWithdrawn
          · next answer => exact hk.regHere_fst.of_fst answer
    · exact hk
  · exact hk.regAway

theorem faultSession {h : Handle} {c : FaultCause} {lost : Sheaf → Bool} (hk : Stands s0 s) :
    Stands s0 (s.faultSession h c lost) := by
  unfold State.faultSession
  split
  · exact hk
  · extract_lets +onlyGivenNames s1 s2
    have hs1 : Stands s0 s1 := .setMoving (.bumpPen (hk.foldl fun ht => ht.removeMove))
    have hs2 : Stands s0 s2 := by
      unfold s2
      split
      · exact .ite hs1.withdrawOffer hs1
      · exact hs1
    split
    · exact hs2.modSess
    · exact hs2.modSess.sitOutSession
    · extract_lets +onlyGivenNames s3
      have hs3 : Stands s0 s3 := .ite hs2.modSess.regLife_fst hs2
      exact hs3.sitOutSession.recover
    · exact hs2.modSess.endLeases.bumpPen.bumpPen.raise.regLife_fst.recover

/-! ### Sessions: an opening that is undone -/

theorem freeIndex {h : Handle} (hk : Stands s0 s) : Stands s0 (s.freeIndex h) := by
  unfold State.freeIndex
  split
  · exact hk
  · exact .ite hk.setSlice (.ite hk hk.setSlice)

theorem reap {h : Handle} (hk : Stands s0 s) : Stands s0 (s.reap h) := by
  unfold State.reap
  split
  · exact hk
  · refine .ite ?_ hk
    unfold State.freeMap
    extract_lets +onlyGivenNames s1
    have hs1 : Stands s0 s1 := hk.update rfl
    split
    · split
      · exact .ite hs1.freeIndex hs1
      · exact hs1
    · exact hs1.regAway

theorem retire {h : Handle} (hk : Stands s0 s) : Stands s0 (s.retire h) := by
  unfold State.retire
  split
  · exact hk.regHere_fst
  · exact hk.regAway

theorem rewind {h : Handle} (hk : Stands s0 s) : Stands s0 (s.rewind h) := by
  unfold State.rewind
  split
  · exact hk
  · extract_lets +onlyGivenNames _
    refine .ite ?_ hk.modSess
    unfold State.undoOpen
    extract_lets +onlyGivenNames s1 _ s3 s4
    have hs1 : Stands s0 s1 := hk.foldl fun ht => ht.modSess.reap
    have hs3 : Stands s0 s3 := hs1.modSess.retire.update rfl
    have hs4 : Stands s0 s4 := by
      unfold s4
      split
      · exact hs3.request
      · exact hs3
    exact hs4.modSess.reap

/-! ### The census -/

theorem checkHalted (hk : Stands s0 s) : Stands s0 s.checkHalted := by
  unfold State.checkHalted
  exact .ite (.ite hk (hk.update rfl)) hk

theorem channelGone {c : Nat} (hk : Stands s0 s) : Stands s0 (s.channelGone c) := by
  unfold State.channelGone
  extract_lets +onlyGivenNames _ _ _ _ _ _ s1
  have hs1 : Stands s0 s1 := hk.update rfl
  refine .ite hs1 ?_
  extract_lets +onlyGivenNames _ _ s2
  have hs2 : Stands s0 s2 := hs1.update rfl
  exact hs2.foldl fun ht => ht.faultSession

theorem unitGone {u : ResetUnit} (hk : Stands s0 s) : Stands s0 (s.unitGone u) := by
  cases u with
  | flashController c => exact hk.channelGone
  | _ => exact hk.update rfl

theorem censusChange {lost : Bool} (hk : Stands s0 s) : Stands s0 (s.censusChange lost) := by
  unfold State.censusChange
  extract_lets +onlyGivenNames _ _ s1 s2
  have hs2 : Stands s0 s2 := .ite (hk.update rfl) (hk.update rfl)
  exact .checkHalted (hs2.crier (raiseAll_crierOnly _ _ _ _))

/-! ### A pen's restart -/

theorem clearMailbox {p : Nat} (hk : Stands s0 s) : Stands s0 (s.clearMailbox p) := by
  unfold State.clearMailbox
  refine .mailbox ?_ (.modMb _ _ _)
  split
  · exact .ite (hk.mailbox (.mbWrite _ _ _ _ _)) hk
  · exact hk

theorem tryDestroyIndex {p id : Nat} (hk : Stands s0 s) : Stands s0 (s.tryDestroyIndex p id) := by
  unfold State.tryDestroyIndex
  split
  · exact hk
  · split
    · exact hk
    · exact .ite (.mbFinish (hk.modPen fun _ _ => .inl rfl)) hk

theorem freeGenerations {p id : Nat} (hk : Stands s0 s) : Stands s0 (s.freeGenerations p id) :=
  hk.modPen fun _ _ => .inl rfl

theorem forgetCmds {p : Nat} (hk : Stands s0 s) : Stands s0 (s.forgetCmds p) := by
  unfold State.forgetCmds
  extract_lets +onlyGivenNames _ s1 s2
  have hs1 : Stands s0 s1 := hk.update rfl
  have hs2 : Stands s0 s2 := hs1.modPen fun x _ => .inl (ringsStanding_mapVals (f := Ring.unqueue) (fun _ => rfl) x)
  split
  · exact hs2
  · exact hs2.foldl fun ht => ht.freeGenerations.tryDestroyIndex

end
end Stands

/-- The counters of a ring that a restart clears, with its key and its buckets. -/
def restartView (y : Pen) : Option Reinit × List (Nat × Nat × Nat × Nat × Nat × Nat × Nat) :=
  (y.reinit, y.rings.map fun g => (g.1, g.2.sqTail, g.2.fetched, g.2.cqHead, g.2.written, g.2.tc, g.2.tp))

/-- Restarted rings have their counters at 0 and full buckets. -/
theorem restartView_restart (y : Pen) : restartView { y with reinit := none, rings := mapVals Ring.restart y.rings }
    = (none, (y.rings.map fun g => (g.1, g.2.toll)).map fun g => (g.1, 0, 0, 0, 0, g.2.cbs, g.2.pbs)) := by
  simp only [restartView, mapVals, List.map_map]
  rfl

/-- Mailboxes' completions leave what a restart clears. -/
theorem restartView_of_mailboxOnly {s t : State} (only : MailboxOnly s t) (p : Nat) :
    (t.pen? p).map restartView = (s.pen? p).map restartView :=
  assocGet_of_map_eq p (map_of_settled restartView (fun _ => rfl) only.pens)

/-- A pen's restart before its rings restart: what is owed is completed, its sessions go back to their last committed group
and sit out, and its commands are forgotten. -/
def readiedPen (s : State) (p : Nat) : State :=
  let s1 := ((s.openCmds p).foldl (fun t c => t.complete c (rStatus .abortedRetryable)) s).clearMailbox p
  (((s1.sessions.filter fun x => handlePen x.1 == p).map (·.1)).foldl (fun t h => (t.rewind h).sitOutSession h .fault)
    s1).forgetCmds p

theorem readiedPen_stands (s : State) (p : Nat) : Stands s (readiedPen s p) :=
  ((((Stands.refl s).foldl fun ht => ht.complete).clearMailbox).foldl fun ht => ht.rewind.sitOutSession).forgetCmds

/-- The rest of a pen's restart. -/
def restartedPen (s : State) (p : Nat) (viaLadder : Bool) : State :=
  let s1 := s.modPen p fun q => { q with reinit := none, rings := mapVals Ring.restart q.rings }
  let s2 := (s1.bumpPen p .penReinits 1).bumpDev .penReinits 1
  (if viaLadder then { s2 with ladder := { s2.ladder with busy := false } } else s2).raise p 0x0401 p 0

/-- A restart answers a next state, in these two parts. -/
theorem execPenReinitRestart_runs {s : State} {p : Nat} {x : Pen} {r : Reinit} (there : s.pen? p = some x)
    (reinit : x.reinit = some r) :
    execPenReinitRestart p s = .next (restartedPen (readiedPen s p) p r.viaLadder) := by
  simp only [execPenReinitRestart, there, Option.bind_some, reinit]
  rfl

/-- The rings of the pen restart. -/
theorem restartedPen_view (s : State) (p : Nat) (viaLadder : Bool) :
    ((restartedPen s p viaLadder).pen? p).map restartView
      = ((s.pen? p).map fun y => { y with reinit := none, rings := mapVals Ring.restart y.rings }).map restartView := by
  have counted (u : State) : ((if viaLadder then { u with ladder := { u.ladder with busy := false } } else u).pen? p)
      = u.pen? p := by
    split <;> rfl
  have bumped (u : State) : ((u.bumpPen p .penReinits 1).bumpDev .penReinits 1).pen? p
      = (u.bumpPen p .penReinits 1).pen? p := rfl
  rw [restartedPen, restartView_of_mailboxOnly (.crierOnly (raise_crierOnly _ _ _ _ _)), counted, bumped,
    restartView_of_mailboxOnly (.bumpPen _ _ _ _), pen?_modPen]

/-- BUSY of the ladder clears where it stood for the restart. -/
theorem restartedPen_busy (s : State) (p : Nat) (viaLadder : Bool) :
    (restartedPen s p viaLadder).ladder.busy = (s.ladder.busy && !viaLadder) := by
  rw [restartedPen, (raise_crierOnly _ _ _ _ _).rest]
  cases viaLadder with
  | true => exact (Bool.and_false _).symm
  | false => exact (Bool.and_true _).symm

/-- Settles O23. -/
theorem penReinitsComplete : Obligations.PenReinitsComplete := by
  unfold Obligations.PenReinitsComplete
  intro mb s c p x r
  refine ⟨fun begins y there idle quiet => ?_, fun there reinit standing => ?_, fun there reinit => ?_⟩
  · have calm : (s.mbTake mb c).warmPending = false := by
      rw [State.warmPending, (MailboxOnly.mbTake s mb c).rest]
      exact quiet
    change execPenReinit mb s = _
    refine mbRun_now begins ?_
    simp only [withPen_some there, idle, calm, Option.isSome_none, Bool.or_self, Bool.false_eq_true, if_false]
  · refine ⟨restartedPen (readiedPen s p) p r.viaLadder, execPenReinitRestart_runs there reinit, ?_, ?_⟩
    · have stood : (s.pen? p).bind ringsStanding = some (x.reinit, x.rings.map fun g => (g.1, g.2.toll)) := by
        rw [there, Option.bind_some, ringsStanding, if_pos]
        exact List.all_eq_true.2 fun g listed => Option.isNone_iff_eq_none.2 (standing g listed)
      obtain ⟨y, here, stands⟩ := Option.bind_eq_some_iff.1 ((readiedPen_stands s p).rings p _ stood)
      rw [ringsStanding, Option.ite_none_right_eq_some, Option.some_inj, Prod.mk.injEq] at stands
      obtain ⟨_, _, same⟩ := stands
      refine (restartedPen_view _ _ _).trans ?_
      rw [here, Option.map_some, Option.map_some, restartView_restart, same, List.map_map]
      rfl
    · rw [restartedPen_busy, (readiedPen_stands s p).ladder]
  · change execPenReinitOverrun p s = _
    simp only [execPenReinitOverrun, there, Option.bind_some, reinit]
end Sys2Proof.Proofs
end

section
/-!
SUPPORT. The completion statement of warm resets (O47): a rejoin in two parts, the device and then the units that did not come
back.
-/
namespace Sys2Proof.Proofs
open Sys2Proof.Machine Sys2Proof.Safety Sys2Proof.Laws

namespace Stands

variable {s0 s : State}

theorem ringLost {p k : Nat} (hk : Stands s0 s) : Stands s0 (s.ringLost p k) := by
  unfold State.ringLost
  extract_lets +onlyGivenNames _ _ s1
  have hs1 : Stands s0 s1 := hk.update rfl
  exact (hs1.modRing (f := Ring.restart) fun _ => rfl).crier (raiseTo_crierOnly _ _ _ _ _ _)

theorem announce (hk : Stands s0 s) : Stands s0 s.announce := by
  unfold State.announce
  exact hk.foldl fun ht => ht.request

theorem freeSources (hk : Stands s0 s) : Stands s0 s.freeSources := by
  unfold State.freeSources
  refine hk.foldl fun ht => ?_
  unfold State.freeSource
  extract_lets +onlyGivenNames s1
  have hs1 : Stands s0 s1 := ht.update rfl
  split
  · exact hs1.freeExtent
  · exact hs1

theorem serve (hk : Stands s0 s) : Stands s0 s.serve := by
  unfold State.serve
  refine .ite (hk.update rfl) ?_
  extract_lets +onlyGivenNames _ s1
  have hs1 : Stands s0 s1 := .checkHalted (hk.update rfl)
  exact .ite (hs1.update rfl) hs1

theorem deviceRestarted {rung : Nat} (hk : Stands s0 s) : Stands s0 (s.deviceRestarted rung) := by
  unfold State.deviceRestarted
  exact hk.foldl fun ht => ht.raise.bumpPen

end Stands

/-- A rejoin up to the ladder: lost rings and sessions, what the reset recorded, and the events. -/
def rejoinedDevice (s : State) (badRings : List (Nat × Nat)) (badSessions : List Handle) : State :=
  let s2 := badRings.foldl (fun t b => t.ringLost b.1 b.2) s
  let s3 := (badSessions.foldl (fun t h => t.homeLost h) s2).announce
  let s4 := s3.recovery.recorded.foldl (fun t c => t.complete c (rStatus .abortedRetryable))
    { s3 with recovery := { s3.recovery with recorded := [] } }
  let s5 := (s4.freeSources.serve).deviceRestarted 3
  let s6 := if s5.recovery.abandonedUpdate then
      (({ s5 with recovery := { s5.recovery with abandonedUpdate := false } }).raiseAll 0x0002 s5.fwVersion 1) else s5
  if s6.commons.exhausted then s6.raise 0 0x0605 0 0 else s6

theorem rejoinedDevice_stands (s : State) (badRings : List (Nat × Nat)) (badSessions : List Handle) :
    Stands s (rejoinedDevice s badRings badSessions) := by
  unfold rejoinedDevice
  extract_lets s2 s3 _ s4 s5 _ s6
  have hs3 : Stands s s3 := (((Stands.refl s).foldl fun ht => ht.ringLost).foldl fun ht => ht.homeLost).announce
  have hs4 : Stands s s4 := by
    refine .foldl ?_ fun ht => ht.complete
    exact hs3.update rfl
  have hs5 : Stands s s5 := hs4.freeSources.serve.deviceRestarted
  have hs6 : Stands s s6 := by
    refine .ite (.crier ?_ (raiseAll_crierOnly _ _ _ _)) hs5
    exact hs5.update rfl
  exact .ite hs6.raise hs6

/-- The rest of a rejoin: the units that did not come back leave the census. -/
def rejoinedUnits (s : State) (lostUnits : List ResetUnit) : State :=
  if (lostUnits.foldl State.unitGone s).recovery = s.recovery then s else (lostUnits.foldl State.unitGone s).censusChange true

theorem rejoinedUnits_stands (s : State) (lostUnits : List ResetUnit) : Stands s (rejoinedUnits s lostUnits) :=
  .ite (.refl s) (.censusChange ((Stands.refl s).foldl fun ht => ht.unitGone))

/-- A rejoin of a warm reset that has reset the main side answers a next state, in these two parts. -/
theorem execWarmResetRejoin_runs {s : State} {t0 : Nat} (resets : s.recovery.warm = some (t0, 1)) (units : List ResetUnit)
    (rings : List (Nat × Nat)) (handles : List Handle) :
    let u := rejoinedDevice { s with recovery := { s.recovery with warm := none } } rings handles
    execWarmResetRejoin units rings handles s
      = .next (rejoinedUnits { u with ladder := { u.ladder with busy := false, waiting := none } } units) := by
  simp only [execWarmResetRejoin, resets]
  exact (apply_ite Host.Outcome.next _ _ _).symm

/-- A trigger that is not ignored: the third within 2^31 cycles is a power cycle, any other begins a warm reset. -/
theorem triggerWarm_fresh {s : State} {cause : Nat} (free : s.recovery.warm = none) (booted : s.ident.devState ≠ .boot) :
    let hist := (s.recovery.warmHistory.filter fun t => decide (s.clock.now < t + 2 ^ 31)) ++ [s.clock.now]
    let u := s.rungTaken 3 cause
    s.triggerWarm cause = if 3 ≤ hist.length then s.powerCycle 7
      else { u with recovery := { u.recovery with warm := some (s.clock.now, 0), warmHistory := hist } } := by
  have heard : (s.warmPending || decide (s.ident.devState = .boot)) = false := by
    rw [State.warmPending, free, decide_eq_false booted]
    rfl
  rw [State.triggerWarm, heard]
  rfl

/-- Settles O47. -/
theorem warmResetsComplete : Obligations.WarmResetsComplete := by
  unfold Obligations.WarmResetsComplete
  refine ⟨fun s n => ⟨fun t0 begun => ⟨?_, ?_⟩, fun t0 resets units rings handles => ?_, fun runs harts none_ booted => ?_,
    fun t0 ph stands runs => ?_, fun long runs served high => ?_⟩, fun s cause => ⟨fun ignored => ?_, fun none_ booted =>
    ⟨fun many => ?_, fun few => ?_⟩⟩⟩
  · change execWarmReset true s = _
    simp only [execWarmReset, begun, if_true]
  · change execWarmReset false s = _
    simp only [execWarmReset, begun, Bool.false_eq_true, if_false]
  · refine ⟨_, execWarmResetRejoin_runs resets units rings handles, ?_, ?_, ?_⟩
    · rw [(rejoinedUnits_stands _ _).warm]
      exact (rejoinedDevice_stands _ _ _).warm
    · rw [(rejoinedUnits_stands _ _).ladder]
    · rw [(rejoinedUnits_stands _ _).ladder]
  · change execReeveWatchdog s = _
    have heard : (!s.watchmanRuns || (s.debugPort.harts.any fun h => h.1 < 16 && h.2.halted) || s.warmPending
        || decide (s.ident.devState = .boot)) = false := by
      rw [runs, harts, State.warmPending, none_, decide_eq_false booted]
      rfl
    simp only [execReeveWatchdog, heard, Bool.false_eq_true, if_false]
  · change execWarmResetTimeout s = _
    simp only [execWarmResetTimeout, stands, runs, if_true]
  · change execWarmRstL n s = _
    simp only [execWarmRstL, decide_eq_true long, runs, served, high, Bool.not_false, Bool.and_self, if_true]
  · have deaf : (s.warmPending || decide (s.ident.devState = .boot)) = true := by
      obtain stands | boots := ignored
      · rw [State.warmPending, Option.isSome_iff_ne_none.2 stands, Bool.true_or]
      · rw [decide_eq_true boots, Bool.or_true]
    rw [State.triggerWarm, if_pos deaf]
  · rw [triggerWarm_fresh none_ booted, if_pos (by rw [List.length_append, List.length_singleton]; omega)]
  · rw [triggerWarm_fresh none_ booted, if_neg (by rw [List.length_append, List.length_singleton]; omega)]
    exact ⟨rfl, rfl, rfl⟩
end Sys2Proof.Proofs
end
